-- ==== Sys2Proof/Word.lean ====
section
/-! DEFINITION. The word types of the NS4 and their plainest arithmetic. -/

namespace Sys2Proof

/-- One byte. -/
abbrev Byte := BitVec 8
/-- A register or scalar value of 64 bits. -/
abbrev Word := BitVec 64
/-- A card: 64 bytes, byte k at bits [8k+7:8k] (R10: little-endian). -/
abbrev Card := BitVec 512

/-- Bits [hi:lo] of a word, as a number (R10: [msb:lsb], bit 0 the least significant). -/
def bits {w : Nat} (v : BitVec w) (hi lo : Nat) : Nat := v.toNat / 2 ^ lo % 2 ^ (hi + 1 - lo)

/-- `v` with bits [hi:lo] replaced by the low bits of `x`. -/
def setBits {w : Nat} (v : BitVec w) (hi lo x : Nat) : BitVec w :=
  let m := 2 ^ (hi + 1 - lo)
  BitVec.ofNat w (v.toNat - (v.toNat / 2 ^ lo % m) * 2 ^ lo + (x % m) * 2 ^ lo)

end Sys2Proof
end

