-- ==== Sys2Proof/Program.lean ====
section
/-! DEFINITION. What a compute program is made of: formats (R34), rounding and overflow fields (R44),
descriptors, operations, bundles, and the object container that carries them (R136). -/

namespace Sys2Proof

/-- Format codes 0x00–0x11 (Table 2-1). -/
inductive Fmt where
  | fp32 | fp16 | bf16 | e4m3 | e5m2 | e3m2 | e2m3 | e2m1 | int8
  | mxfp8e4m3 | mxfp8e5m2 | mxfp6e3m2 | mxfp6e2m3 | mxfp4 | mxint8 | e8m0 | int32 | exact
  deriving DecidableEq, Repr, Inhabited

/-- The 5-bit format code (R34); 0x12–0x1F are reserved. -/
def Fmt.ofCode : Nat → Option Fmt
  | 0 => some .fp32 | 1 => some .fp16 | 2 => some .bf16 | 3 => some .e4m3 | 4 => some .e5m2
  | 5 => some .e3m2 | 6 => some .e2m3 | 7 => some .e2m1 | 8 => some .int8 | 9 => some .mxfp8e4m3
  | 10 => some .mxfp8e5m2 | 11 => some .mxfp6e3m2 | 12 => some .mxfp6e2m3 | 13 => some .mxfp4
  | 14 => some .mxint8 | 15 => some .e8m0 | 16 => some .int32 | 17 => some .exact | _ => none

/-- RND of a conversion (R44). -/
inductive Rnd where | rne | sr
  deriving DecidableEq, Repr, Inhabited

/-- OVF of a conversion (R44). -/
inductive Ovf where | sat | nonsat
  deriving DecidableEq, Repr, Inhabited


/-- The engines of a core, in the order of R117. -/
inductive EngId where | mx | ve | ld | st
  deriving DecidableEq, Repr, Inhabited

/-! ### The scalar slot (Tables 4-1, 5-4, 6-1) -/

/-- A register or an immediate operand. -/
inductive Opnd where
  | reg (n : Nat)
  | imm (v : Int)
  deriving DecidableEq, Repr, Inhabited

/-- The integer operations of Table 6-1 on two operands. -/
inductive AluF where
  | add | sub | and | or | xor | shl | shr | sra | min | max | minu | maxu | seq | slt | sltu | mul
  deriving DecidableEq, Repr, Inhabited

/-- The two-operand FP32 operations of Table 6-1. -/
inductive FopF where | fadd | fsub | fmul | fmin | fmax | feq | flt | fle
  deriving DecidableEq, Repr, Inhabited

/-- Branch conditions (R123). -/
inductive Cond where | eq | ne | lt | ge | ltu | geu
  deriving DecidableEq, Repr, Inhabited

/-- The writable fields of a descriptor (R157). -/
inductive DField where
  | base | esize | sshift | step | rbase | rsize
  | count (n : Nat)
  | stride (n : Nat)
  deriving DecidableEq, Repr, Inhabited

/-- Operations of the SC slot. -/
inductive ScOp where
  | alu (f : AluF) (d a : Nat) (b : Opnd)
  | li (d : Nat) (imm : Int)
  | lih (d : Nat) (imm : Int)
  | fop (f : FopF) (d a b : Nat)
  | fma (d a b c : Nat)
  | fcvtF (d a : Nat)
  | fcvtI (d a : Nat)
  | ldn (size : Nat) (unsigned : Bool) (d a : Nat) (imm : Int)
  | stn (size : Nat) (a : Nat) (imm : Int) (b : Nat)
  | sread (d sel : Nat)
  | br (target : Nat)
  | brc (c : Cond) (a b target : Nat)
  | loop (count : Opnd) (last : Nat)
  | call (target : Nat)
  | ret
  | endp
  | dset (d : Nat) (f : DField) (v : Opnd)
  | dadd (d : Nat) (v : Opnd)
  | dcopy (d e : Nat)
  deriving DecidableEq, Repr, Inhabited

/-- Operations of the SY slot (Table 4-2). -/
inductive SyOp where
  | wait (f n : Nat)
  | waitNc (f n : Nat)
  | signal (f n : Nat)
  | waitSignal (f n g m : Nat)
  | set (f v : Nat)
  | idle (mask : Nat)
  deriving DecidableEq, Repr, Inhabited

/-- The synchronisation fields of a queued operation (Table 4-3). -/
structure SyncF where
  wflag : Option Nat := none
  wcount : Nat := 1
  keep : Bool := false
  sflag : Option Nat := none
  scount : Nat := 1
  tile : Bool := false
  tl : Option Nat := none
  deriving DecidableEq, Repr, Inhabited

/-! ### The matrix slot (Tables 3-2, 3-3) -/

inductive MxKind where | mmaOs | mmaWs | mmaWt | ewmul | accDrain
  deriving DecidableEq, Repr, Inhabited

inductive MxInit where | zero | load | keep
  deriving DecidableEq, Repr, Inhabited

/-- An MX operation; `call` is an entry of the CALLNUMS section. -/
structure MxOp where
  kind : MxKind
  amask : Nat
  fa : Nat
  fb : Nat
  fout : Nat
  exact : Bool
  ew : Int
  sparse : Bool
  init : MxInit
  hold : Bool
  wHold : Bool
  kp : Nat
  np : Nat
  nt : Nat
  tok : Nat
  n : Nat
  rnd : Rnd
  ovf : Ovf
  srBase : Nat
  srTstep : Int
  srStride : Nat
  call : Option Nat
  da : Option Nat
  da2 : Option Nat
  db : Option Nat
  dmeta : Option Nat
  dsa : Option Nat
  dsb : Option Nat
  dc : Option Nat
  dsc : Option Nat
  dl : Option Nat
  sync : SyncF
  deriving DecidableEq, Repr, Inhabited

/-! ### The vector slot (Tables 6-5, 6-6) -/

/-- Sources of a lane step (R175). -/
inductive Src where
  | x | y | w | g | h | sa | sb
  | k (n : Nat)
  | t (n : Nat)
  deriving DecidableEq, Repr, Inhabited

inductive StepOp where
  | add | sub | mul | fma | min | max | abs | neg | ceq | clt | cle | sel
  | rcp | sqrt | rsqrt | exp2 | log2 | tanh | sigmoid
  deriving DecidableEq, Repr, Inhabited

/-- One step: temporary `dst` := op of up to three sources. -/
structure LaneStep where
  op : StepOp
  dst : Nat
  a : Src
  b : Src
  c : Src
  deriving DecidableEq, Repr, Inhabited

inductive RedKind where | none | sum | max | min | absmax | argmax | nonfinite | nonzero
  deriving DecidableEq, Repr, Inhabited

inductive RTgt where
  | none
  | dr
  | scalar (d f : Nat)
  deriving DecidableEq, Repr, Inhabited

structure VeOp where
  vred : Bool
  b16 : Bool
  fx : Option Nat
  fy : Option Nat
  fw : Option Nat
  fg : Option Nat
  fh : Option Nat
  fout : Nat
  steps : List LaneStep
  k : List Nat
  sa : Option Nat
  sb : Option Nat
  outt : Option Src
  red : RedKind
  rsrc : Option Src
  rl : Nat
  rtgt : RTgt
  rnd : Rnd
  ovf : Ovf
  srBase : Nat
  srStride : Nat
  call : Option Nat
  srCols : Nat
  dx : Option Nat
  dy : Option Nat
  dw : Option Nat
  dg : Option Nat
  dh : Option Nat
  dz : Option Nat
  dzs : Option Nat
  dr : Option Nat
  sync : SyncF
  deriving DecidableEq, Repr, Inhabited

/-! ### The load and store slots (R148, Tables 7-3, R199, R222, R223) -/

inductive CntKind where | eq | gt | lt | nan | inf | nonfin
  deriving DecidableEq, Repr, Inhabited

/-- Target of a count: one scalar delivery, or a map walk. -/
inductive CntTgt where
  | scalar (d f : Nat)
  | dm (desc : Nat)
  deriving DecidableEq, Repr, Inhabited

inductive LdOp where
  | ld (win off near far : Nat) (sync : SyncF)
  | scnt (ds fmt : Nat) (kind : CntKind) (sv rl : Nat) (tgt : CntTgt) (sync : SyncF)
  | scas (a : Nat) (imm : Int) (se sn d f : Nat) (sync : SyncF)
  | smcnt (win off ds fmt : Nat) (kind : CntKind) (sv rl : Nat) (tgt : CntTgt) (sync : SyncF)
  | smcas (win off : Nat) (imm : Int) (se sn d f : Nat) (sync : SyncF)
  deriving DecidableEq, Repr, Inhabited

inductive StOp where
  | st (win off near far : Nat) (sync : SyncF)
  | stLink (buf near far : Nat) (sync : SyncF)
  | stSignal (u f n : Nat) (sync : SyncF)
  deriving DecidableEq, Repr, Inhabited

/-! ### Bundles -/

/-- An operation in a slot of a bundle as the container holds it (any kind in any slot; R104). -/
inductive SlotOp where
  | sc (o : ScOp)
  | sy (o : SyOp)
  | mx (o : MxOp)
  | ve (o : VeOp)
  | ld (o : LdOp)
  | st (o : StOp)
  deriving DecidableEq, Repr, Inhabited

/-- The six slots of a bundle as the container holds them. -/
structure RawBundle where
  sc : Option SlotOp := none
  sy : Option SlotOp := none
  mx : Option SlotOp := none
  ve : Option SlotOp := none
  ld : Option SlotOp := none
  st : Option SlotOp := none
  deriving DecidableEq, Repr, Inhabited

/-- A bundle (Table 4-1). -/
structure Bundle where
  sc : Option ScOp := none
  sy : Option SyOp := none
  mx : Option MxOp := none
  ve : Option VeOp := none
  ld : Option LdOp := none
  st : Option StOp := none
  deriving DecidableEq, Repr, Inhabited

/-- What the CODE section of a compute container holds, as the private encoding spells it (R6): each
bundle, `none` where the bytes do not decode, and whether a partial bundle follows. -/
structure CodeImage where
  bundles : List (Option RawBundle)
  partialTail : Bool
  deriving DecidableEq, Repr, Inhabited

/-- A bit error that a memory word takes from outside: its byte address, and whether two bits of the word
are wrong (R201). -/
structure Upset where
  addr : Nat
  double : Bool
  deriving DecidableEq, Repr

end Sys2Proof
end

