-- ==== Sys2Proof/World.lean ====
section
/-! DEFINITION. What the world outside supplies with an event: readings of devices beyond the package. -/

namespace Sys2Proof

/-- What a CMIS transaction with a cartridge found (R332): whether the bus answered, the CMIS revision in tenths,
whether it advertises the host interface of its class, its reach class, serial and vendor fields, the wear page,
and whether it flags a module fault, a temperature alarm or a loss of power (R336). -/
structure CartRead where
  busOk : Bool
  rev : Nat
  hostIf : Bool
  reach : Nat
  serial : Nat
  vendor : Nat
  page : List Byte
  failed : Bool
  /-- Transactions of the poll that were retried and then succeeded (R331). -/
  retries : Nat := 0
  deriving DecidableEq, Repr

/-- The board description in boot flash, and the port map beside it where there is one (R306, R312, R465, R526, R527,
R532, R533). -/
structure BoardDesc where
  /-- Its bytes, as MREG[1] is extended with them, and whether its checksum holds. -/
  bytes : List Byte := []
  checksum : Bool := true
  hostPriv : Bool := false
  fabricMgmt : Bool := false
  /-- TRUST.OPR_KEY (48 bytes), SYS_KEY[0–1] (96 bytes each) and SYS_KEY_EN. -/
  oprKey : List Byte := []
  sysKeys : List Byte := []
  sysKeyEn : Nat := 0
  /-- CLK.CCLK_MAX. -/
  cclkMax : Nat := 0
  /-- Unit queues with a ring of their own: queue, DEPTH_LOG2, BASE. -/
  rings : List (Nat × Nat × Nat) := []
  /-- GROUP, REACH and EN of each port, as PORT_CFG bits [5:0] hold them. -/
  portMap : Option (List Nat) := none
  /-- STANDBY and MIN_WIDTH of each port. -/
  standby : List Nat := []
  minWidth : List Nat := []
  portLock : Bool := false
  deriving DecidableEq, Repr, Inhabited

/-- How far an operation of a matrix or vector engine, or a count, goes with one command, in stretches (R99), strips (R181) or
requests, and the upsets that its accesses meet. -/
structure Advance where
  n : Nat
  upsets : List Upset := []
  deriving DecidableEq, Repr

/-- A flit as the far end's lanes bring it; `locked`: every active lane holds FEC lock (R322). -/
structure RxFlit where
  bits : BitVec 2048
  locked : Bool
  deriving DecidableEq, Repr

/-- What the receiver finds on a lane (R327): whether it was lost (FEC lock, a transmitter fault, a CMIS loss), and the
uncorrectable codewords of one ms. -/
structure LaneLoss where
  lost : Bool
  ucw : Nat
  deriving DecidableEq, Repr

/-- How far the rebuild walk of a tier has come (R220). -/
structure RebuildWalk where
  tier : Fin 8
  rows : Fin 16385
  deriving DecidableEq, Repr

/-- What an MCTP message is (R506): its type, and its SPDM request code, Dreutlan command byte or PLDM type. -/
structure MctpHead where
  type : Fin 128
  code : BitVec 8
  deriving DecidableEq, Repr

end Sys2Proof
end

