-- ==== Sys2Proof/Syntax.lean ====
section
/-! DEFINITION. The commands and events that the NS4 takes: one constructor per row of
spec/opcode_table.json, in the table's order.  The docstring of a constructor is the row's own
summary with its rule; operands are what the sender (or, for an event, the world outside) supplies. -/

namespace Sys2Proof

inductive Instr where
  /-- `BUNDLE_ISSUE` (R106). The control sequencer issues one whole bundle once no hold condition remains, and its slots act in the fixed order of wait, operand read, enqueue, SC execution and signal. -/
  | bundleIssue (core : Fin 128) (dt : Nat) (upsets : List Upset)
  /-- `POD_FLAG_WAIT_REQUEST` (R117). The pod arbiter judges a consuming-wait request that a core sent to a pod flag and returns a grant or a refusal one cycle later. -/
  | podFlagWaitRequest (core : Fin 128) (waiter : Fin 5)
  /-- `MMA_OS` (R72). An output-stationary matrix operation begins once it heads the MX queue with its wait met, and accumulates its tiles over passes of groups. -/
  | mmaOs (core : Fin 128) (parity : Option (Nat × Nat)) (go : Advance)
  /-- `MMA_WS` (R87). A held-operand forward operation begins and streams token blocks past the held weight tile. -/
  | mmaWs (core : Fin 128) (parity : Option (Nat × Nat)) (go : Advance)
  /-- `MMA_WT` (R88). A held-operand transposed operation begins and streams dy tokens past the held tile to form dx. -/
  | mmaWt (core : Fin 128) (parity : Option (Nat × Nat)) (go : Advance)
  /-- `EWMUL` (R97). An element-wise multiply begins on one array and converts each product once to FOUT. -/
  | ewmul (core : Fin 128) (go : Advance)
  /-- `ACC_DRAIN` (R75). Every held accumulator set of the selected arrays is converted and written, in the order in which the sets were held. -/
  | accDrain (core : Fin 128) (parity : Option (Nat × Nat)) (upsets : List Upset)
  /-- `TILE_DRAIN` (R76). A finished accumulator set is converted row by row and written through DC once its beats find port cycles. -/
  | tileDrain (core : Fin 128)
  /-- `VMAP` (R174). A vector operation begins, runs its lane program over strips, writes OUTT through DZ and may also reduce. -/
  | vmap (core : Fin 128) (go : Advance)
  /-- `VRED` (R174). A vector operation begins, runs its lane program and reduces RSRC into DR or into a scalar. -/
  | vred (core : Fin 128) (go : Advance)
  /-- `DELIVERY` (R108). A reduction or a count at the memory writes its result into one scalar register and increments one flag in the same cycle. -/
  | delivery (core : Fin 128) (eng : EngId) (dt : Nat) (withVe : Bool)
  /-- `LD` (R148). A load begins and moves the elements of its far walk from stage memory or a landing window into the scratchpad. -/
  | ld (core : Fin 128)
  /-- `ST` (R148). A store begins and moves scratchpad elements to stage memory, a landing window or a bound send buffer. -/
  | st (core : Fin 128)
  /-- `ST_SIGNAL` (R120). An ST.SIGNAL is released once every earlier ST of the issuing core has completed, and it then travels to the target core's flag. -/
  | stSignal (core : Fin 128)
  /-- `ST_SIGNAL_DELIVERY` (R121). A released ST.SIGNAL reaches its target core and adds n to the core flag. -/
  | stSignalDelivery (core : Fin 128)
  /-- `SCNT` (R195). A count begins and counts scratchpad elements that meet a test, delivering to a register or writing a map. -/
  | scnt (core : Fin 128) (go : Advance)
  /-- `SCAS` (R199). A compare-and-swap of one 64-bit scratchpad word is performed in one bank cycle and the old word is delivered. -/
  | scas (core : Fin 128) (upsets : List Upset)
  /-- `SMCNT` (R222). A count begins and counts elements of a stage-memory walk at the channels. -/
  | smcnt (core : Fin 128)
  /-- `SMCAS` (R223). A compare-and-swap of one 64-bit stage-memory word is performed through a window. -/
  | smcas (core : Fin 128)
  /-- `COMPLETION_POINT` (R116). An engine's tile or operation reaches its completion point and raises its signal. -/
  | completionPoint (core : Fin 128) (eng : EngId)
  /-- `STAGE_MEMORY_RESPONSE` (R209). A stage-memory read or write completes at its requester, and PEND counts fall as reads land. -/
  | stageMemoryResponse (core : Fin 128) (eng : EngId) (pick : Nat) (upsets : List Upset)
  /-- `ECC_WRITE_BACK` (R201). A corrected scratchpad word is written back in the next cycle in which no request reaches its bank. -/
  | eccWriteBack (core : Fin 128) (addr : Nat)
  /-- `JOB_END` (R126). The job ends in the cycle its last core has ended, and the job-end path writes the DONE card, frees or keeps the shelf, and clears the scratchpads. -/
  | jobEnd (unit : Fin 171) (eng : List Nat)
  /-- `PARK_REQUEST` (R129). A park request from a freeze, a dump, QSTOP, a tear-down or the bundle limit stops issue on every core of the unit. -/
  | parkRequest (unit : Fin 171) (reason : Fin 6)
  /-- `PARK_POINT` (R130). An engine reaches its park point and records its state, and the unit is parked once every engine has. -/
  | parkPoint (core : Fin 128) (eng : EngId) (inFlight : Nat)
  /-- `PARK_TIMEOUT` (R130). An engine that has not reached its park point within 256 cycles ends the job with 0x2003. -/
  | parkTimeout (core : Fin 128) (eng : EngId)
  /-- `RESUME` (R132). Once every park source has released the unit, it resumes on all its cores in one UCLK cycle and owed signals and deliveries are raised. -/
  | resume (unit : Fin 171)
  /-- `SYNC_DEADLOCK` (R122). A waiter's count reaches the wait limit, the hang snapshot is taken, the cores park and the context is torn down with 0x2001. -/
  | syncDeadlock (unit : Fin 171) (core : Fin 128) (waiter : Fin 5) (dt : Nat)
  /-- `BUNDLE_LIMIT` (R134). The bundle count reaches DBG_BUNDLE_LIMIT and the sequencer issues no further bundle. -/
  | bundleLimit (core : Fin 128)
  /-- `SETTLE` (R134). When every core of the unit has settled, the unit parks with REASON 5. -/
  | settle (unit : Fin 171)
  /-- `DBG_BUNDLE_LIMIT` (R135). A privileged debug write sets the bundle limit, which applies to the next job or at resume. -/
  | dbgBundleLimit (core : Fin 128) (limit : Word)
  /-- `AG_SEL` (R164). A privileged debug write selects the descriptor that AG_VIEW shows. -/
  | agSel (core : Fin 128) (desc : Fin 32)
  /-- `DBG_ADDR` (R206). A write while the unit is parked starts a debug read of one scratchpad word, which is performed when the bank is free. -/
  | dbgAddr (core : Fin 128) (waddr : BitVec 16)
  /-- `JOB_DISPATCH` (R250). The dispatcher takes the first-ranked startable job card, writes the windows, and runs the card, width, shelf and window checks before starting the job. -/
  | jobDispatch
  /-- `JOB_WATCHDOG` (R377). WD_COUNT reaches CERT_CYCLES + 1, the hang snapshot is taken, the unit parks and the context is torn down with 0x7003. -/
  | jobWatchdog (unit : Fin 171) (dt : Nat)
  /-- `SNAP_UNIT` (R455). A write of a unit number requests a hang snapshot of that unit. -/
  | snapUnit (unit : Fin 171) (dt : Nat)
  /-- `ENQUEUE` (R240). An agent's enqueue request wins the card-store write port, and the card is written unless the queue is full or the enqueue is refused. -/
  | enqueue (agent : Fin 56) (queue : Fin 4096) (card : BitVec 512)
  /-- `DEQUEUE` (R240). An agent's dequeue request wins the read port and takes the head card, or the idle card when the queue is empty. -/
  | dequeue (agent : Fin 56) (queue : Fin 4096) (err : Nat)
  /-- `QUEUE_ENABLE` (R238). A write of QCFG.EN = 1 enables the queue and zeroes its pointers, or is refused with CFG_ERR. -/
  | queueEnable (queue : Fin 4096)
  /-- `QUEUE_DISABLE` (R238). A write of QCFG.EN = 0 empties the queue with the consequences of a flush. -/
  | queueDisable (queue : Fin 4096)
  /-- `FLUSH` (R265). QM.CTRL.FLUSH empties queue QSEL, releases slots and grants that the removed items hold, and aborts bound jobs. -/
  | flush
  /-- `CARD` (R258). A CARD packet arrives at the receive FIFO and, in routed mode, is acted on by its tag once it reaches the FIFO head. -/
  | card (port : Fin 33)
  /-- `LEAD_CARD_ENQUEUE` (R261). The lead card of a cut-through grant is enqueued in the first cycle READY reaches min(THRESH, ROWS) and the queue has room. -/
  | leadCardEnqueue
  /-- `READINESS_SIGNAL` (R263). The queue manager adds the increase of floor(READY / PACE) to the bound job's readiness flag. -/
  | readinessSignal (unit : Fin 171)
  /-- `RETIRE` (R255). A RETIRE card retires every replay-window entry of its accession in the named queue. -/
  | retire (card : BitVec 512)
  /-- `REPLAY_REQ` (R257). A received replay request re-enqueues the recorded SEND cards of its accession, or is answered with a REPLAY_NAK. -/
  | replayReq (card : BitVec 512)
  /-- `REPLAY_NAK` (R257). A received REPLAY_NAK raises 0x4008 REPLAY_MISS on the named context, which is torn down. -/
  | replayNak (card : BitVec 512)
  /-- `SHELF_SET_ENABLE` (R252). A write of SHELF_CFG.EN enables a shelf set after its region checks, or is refused with CFG_ERR. -/
  | shelfSetEnable (set : Fin 32)
  /-- `ASSEMBLER_ENABLE` (R269). A write of ASM_CFG.EN enables a batch assembler after its checks, or is refused with CFG_ERR. -/
  | assemblerEnable (asm : Fin 16)
  /-- `SERVE_REQ` (R270). An enabled assembler dequeues a SERVE_REQ, which joins the open batch or opens a new one. -/
  | serveReq (asm : Fin 16)
  /-- `BATCH_DEADLINE` (R270). The deadline of an open batch passes, and the batch closes. -/
  | batchDeadline (asm : Fin 16)
  /-- `BATCH_CLOSE` (R271). A closing batch, once DST and the record ring have room, writes its record and SERVE_BATCH card. -/
  | batchClose (asm : Fin 16)
  /-- `NOP` (R275). The Stage Code instruction does nothing for one cycle. -/
  | nop (q : Fin 4)
  /-- `ALU` (R278). A Stage Code ALU function is applied to Ga and Gb, and the result goes to Gd. -/
  | alu (q : Fin 4)
  /-- `ADDI` (R279). A signed immediate is added to Ga, and the sum goes to Gd. -/
  | addi (q : Fin 4)
  /-- `STG_LI` (R279). The Stage Code LI sign-extends imm22 into Gd. -/
  | stgLi (q : Fin 4)
  /-- `LIW` (R279). A 32-bit immediate is loaded into the low half of Gd, sign-extended, or into its high half. -/
  | liw (q : Fin 4)
  /-- `STG_BR` (R278). The Stage Code BR branches to a word index when its condition holds. -/
  | stgBr (q : Fin 4)
  /-- `STG_CALL` (R279). The Stage Code CALL saves the return word and jumps to its target. -/
  | stgCall (q : Fin 4)
  /-- `STG_RET` (R279). The Stage Code RET returns to the word after the CALL. -/
  | stgRet (q : Fin 4)
  /-- `HALT` (R279). The sequencer stops with STATE halted. -/
  | halt (q : Fin 4)
  /-- `LDD` (R279). Eight bytes are loaded from the sequencer's data memory. -/
  | ldd (q : Fin 4)
  /-- `STD` (R279). Eight bytes are stored to the sequencer's data memory. -/
  | std (q : Fin 4)
  /-- `LDS` (R280). One 64-bit word is loaded from stage memory within reach. -/
  | lds (q : Fin 4) (upsets : List Upset)
  /-- `STS` (R280). One 64-bit word is stored to stage memory within reach. -/
  | sts (q : Fin 4)
  /-- `MCAS` (R280). One stage-memory word is compared and swapped, and the old word goes to Gd. -/
  | mcas (q : Fin 4) (upsets : List Upset)
  /-- `MCNT` (R280). The elements of a stage-memory range that meet a test are counted. -/
  | mcnt (q : Fin 4) (upsets : List Upset)
  /-- `TIME` (R281). The fabric epoch number, or fabric time when S = 1, is written into Gd. -/
  | time (q : Fin 4)
  /-- `WATCH` (R281). A watch slot is set to a queue, a receive FIFO or none. -/
  | watch (q : Fin 4)
  /-- `WAITE` (R281). The sequencer holds until a selected event is true and returns the mask of the true events. -/
  | waite (q : Fin 4)
  /-- `TSET` (R281). The timer is loaded with a count of UCLK cycles, or stopped by 0. -/
  | tset (q : Fin 4)
  /-- `TIMER_EXPIRY` (R281). The sequencer's timer expires and latches event bit 9. -/
  | timerExpiry (q : Fin 4)
  /-- `EWAIT` (R281). The sequencer holds until the fabric epoch number is at least Ga. -/
  | ewait (q : Fin 4)
  /-- `DEQ` (R282). The head card of a queue is taken into a card buffer, and a status is returned. -/
  | deq (q : Fin 4)
  /-- `ENQ` (R282). A card buffer is offered to a queue, and a status is returned. -/
  | enq (q : Fin 4)
  /-- `CGET` (R283). Bytes of a card buffer are read into Gd, zero-extended. -/
  | cget (q : Fin 4)
  /-- `CPUT` (R283). The low bytes of Ga are written into a card buffer. -/
  | cput (q : Fin 4)
  /-- `CCLR` (R283). A card buffer is zeroed and its ORIGIN is set to 0xFFF. -/
  | cclr (q : Fin 4)
  /-- `CCOPY` (R283). One card buffer is copied into another, ORIGIN included. -/
  | ccopy (q : Fin 4)
  /-- `QFLUSH` (R284). A queue within reach is flushed under R265. -/
  | qflush (q : Fin 4)
  /-- `RXDEQ` (R284). The head card of a direct-mode receive FIFO is taken into a card buffer. -/
  | rxdeq (q : Fin 4)
  /-- `RXDROP` (R260). The rest of the port's current packet is discarded, and DROPPING is set until its LAST card. -/
  | rxdrop (q : Fin 4)
  /-- `DISP` (R286). A job card is enqueued on the JOB queue of its UNIT. -/
  | disp (q : Fin 4)
  /-- `TBIND` (R287). A schedule table is checked under R268 and bound with ACC_BASE. -/
  | tbind (q : Fin 4)
  /-- `TNEXT` (R287). The next schedule entry is read, and a job-card skeleton is built, or END is reported. -/
  | tnext (q : Fin 4) (upsets : List Upset)
  /-- `JLINK` (R288). The source and grant links of an XFER or XLEAD are copied into a job card. -/
  | jlink (q : Fin 4)
  /-- `PWIN` (R285). One entry of a program handle's window table is set. -/
  | pwin (q : Fin 4)
  /-- `XREQ` (R291). A SEND card is captured into a transfer slot, and a CREDIT_REQ is sent to DEST_CHIP. -/
  | xreq (q : Fin 4)
  /-- `XSTAT` (R290). A transfer slot's state, FIRST and COUNT are read into Gd. -/
  | xstat (q : Fin 4)
  /-- `XMOVE` (R292). The transfer's bytes are copied by WRITEs to the granted slots, after an XLEAD when LEAD is set. -/
  | xmove (q : Fin 4) (upsets : List Upset)
  /-- `XBIND` (R293). A send buffer is bound to a transfer slot for compute-core ST in link form. -/
  | xbind (q : Fin 4)
  /-- `XDONE` (R294). The send buffer is closed, every write's acknowledgement is awaited, the replay window is checked, and the XFER is sent or the slot is held. -/
  | xdone (q : Fin 4)
  /-- `XFREE` (R295). A transfer slot is returned to IDLE from BUSY, REFUSED or SENT, or at the next tag-retire epoch from TIMEOUT. -/
  | xfree (q : Fin 4)
  /-- `CREL` (R231). Closed slots of a credit pool are released, and FREE grows over every run that reaches NEXT. -/
  | crel (q : Fin 4)
  /-- `XCARD` (R296). A card buffer is sent to a chip in a link control flit. -/
  | xcard (q : Fin 4)
  /-- `MMR` (R297). One 32-bit MMIO register within reach is read. -/
  | mmr (q : Fin 4)
  /-- `MMW` (R297). One 32-bit MMIO register within reach is written. -/
  | mmw (q : Fin 4)
  /-- `RUN` (R299). Setting SEQ_CTRL.RUN starts the loaded program at ENTRY or continues it. -/
  | run (q : Fin 4)
  /-- `RUN_CLEAR` (R299). Clearing RUN stops the sequencer at the next instruction boundary and abandons a wait in progress. -/
  | runClear (q : Fin 4)
  /-- `XTIMEOUT` (R290). A REQUESTED transfer slot that has had no reply within XTIMEOUT moves to TIMEOUT. -/
  | xtimeout (q : Fin 4) (k : Fin 16)
  /-- `CREDIT_REQ` (R228). A credit request reaches a pool's arbiter, and it is refused, answered BUSY or ranked into the waiting list. -/
  | creditReq
  /-- `CREDIT_GRANT` (R228). The request at the head of the waiting list is granted once FREE covers its COUNT and fewer than 64 grants are open. -/
  | creditGrant (pool : Fin 128)
  /-- `CREDIT_REPLY` (R291). A credit reply moves its matching transfer slot to GRANTED, BUSY or REFUSED, or is discarded as late. -/
  | creditReply
  /-- `POOL_ENABLE` (R225). A write of POOL_CFG.EN = 1 enables the pool after its checks, or sets POOL_CFG_ERR. -/
  | poolEnable (pool : Fin 128)
  /-- `POOL_DISABLE` (R235). A write of EN = 0 refuses later requests and clears the waiting list and every open grant. -/
  | poolDisable (pool : Fin 128)
  /-- `WRITE` (R229). A landing WRITE is accepted into an open grant, or discarded, advances READY, and is answered with a WACK. -/
  | write
  /-- `WACK` (R354). A WACK closes its IN_FLIGHT tag, or is discarded as stray or late. -/
  | wack
  /-- `RREQ` (R341). A remote read request for MMIO in the management slice is answered with an RCPL. -/
  | rreq
  /-- `RCPL` (R354). A read completion closes its tag and delivers its value to the requester. -/
  | rcpl
  /-- `REQ_TIMEOUT` (R354). An IN_FLIGHT tag's deadline passes, the tag is quarantined, and its requester fails with 0x6003. -/
  | reqTimeout (tag : Fin 65536)
  /-- `TAG_EXHAUST` (R353). A requester that has waited 100 µs for a tag raises advisory 0x6005. -/
  | tagExhaust (requester : Fin 11)
  /-- `FENCE` (R348). A group whose reduced set changed resumes control and response packets once the old set's flits are acknowledged or 10 µs pass. -/
  | fence (group : Fin 8)
  /-- `ROLLCALL` (R342). A received ROLLCALL updates the port's neighbour record. -/
  | rollcall
  /-- `ROLLCALL_SEND` (R342). A port sends ROLLCALL on entering ACTIVE, every second, and on a change of CHIP_ID. -/
  | rollcallSend (port : Fin 32)
  /-- `ROLLCALL_DONE` (R343). A write of ROLLCALL_DONE lets the chip accept global addresses and routed packets from the next cycle. -/
  | rollcallDone
  /-- `CHIP_ID` (R343). A write of the chip number, allowed before ROLLCALL_DONE, triggers ROLLCALL. -/
  | chipId (chip : Fin 1048576)
  /-- `TBL_DATA` (R352). A write places an entry in the shadow bank, with PAR computed. -/
  | tblData (value : Word)
  /-- `COPY` (R352). CTRL.COPY starts a copy of the active bank into the shadow bank. -/
  | copy
  /-- `COPY_END` (R352). The bank copy ends after 6,144 UCLK cycles, and COPY_BUSY clears. -/
  | copyEnd
  /-- `ARM` (R352). CTRL.ARM arms a swap at SWAP_EPOCH, or is refused when the epoch is not in the future. -/
  | arm
  /-- `EPOCH_TICK` (R352). At each epoch tick the armed bank swap happens, quarantined tags retire, armed TX key slots switch, and the epoch event fires. -/
  | epochTick
  /-- `TSYNC_SEND` (R357). Once every SYNC_PERIOD, a non-master chip sends TSYNC_REQ to its time parent. -/
  | tsyncSend
  /-- `TSYNC_REQ` (R357). The parent answers a time request with TSYNC_RSP carrying T1, T2, T3 and CORR. -/
  | tsyncReq
  /-- `TSYNC_RSP` (R358). A time response updates the offset, the frequency and the rate correction, and the lock state. -/
  | tsyncRsp
  /-- `TIME_HOLDOVER` (R360). After 3 missed exchanges the chip turns to its alternate parent or enters holdover with advisory 0x6006. -/
  | timeHoldover
  /-- `TIME_LOST` (R360). After 10 ms in holdover the chip raises chip fault 0x6007 and clears TIME_LOCKED. -/
  | timeLost
  /-- `COLLECTIVE_REQUEST` (R361). The collective engine takes a request card and runs a reduce-scatter, all-gather or all-reduce around the ring. -/
  | collectiveRequest (h : Fin 2) (upsets : List Upset)
  /-- `CHUNK_NOTICE` (R363). A received chunk notice makes the engine combine the landed chunk and release its slot. -/
  | chunkNotice (h : Fin 2) (upsets : List Upset)
  /-- `COLL_PEER_LOST` (R364). A tag failure, or no notice for 2 × REQ_TIMEOUT, ends the collective with 0x600A. -/
  | collPeerLost (h : Fin 2)
  /-- `PORT_ENABLE` (R323). A port with EN set and an accepted cartridge leaves DISABLED for DETECT. -/
  | portEnable (port : Fin 32)
  /-- `DETECT` (R323). Signal detected on a position moves the port to CALIBRATE, and 1 s without it moves the port to FAILED. -/
  | detect (port : Fin 32) (signal : Bool)
  /-- `CALIBRATE` (R323). Link training ends, and the trained positions move to ALIGN. -/
  | calibrate (port : Fin 32) (trained : Fin 32)
  /-- `ALIGN` (R323). FEC lock and the lane identity exchange end, and the port moves to CONFIG. -/
  | align (port : Fin 32) (locked : Fin 32)
  /-- `CONFIG` (R324). A received CONFIG message is checked, and once both CONFIG and CONFIG_ACK are in, credits and sequence numbers are set and the port is ACTIVE. -/
  | config (port : Fin 32) (flit : BitVec 2048)
  /-- `CONFIG_ACK` (R324). A received acknowledgement of this end's CONFIG. -/
  | configAck (port : Fin 32) (flit : BitVec 2048)
  /-- `TRANSMIT_FLIT` (R318). In each flit slot the port chooses a LINK, continuing, new DATA or IDLE flit and sends it. -/
  | transmitFlit (port : Fin 32)
  /-- `DATA_FLIT` (R321). A received DATA flit is accepted in sequence and passed into the chip, or discarded with a RETRY_REQ. -/
  | dataFlit (port : Fin 32) (rx : RxFlit)
  /-- `IDLE_FLIT` (R313). A received IDLE flit returns its ACK and credits. -/
  | idleFlit (port : Fin 32) (flit : BitVec 2048)
  /-- `RETRY_REQ` (R321). A received RETRY_REQ makes the sender resend its retry buffer from the expected number, or start a retrain. -/
  | retryReq (port : Fin 32) (flit : BitVec 2048)
  /-- `RETRY_REQ_RESEND` (R321). A receiver whose expected flit has not arrived within 4 µs sends its RETRY_REQ again. -/
  | retryReqResend (port : Fin 32) (locked : Bool)
  /-- `RETRAIN` (R326). CTRL.RETRAIN starts a fast retrain of the port. -/
  | retrain (port : Fin 32)
  /-- `RETRAIN_REQ` (R326). A received RETRAIN_REQ starts or follows a retrain. -/
  | retrainReq (port : Fin 32) (flit : BitVec 2048)
  /-- `RETRAIN_ACK` (R326). A received acknowledgement lets the leader's retrain proceed. -/
  | retrainAck (port : Fin 32) (flit : BitVec 2048)
  /-- `FAST_RETRAIN_TIMEOUT` (R326). A fast retrain that has not reached CONFIG within 50 µs becomes a full retrain. -/
  | fastRetrainTimeout (port : Fin 32)
  /-- `LANE_FAILED` (R327). A lane loses lock, exceeds UCW or reports a fault, and the port enters WIDTH_CHANGE with event 0x5003. -/
  | laneFailed (port : Fin 32) (lane : Fin 5) (loss : LaneLoss)
  /-- `WIDTH_REQ` (R328). A received WIDTH_REQ stops DATA flits, is answered with WIDTH_ACK, and moves the port to the new mask. -/
  | widthReq (port : Fin 32) (flit : BitVec 2048)
  /-- `WIDTH_ACK` (R328). A received WIDTH_ACK lets the requester send on the new mask and send a RETRY_REQ. -/
  | widthAck (port : Fin 32) (flit : BitVec 2048)
  /-- `WIDTH_CHANGE_TIMEOUT` (R328). No WIDTH_ACK within 20 µs starts a full retrain. -/
  | widthChangeTimeout (port : Fin 32)
  /-- `STANDBY_CALIBRATED` (R329). The leader's background calibration of the standby lane succeeds or times out at 500 ms. -/
  | standbyCalibrated (port : Fin 32) (ok : Bool)
  /-- `FEC_DEGRADED` (R327). A lane's corrected-symbol count exceeds CORR in 1 s, which raises advisory 0x500A. -/
  | fecDegraded (port : Fin 32) (lane : Fin 5) (corrected : Nat)
  /-- `DRAIN` (R335). A received DRAIN link message tells the port that its peer is leaving service. -/
  | drain (port : Fin 32) (flit : BitVec 2048)
  /-- `RETIRE_DRAIN_END` (R335). A draining port enters RETIRED or FAILED once its retry buffer is empty or 20 µs pass. -/
  | retireDrainEnd (port : Fin 32)
  /-- `RESTART` (R323). CTRL.RESTART moves a FAILED port to DETECT. -/
  | restart (port : Fin 32)
  /-- `CART_PRS_ASSERT` (R334). CART_PRS_N asserts, and one mating is counted. -/
  | cartPrsAssert (port : Fin 32)
  /-- `CART_ABSENT` (R336). CART_PRS_N deasserts, the port goes DISABLED within 1 µs, and 0x5005 is raised. -/
  | cartAbsent (port : Fin 32)
  /-- `CART_POLL` (R332). Every 100 ms, and on CART_INT_N, the device polls CMIS flags and accepts, faults or retires the cartridge. -/
  | cartPoll (port : Fin 32) (read : CartRead) (start : Bool)
  /-- `LASER_HOUR` (R334). Each 3,600 counted seconds add one laser hour and update the wear page. -/
  | laserHour (port : Fin 32)
  /-- `CREATE` (R369). A FREE context becomes HALTED with its accounts zeroed. -/
  | create (ctx : Fin 512)
  /-- `RESUME_CTX` (R369). The RESUME command makes a HALTED context ACTIVE in the next UCLK cycle. -/
  | resumeCtx (ctx : Fin 512)
  /-- `HALT_CTX` (R380). The HALT command stops an ACTIVE context in order, with state HALTING. -/
  | haltCtx (ctx : Fin 512)
  /-- `TEARDOWN` (R378). A fault or the TEARDOWN command puts the context in TEARDOWN and withdraws its jobs, sequencers, queues, pools and collectives. -/
  | teardown (ctx : Fin 512)
  /-- `CTX_HALTED` (R378). Once every tear-down or halt step is done, the context becomes HALTED and advisory 0x7007 is written. -/
  | ctxHalted (ctx : Fin 512)
  /-- `SPILL` (R381). A HALTED context's granules are copied to host memory with state SPILLING. -/
  | spill (ctx : Fin 512)
  /-- `SPILL_DONE` (R381). The last spill write completes, the granules are returned, and the context is DORMANT. -/
  | spillDone (ctx : Fin 512) (ok : Bool)
  /-- `RESTORE` (R381). A DORMANT context's granules are copied back with state RESTORING. -/
  | restore (ctx : Fin 512)
  /-- `RESTORE_DONE` (R381). The restore copy ends, and the context is HALTED. -/
  | restoreDone (ctx : Fin 512) (ok : Bool) (image : List (Nat × List Byte))
  /-- `RELEASE` (R369). Handles are unloaded, queues and pools disabled and granules returned, and the context is FREE. -/
  | release (ctx : Fin 512)
  /-- `ENERGY_APPORTION` (R383). Every 1 ms each domain's energy is divided among contexts by activity. -/
  | energyApportion (acts : List (List (Nat × Nat)))
  /-- `THRESHOLD_EVALUATION` (R393). Once per second the management controller evaluates the sparing thresholds and takes their actions. -/
  | thresholdEvaluation
  /-- `SLOT_RETIRED` (R394). Once every unit containing a retire-pending pod is out of service, the spare slot is tested and mapped in, and 0xF103 is raised. -/
  | slotRetired (pod : Fin 32) (testOk : Bool)
  /-- `ARRAY_SELF_TEST` (R395). Once its units are idle, a core's arrays are tested, and failing columns are spared. -/
  | arraySelfTest (core : Fin 128) (arr : Fin 4) (failing : List Nat)
  /-- `QM_SWITCHED` (R396). Once every unit is idle or parked, the queue-manager state is copied to the spare copy, which becomes active. -/
  | qmSwitched (readable : Bool)
  /-- `D2D_LOST` (R26). The die-to-die interface loses a link that no spare wire can replace, which is device fault 0xF001. -/
  | d2dLost
  /-- `PLL_LOST` (R416). The root PLL loses lock or its reference, which is device fault 0xF003. -/
  | pllLost (ref : Bool)
  /-- `CTRL_STORE_UE` (R390). An uncorrectable error in a structure with no spare is device fault 0xF004. -/
  | ctrlStoreUe
  /-- `MC_WATCHDOG` (R390). The management controller's firmware watchdog expires, which is device fault 0xF005. -/
  | mcWatchdog
  /-- `REJOIN` (R399). In ISOLATED, with the cause cleared, the recovery machine returns to SERVING. -/
  | rejoin
  /-- `RECLAIM` (R410). The open grants and waiting requests of RECLAIM_CHIP are closed in every pool. -/
  | reclaim
  /-- `GRANT_AGE` (R410). A grant open longer than GRANT_LIFE is reclaimed. -/
  | grantAge (pool : Fin 128)
  /-- `CHECKPOINT_REQUEST` (R401). The checkpoint engine takes a request, reads and hashes shards, and sends digest notices and a gate card. -/
  | checkpointRequest (h : Fin 2) (upsets : List Upset)
  /-- `DIGEST_NOTICE` (R403). A peer's digest notice for a shard is received and recorded. -/
  | digestNotice (h : Fin 2)
  /-- `NOTICE_WAIT_END` (R403). 2 × REQ_TIMEOUT after the last shard, the missing peers are taken as absent, writers are elected and shards written. -/
  | noticeWaitEnd (h : Fin 2)
  /-- `CCLK_STEP_EDGE` (R418). A new CCLK divider takes effect at a step edge, after the voltage has settled for a raise. -/
  | cclkStepEdge (vout : Bool)
  /-- `POWER_SAMPLE` (R423). Every 1 µs the domain and package powers are recorded, and the peak window is updated. -/
  | powerSample (powers : List Nat)
  /-- `TEMPERATURE_READ` (R428). Every 10 µs the sensors are read, and the thermal limiter and the trip are judged. -/
  | temperatureRead (readings : List Nat)
  /-- `THERMAL_LIMITER_INTERVAL` (R429). After each 100 µs hot, or 1 ms cool, the thermal limiter demands one step more or less. -/
  | thermalLimiterInterval
  /-- `SUPPLY_SAMPLE` (R432). Every 100 ns the rail monitors compare the rails against their limits. -/
  | supplySample (volts : List Nat)
  /-- `PWR_BRAKE_ASSERT` (R433). PWR_BRAKE_N falling makes the brake limiter demand step 3, with advisory 0x8009. -/
  | pwrBrakeAssert
  /-- `PWR_BRAKE_RELEASE` (R433). 1 ms after PWR_BRAKE_N returns high, the brake limiter withdraws its demand. -/
  | pwrBrakeRelease
  /-- `RING_OSCILLATOR_MEASURE` (R434). Every 10 ms each powered ring is measured, and three low quotients raise MARGIN_ALARM. -/
  | ringOscillatorMeasure (quotients : List Nat)
  /-- `VMAX_MINUTE` (R435). Each minute at the step 0 voltage is counted, and the budget thresholds are judged. -/
  | vmaxMinute
  /-- `DOMAIN_EN` (R422). A write switches power domains on or off when their conditions allow, or sets CFG_ERR. -/
  | domainEn (value : Word)
  /-- `DOMAIN_ON` (R422). A domain reaches ON with its contents cleared, or fails with POD_DOMAIN_FAIL or DOMAIN_FAIL. -/
  | domainOn (domain : Fin 48) (ok : Bool)
  /-- `FREEZE_ARM` (R449). OBS.CTRL.ARM arms a freeze at FREEZE_AT, or is refused. -/
  | freezeArm
  /-- `FREEZE` (R449). At the freeze tick every counter is copied into its frozen copy, a FREEZE record is written, and jobs in scope may park. -/
  | freeze
  /-- `UNFREEZE` (R450). The freeze park is released, and FROZEN clears. -/
  | unfreeze
  /-- `NS2_SAMPLE` (R451). Each NS2 period writes the core, global and context sample records. -/
  | ns2Sample (late : Bool)
  /-- `DUMP_ARM` (R453). DUMP_CFG.EN arms a tensor dump for a call number, accession and occurrence. -/
  | dumpArm
  /-- `DUMP_COPY` (R454). Once the unit is DRAINED, the dumped tensors are copied to the dump buffer, DUMP_DONE is written and the unit released. -/
  | dumpCopy
  /-- `BUFFER_ENABLE` (R445). Enabling a privileged or context record buffer checks its granules, or sets CFG_ERR. -/
  | bufferEnable (ctx : Option (Fin 512))
  /-- `PROFILE_WRITE` (R444). A write of a context counter profile is accepted, or refused for a bad event code. -/
  | profileWrite (ctx : Fin 512) (value : Word)
  /-- `LEDGER_WRITE` (R457). The ledger is written to the older copy every 10 minutes, at quiesce, and after chip or device records. -/
  | ledgerWrite (verified : Bool)
  /-- `SYNC` (R457). LEDG.CTRL.SYNC writes the ledger now. -/
  | sync (verified : Bool)
  /-- `GRANULE_WRITE` (R212). The management controller writes a granule-map entry, which may start a zero fill or be rejected. -/
  | granuleWrite (granule : Fin 512) (value : Word)
  /-- `ZERO_FILL_END` (R212). A granule's zero fill ends within 4 µs, and ZF_BUSY clears. -/
  | zeroFillEnd (granule : Fin 512)
  /-- `SCRUB` (R218). Patrol scrub reads words in reserved channel cycles and corrects, rebuilds or counts them. -/
  | scrub (addr : Nat) (passEnd : Bool) (upsets : List Upset)
  /-- `SPARE_ROW` (R219). A worn row is copied into a spare row, and the bank switches its row map. -/
  | spareRow (tier : Fin 8) (bank : Fin 290) (row : Fin 16384)
  /-- `BANK_REBUILD` (R220). A failed bank is rebuilt onto a free spare bank. -/
  | bankRebuild (tier : Fin 8) (bank : Fin 290)
  /-- `REBUILD_DONE` (R220). The rebuild walk ends, and the spare bank serves the failed bank. -/
  | rebuildDone (walk : RebuildWalk)
  /-- `LOAD_DATA` (R507). Data is appended to the transport's staging buffer. -/
  | loadData (transport : Fin 2) (offset : BitVec 32) (data : List Byte)
  /-- `LOAD` (R138). A compute or stage container is checked in order and loaded, or a load error is returned. -/
  | load (transport : Fin 2) (kind : Nat) (ctx : Nat) (seqr : Nat) (level : Nat) (addr : Option (BitVec 64)) (size : BitVec 32)
  /-- `UNLOAD` (R507). A loaded program handle is unloaded. -/
  | unload (transport : Fin 2) (handle : BitVec 16)
  /-- `REG_READ` (R507). A management message reads an MMIO register with the host path's rights. -/
  | regRead (transport : Fin 2) (addr : BitVec 64)
  /-- `REG_WRITE` (R507). A management message writes an MMIO register with the host path's rights. -/
  | regWrite (transport : Fin 2) (addr : BitVec 64) (value : BitVec 32)
  /-- `MGMT_ENQ` (R507). The ENQ management message enqueues a card on a queue. -/
  | mgmtEnq (transport : Fin 2) (queue : Fin 4096) (card : BitVec 512)
  /-- `MGMT_DEQ` (R507). The DEQ management message dequeues a card from a queue. -/
  | mgmtDeq (transport : Fin 2) (queue : Fin 4096) (err : Nat)
  /-- `SBUF_READ` (R507). Bytes of the privileged record buffer are returned. -/
  | sbufRead (transport : Fin 2) (offset : BitVec 32) (len : BitVec 32)
  /-- `MCTP_MESSAGE` (R506). An MCTP message arrives over I3C or PCIe VDM and is dispatched by type, or dropped with 0xA009. -/
  | mctpMessage (transport : Fin 2) (head : MctpHead) (intact : Bool) (eid : Option (BitVec 8))
  /-- `ENTDAA` (R506). The I3C target takes part in dynamic address assignment. -/
  | entdaa (addr : Fin 128)
  /-- `PLDM_FIRMWARE_UPDATE` (R506). PLDM type 5 updates the inactive firmware slot. -/
  | pldmFirmwareUpdate (transport : Fin 2) (image : List Byte)
  /-- `GET_VERSION` (R473). The SPDM responder returns its version. -/
  | getVersion (transport : Fin 2)
  /-- `GET_CAPABILITIES` (R473). The SPDM responder returns its capabilities. -/
  | getCapabilities (transport : Fin 2)
  /-- `NEGOTIATE_ALGORITHMS` (R473). The SPDM algorithms are negotiated. -/
  | negotiateAlgorithms (transport : Fin 2) (supported : Bool)
  /-- `GET_DIGESTS` (R473). The certificate-chain digests are returned. -/
  | getDigests (transport : Fin 2)
  /-- `GET_CERTIFICATE` (R473). The slot 0 certificate chain is returned. -/
  | getCertificate (transport : Fin 2) (slot : Fin 8) (offset : BitVec 16) (len : BitVec 16)
  /-- `CHALLENGE` (R473). The device authenticates with its Alias key. -/
  | challenge (transport : Fin 2) (slot : Fin 8) (nonce : BitVec 256)
  /-- `GET_MEASUREMENTS` (R473). MREG[0]–[7] are returned as measurement blocks. -/
  | getMeasurements (transport : Fin 2) (index : BitVec 8)
  /-- `KEY_EXCHANGE` (R473). An ECDHE secure session is started. -/
  | keyExchange (transport : Fin 2) (slot : Fin 8)
  /-- `FINISH` (R473). The secure session handshake is completed. -/
  | finish (transport : Fin 2) (verifies : Bool) (root : Option (List Byte))
  /-- `HEARTBEAT` (R473). The secure session is kept alive. -/
  | heartbeat (transport : Fin 2)
  /-- `KEY_UPDATE` (R473). The session keys are updated. -/
  | keyUpdate (transport : Fin 2)
  /-- `END_SESSION` (R473). The secure session is ended. -/
  | endSession (transport : Fin 2)
  /-- `GET_CTX_MEASUREMENT` (R473). A context's C_MEAS is returned, signed by both Alias keys. -/
  | getCtxMeasurement (transport : Fin 2) (ctx : Fin 512) (nonce : BitVec 256)
  /-- `PQ_SIGN` (R473). The measurement transcript is signed with both Alias keys. -/
  | pqSign (transport : Fin 2) (transcript : List Byte)
  /-- `COMMIT_SVN` (R470). The SVN fuses are advanced to the running firmware's SVN, in a qualifying session. -/
  | commitSvn (transport : Fin 2)
  /-- `SET_KEY` (R481). A slice key slot is loaded and a fresh SALT is drawn. -/
  | setKey (transport : Fin 2) (slice : Fin 4096) (slot : BitVec 8) (gen : BitVec 32) (key : BitVec 256)
  /-- `CLEAR_KEY` (R481). A slice key slot other than TX_SLOT is invalidated and zeroed. -/
  | clearKey (transport : Fin 2) (slice : Fin 4096) (slot : BitVec 8)
  /-- `SET_ENC` (R481). A slice's ENC bit is set while its permit entry is closed. -/
  | setEnc (transport : Fin 2) (slice : Fin 4096) (enc : Bool)
  /-- `ARM_TX` (R481). The TX slot switch is armed for a future epoch tick. -/
  | armTx (transport : Fin 2) (slice : Fin 4096) (slot : BitVec 8) (epoch : BitVec 64)
  /-- `DBG_NONCE` (R479). A read of nonce word 0 draws a fresh nonce and invalidates the previous one. -/
  | dbgNonce
  /-- `DEBUG_TOKEN` (R479). A submitted debug token is verified and unlocks device or context debug, with 0x9008, or fails with TOKEN_BAD. -/
  | debugToken (transport : Fin 2) (token : List Byte)
  /-- `DBG_LOCK` (R480). TRUST.DBG_LOCK ends every debug unlock. -/
  | dbgLock
  /-- `SECURE_BOOT` (R470). The boot ROM checks the firmware slots, measures, derives keys and jumps, or enters recovery. -/
  | secureBoot (fuses : Bool)
  /-- `BYPASS` (R477). The JTAG BYPASS instruction. -/
  | bypass
  /-- `IDCODE` (R515). The JTAG IDCODE instruction returns 0x1A04_1B73. -/
  | idcode
  /-- `SAMPLE_PRELOAD` (R477). The JTAG SAMPLE/PRELOAD instruction. -/
  | samplePreload (pins : List Bool) (load : List Bool)
  /-- `EXTEST` (R477). JTAG EXTEST drives the boundary-scan pins while the device is held in reset. -/
  | extest
  /-- `BAR0_ACCESS` (R491). A host BAR0 read or write reaches a block-page register, or completes with UR. -/
  | bar0Access (write : Bool) (offset : BitVec 24) (size : Fin 65) (value : BitVec 64)
  /-- `BAR2_READ` (R491). A host BAR2 read of stage memory completes with data, poison or UR. -/
  | bar2Read (addr : BitVec 34) (len : Fin 4096) (upsets : List Upset)
  /-- `BAR2_WRITE` (R491). A host BAR2 write reaches stage memory, with poison when EP is set, or is discarded. -/
  | bar2Write (addr : BitVec 34) (data : List Byte) (ep : Bool)
  /-- `HOST_COMPLETION` (R493). A completion closes a device-originated read's host tag, delivering data or an error. -/
  | hostCompletion (tag : Fin 1024) (status : Fin 3) (ep : Bool) (data : List Byte)
  /-- `HOST_CPL_TIMEOUT` (R493). A host read's deadline passes, its tag is quarantined, and 0xA002 is raised. -/
  | hostCplTimeout (tag : Fin 1024)
  /-- `HOST_LINK_DOWN` (R495). The host link goes down, tags are quarantined, rings disabled, the cache invalidated, and 0xA001 raised. -/
  | hostLinkDown
  /-- `SNPDATA` (R497). An H2D SnpData snoop is answered within 20 ns from the cache or the eviction buffer. -/
  | snpdata (line : BitVec 64)
  /-- `SNPINV` (R497). An H2D SnpInv snoop is answered, and an invalidated index line is taken as a doorbell. -/
  | snpinv (line : BitVec 64)
  /-- `SNPCUR` (R497). An H2D SnpCur snoop is answered. -/
  | snpcur (line : BitVec 64)
  /-- `GO_WRITEPULL` (R498). The buffered eviction data is sent and the eviction-buffer entry is freed. -/
  | goWritepull (line : BitVec 64)
  /-- `GO_WRITEPULLDROP` (R498). The eviction-buffer entry is freed without data. -/
  | goWritepulldrop (line : BitVec 64)
  /-- `GO_ERR_WRITEPULL` (R498). The data is sent, the entry freed, and 0xA006 raised. -/
  | goErrWritepull (line : BitVec 64)
  /-- `DOORBELL` (R501). A write to HOST.DOORBELL makes the ring read its host index line. -/
  | doorbell (ring : Fin 64)
  /-- `RING_INDEX_READ` (R502). A ring reads its host index line and handles the cards between the indices. -/
  | ringIndexRead (ring : Fin 64)
  /-- `H2D_CARD_RETRY` (R502). An H2D card that met a full queue is offered again every 1 µs. -/
  | h2dCardRetry (ring : Fin 64)
  /-- `D2H_CARD` (R502). A D2H ring dequeues a card and writes it into its host slot. -/
  | d2hCard (ring : Fin 64) (err : Nat)
  /-- `RING_INDEX_WRITE` (R502). The device writes its index line after 16 cards or within 1 µs of a change. -/
  | ringIndexWrite (ring : Fin 64)
  /-- `RING_READ_RETRY` (R494). A failed PCIe-mode ring read is retried after 100 µs, and the ring is disabled after three failures. -/
  | ringReadRetry (ring : Fin 64)
  /-- `RING_ENABLE` (R499). A write of RING_CFG.EN enables the ring after its checks, or sets RING_ERR. -/
  | ringEnable (ring : Fin 64) (value : BitVec 32)
  /-- `RING_INTERRUPT` (R504). A D2H ring sends its MSI-X vector after COUNT cards or USEC microseconds. -/
  | ringInterrupt (ring : Fin 64)
  /-- `QSTOP_LEVEL_CHANGE` (R509). A filtered quiesce input changes, starting or ending an orderly quiesce or a disagreement count. -/
  | qstopLevelChange (a : Bool) (b : Bool)
  /-- `QSTOP_INPUT_FAULT` (R509). A disagreement lasting 20,000 ACLK cycles latches INPUT_FAULT and begins the quiesce. -/
  | qstopInputFault
  /-- `QSTOP_RDY` (R510). Once every unit is parked and drained and nothing originated remains in flight, QSTOP_RDY asserts and the ledger is written. -/
  | qstopRdy (verified : Bool)
  /-- `FAULT_CLEAR` (R511). With both inputs deasserted, the latched input fault is cleared and the quiesce ends. -/
  | faultClear
  /-- `POWER_ON_RESET` (R518). VDD_AON entering or leaving its limits resets the whole device. -/
  | powerOnReset
  /-- `COLD_RESET` (R518). SYS_RST_N, PWROK or a command resets everything except always-on storage. -/
  | coldReset (source : Fin 3)
  /-- `WARM_RESET` (R519). RESET_CMD with KIND 1 writes the ledger and resets the device, keeping the repair state. -/
  | warmReset (preset : Fin 8) (addr : Fin 4) (verified : Bool)
  /-- `HOST_RESET` (R518). PERST_N resets the host port only. -/
  | hostReset
  /-- `RESET_RELEASE` (R523). SYS_RST_N and PWROK are filtered high, the straps latch, and the sensors are read for thermal hold. -/
  | resetRelease (preset : Fin 8) (addr : Fin 4) (readings : List Nat)
  /-- `THERMAL_HOLD_END` (R524). After 1 s with every sensor below 100 °C, the hold ends and phase 0 begins. -/
  | thermalHoldEnd
  /-- `ROOT_LOCK` (R527). The root PLL locks and ACLK moves to the PLL. -/
  | rootLock
  /-- `PHASE_ROM` (R526). Phase 0 ends when the ROM has booted the firmware. -/
  | phaseRom (us : BitVec 32)
  /-- `PHASE_FIRMWARE` (R526). Phase 1 ends after the ledger, board description, MREG[1], ACCESS and LOCK are set. -/
  | phaseFirmware (us : BitVec 32) (board : BoardDesc)
  /-- `PHASE_UNCORE` (R529). Phase 2 ends when the die-to-die interface has trained with wire repair. -/
  | phaseUncore (us : BitVec 32) (ok : Bool)
  /-- `PHASE_MEMORY` (R530). Phase 3 ends after the stage-memory self-test, repair and queue-manager selection. -/
  | phaseMemory (us : BitVec 32) (failing : List (Fin 8 × Fin 290 × List (Fin 16384) × Fin 65)) (qm0 : Bool) (qm1 : Bool)
  /-- `PHASE_CORES` (R531). Phase 4 ends after the slot and array self-tests and maps, unit queues enabled and CCLK raised. -/
  | phaseCores (us : BitVec 32) (slots : List (Fin 160)) (cols : List (Fin 128 × Fin 4 × Fin 64))
  /-- `PHASE_LINKS` (R533). Phase 5 ends when no enabled port is still in DETECT through CONFIG, and the chip is READY. -/
  | phaseLinks (us : BitVec 32)
  /-- `INT_FORCE` (R556). Each written bit sets its INT_STATUS bit as a hardware event. -/
  | intForce (agent : Fin 7) (page : Fin 4096) (value : BitVec 32)
  /-- `INT_ENABLE` (R555). A write of INT_ENABLE may raise the page request and send an MSI-X message. -/
  | intEnable (agent : Fin 7) (page : Fin 4096) (value : BitVec 32)
  /-- `LOCK` (R563). Setting a page's LOCK freezes its RWL fields until reset. -/
  | lock (agent : Fin 7) (page : Fin 4096)
  /-- `READ_LATCH` (R560). A 4-byte read of a 64-bit register's low word latches the high word for that agent. -/
  | readLatch (agent : Fin 7) (page : Fin 4096) (word : Fin 1024)
  /-- `REGISTER_WRITE` (R561). A write to a register with no behaviour of its own is applied under the agent order and the access rules. -/
  | registerWrite (agent : Fin 7) (page : Fin 4096) (word : Fin 1024) (wide : Bool) (value : BitVec 64)
  /-- `HOST_LINK_UP` (R489). The host link finishes training and runs in CXL mode or PCIe mode, with the device cache enabled only in CXL mode. -/
  | hostLinkUp (cxl : Bool) (width : Fin 17) (speed : Fin 7)
  /-- `CXL_CACHE_RESPONSE` (R496). The host's response to a device CXL.cache RdShared, RdCurr or RdOwnNoData arrives, and the line state and ring handling follow. -/
  | cxlCacheResponse (line : BitVec 64) (low : BitVec 256) (high : BitVec 256)
  /-- `MSI_X_UNMASK` (R504). A host write to the BAR4 MSI-X table clears a vector's mask, and a pending message is sent. -/
  | msiXUnmask (vector : Fin 2048) (entry : BitVec 128)
  /-- `DOMAIN_FAIL` (R436). A domain or slot switch that was ON fails to hold ON, raising 0x800A for a pod-cluster or 0x800B for any other domain. -/
  | domainFail (domain : Fin 48)
  /-- `CONFIG_TIMEOUT` (R323). A port in ALIGN or CONFIG that exceeds its time limit fails the attempt and returns to DETECT, or goes to FAILED after three attempts. -/
  | configTimeout (port : Fin 32)
  /-- `STAGE_MEMORY_WRITE_BACK` (R213). A corrected or rebuilt stage-memory word is written back in the next reserved cycle of its channel. -/
  | stageMemoryWriteBack (addr : Nat)
  deriving DecidableEq, Repr

end Sys2Proof
end

