-- ==== Sys2Proof/Decode.lean ====
section
/-! DEFINITION. The command that a word spells.  spec/opcode_table.json gives no row any bits: the
commands arrive on buses, pins and packets whose encodings the meanings decode, so no word of the table
spells a command. -/

namespace Sys2Proof

def decodeTableWord (nbits w : Nat) : Option Instr :=
  match nbits, w with
  | _, _ => none

end Sys2Proof
end

