-- ==== Sys2Proof/Machine/Num.lean ====
section
/-! DEFINITION. Number formats, conversions and accumulation (chapter 2, R33–R58). -/

namespace Sys2Proof

/-- An exact value: NaN, an infinity, or (−1)^neg × m × 2^e with signed zeros. -/
inductive FVal where
  | nan
  | inf (neg : Bool)
  | fin (neg : Bool) (m : Nat) (e : Int)
  deriving DecidableEq, Repr, Inhabited

/-- Which patterns of the top exponent are special (Table 2-2). -/
inductive Special where | ieee | e4m3 | none
  deriving DecidableEq, Repr

/-- The fields of a floating-point element format (Table 2-2). -/
structure FpSpec where
  eb : Nat
  mb : Nat
  bias : Nat
  sp : Special
  deriving DecidableEq, Repr

/-- The element format of a format code: the block-scaled formats share their element's (R34, R40). -/
def Fmt.fpSpec : Fmt → Option FpSpec
  | .fp32 => some ⟨8, 23, 127, .ieee⟩
  | .fp16 => some ⟨5, 10, 15, .ieee⟩
  | .bf16 => some ⟨8, 7, 127, .ieee⟩
  | .e5m2 | .mxfp8e5m2 => some ⟨5, 2, 15, .ieee⟩
  | .e4m3 | .mxfp8e4m3 => some ⟨4, 3, 7, .e4m3⟩
  | .e3m2 | .mxfp6e3m2 => some ⟨3, 2, 3, .none⟩
  | .e2m3 | .mxfp6e2m3 => some ⟨2, 3, 1, .none⟩
  | .e2m1 | .mxfp4 => some ⟨2, 1, 1, .none⟩
  | _ => none

/-- Storage bits of one element, the block scale apart (Table 2-1). -/
def Fmt.bits : Fmt → Nat
  | .fp32 | .int32 => 32
  | .fp16 | .bf16 => 16
  | .e3m2 | .e2m3 | .mxfp6e3m2 | .mxfp6e2m3 => 6
  | .e2m1 | .mxfp4 => 4
  | .exact => 256
  | _ => 8

/-- The block-scaled formats (R40). -/
def Fmt.isMx : Fmt → Bool
  | .mxfp8e4m3 | .mxfp8e5m2 | .mxfp6e3m2 | .mxfp6e2m3 | .mxfp4 | .mxint8 => true
  | _ => false

/-- A two's-complement pattern of `w` bits as an integer. -/
def signed (w v : Nat) : Int :=
  let v := v % 2 ^ w
  if v < 2 ^ (w - 1) then (v : Int) else (v : Int) - (2 ^ w : Nat)

/-- The pattern of `w` bits of an integer, modulo 2^w. -/
def pat (w : Nat) (i : Int) : Nat := (i % ((2 ^ w : Nat) : Int)).toNat

/-- An integer times 2^e as an exact value. -/
def ofInt (i : Int) (e : Int) : FVal := .fin (i < 0) i.natAbs e

/-- Decode one floating-point pattern (R36). -/
def FpSpec.decode (f : FpSpec) (v : Nat) : FVal :=
  let m := v % 2 ^ f.mb
  let e := v / 2 ^ f.mb % 2 ^ f.eb
  let s := v / 2 ^ (f.mb + f.eb) % 2 = 1
  let top := 2 ^ f.eb - 1
  let special : Bool := match f.sp with
    | .ieee => e == top
    | .e4m3 => e == top && m == 2 ^ f.mb - 1
    | .none => false
  if special then (if f.sp = .ieee ∧ m = 0 then .inf s else .nan)
  else if e = 0 then .fin s m (1 - (f.bias : Int) - f.mb)
  else .fin s (2 ^ f.mb + m) ((e : Int) - f.bias - f.mb)

/-- Decode one element pattern without its block scale (R36, R39).  E8M0 stands for 2^(e−127), 0xFF for
NaN (R40). -/
def Fmt.decode (f : Fmt) (v : Nat) : FVal :=
  match f.fpSpec with
  | some s => s.decode v
  | none => match f with
    | .int8 => ofInt (signed 8 v) 0
    | .mxint8 => ofInt (signed 8 v) (-6)
    | .int32 => ofInt (signed 32 v) 0
    | .e8m0 => if v % 256 = 255 then .nan else .fin false 1 ((v % 256 : Nat) - 127)
    | _ => .nan

/-- Multiply by 2^k. -/
def FVal.scale (k : Int) : FVal → FVal
  | .fin s m e => .fin s m (e + k)
  | v => v

/-- The value of an element with block scale byte `sc` (R40). -/
def Fmt.decodeScaled (f : Fmt) (sc v : Nat) : FVal :=
  if f.isMx then (if sc % 256 = 255 then .nan else (f.decode v).scale ((sc % 256 : Nat) - 127))
  else f.decode v

/-- The exact product (R43). -/
def FVal.mul : FVal → FVal → FVal
  | .nan, _ => .nan
  | _, .nan => .nan
  | .inf a, .inf b => .inf (a != b)
  | .inf a, .fin b m _ => if m = 0 then .nan else .inf (a != b)
  | .fin a m _, .inf b => if m = 0 then .nan else .inf (a != b)
  | .fin a m e, .fin b n f => .fin (a != b) (m * n) (e + f)

/-- The signed mantissa. -/
def FVal.smant : FVal → Int
  | .fin true m _ => -(m : Int)
  | .fin false m _ => m
  | _ => 0

/-- The exact sum; an exact zero sum is +0 unless both addends are −0. -/
def FVal.add : FVal → FVal → FVal
  | .nan, _ => .nan
  | _, .nan => .nan
  | .inf a, .inf b => if a = b then .inf a else .nan
  | .inf a, _ => .inf a
  | _, .inf b => .inf b
  | .fin a m e, .fin b n f =>
    let k := min e f
    let x : Int := (if a then -1 else 1) * (m * 2 ^ (e - k).toNat : Nat)
    let y : Int := (if b then -1 else 1) * (n * 2 ^ (f - k).toNat : Nat)
    let z := x + y
    if z = 0 then .fin (a && b) 0 k else .fin (z < 0) z.natAbs k

def FVal.neg : FVal → FVal
  | .nan => .nan
  | .inf a => .inf (!a)
  | .fin a m e => .fin (!a) m e

def FVal.isNan : FVal → Bool | .nan => true | _ => false
def FVal.isInf : FVal → Bool | .inf _ => true | _ => false
def FVal.isZero : FVal → Bool | .fin _ 0 _ => true | _ => false

/-- ⌊log₂ of the magnitude⌋ of a nonzero finite value. -/
def FVal.ilog : FVal → Int
  | .fin _ m e => (Nat.log2 m : Int) + e
  | _ => 0

/-- Strict order of two values neither of which is NaN (zeros of both signs are equal). -/
def FVal.lt (a b : FVal) : Bool :=
  match a, b with
  | .nan, _ | _, .nan => false
  | .inf x, .inf y => x && !y
  | .inf x, .fin _ _ _ => x
  | .fin _ _ _, .inf y => !y
  | .fin x m e, .fin y n f =>
    let k := min e f
    let p : Int := (if x then -1 else 1) * (m * 2 ^ (e - k).toNat : Nat)
    let q : Int := (if y then -1 else 1) * (n * 2 ^ (f - k).toNat : Nat)
    p < q

/-- Equal in value. -/
def FVal.feq (a b : FVal) : Bool := !a.isNan && !b.isNan && !a.lt b && !b.lt a

/-- How a conversion rounds: to nearest even, or up when f + r ≥ 2³² (R45, R46). -/
inductive RndBy where
  | rne
  | sr (r : Nat)
  deriving DecidableEq, Repr

/-- Round m × 2^e to a multiple of 2^q; answers the multiple (R44–R46). -/
def roundMag (by_ : RndBy) (m : Nat) (e q : Int) : Nat :=
  if q ≤ e then m * 2 ^ (e - q).toNat
  else
    let d := (q - e).toNat
    let t := m / 2 ^ d
    let rem := m % 2 ^ d
    match by_ with
    | .rne =>
      if 2 * rem > 2 ^ d ∨ (2 * rem = 2 ^ d ∧ t % 2 = 1) then t + 1 else t
    | .sr r =>
      let f := rem * 2 ^ 32 / 2 ^ d
      if f + r ≥ 2 ^ 32 then t + 1 else t

/-- What a conversion counts as (R47, R59). -/
inductive ConvEv where | plain | sat | infOut | nanOut | nanDrop
  deriving DecidableEq, Repr

/-- Compare m × 2^e with n × 2^f. -/
def magLe (m : Nat) (e : Int) (n : Nat) (f : Int) : Bool :=
  let k := min e f
  m * 2 ^ (e - k).toNat ≤ n * 2 ^ (f - k).toNat

/-- Largest finite magnitude (Table 2-2). -/
def FpSpec.maxMag (f : FpSpec) : Nat × Int :=
  match f.sp with
  | .ieee => (2 ^ (f.mb + 1) - 1, (2 ^ f.eb - 2 : Nat) - (f.bias : Int) - f.mb)
  | .e4m3 => (2 ^ (f.mb + 1) - 2, (2 ^ f.eb - 1 : Nat) - (f.bias : Int) - f.mb)
  | .none => (2 ^ (f.mb + 1) - 1, (2 ^ f.eb - 1 : Nat) - (f.bias : Int) - f.mb)

/-- The pattern of a magnitude k × 2^q that the format holds exactly. -/
def FpSpec.encodeMag (f : FpSpec) (k : Nat) (q : Int) : Nat :=
  if k = 0 then 0
  else
    let lg : Int := (Nat.log2 k : Int) + q
    let emin : Int := 1 - (f.bias : Int)
    if lg < emin then k * 2 ^ (q - (emin - f.mb)).toNat
    else
      let e := (lg + f.bias).toNat
      let sh := (q - (lg - f.mb))
      let man := if 0 ≤ sh then k * 2 ^ sh.toNat else k / 2 ^ (-sh).toNat
      e * 2 ^ f.mb + (man - 2 ^ f.mb)

def FpSpec.sign (f : FpSpec) (neg : Bool) : Nat := if neg then 2 ^ (f.eb + f.mb) else 0
def FpSpec.canonNan (f : FpSpec) : Nat :=
  match f.sp with
  | .ieee => (2 ^ f.eb - 1) * 2 ^ f.mb + 2 ^ (f.mb - 1)
  | .e4m3 => 0x7F
  | .none => 0
def FpSpec.infPat (f : FpSpec) (neg : Bool) : Nat := f.sign neg + (2 ^ f.eb - 1) * 2 ^ f.mb
def FpSpec.maxPat (f : FpSpec) (neg : Bool) : Nat :=
  let (k, q) := f.maxMag
  f.sign neg + f.encodeMag k q

/-- Convert an exact value to a floating-point element format (R44–R47, Table 2-4). -/
def FpSpec.convert (f : FpSpec) (by_ : RndBy) (ov : Ovf) (v : FVal) : Nat × ConvEv :=
  match v with
  | .nan => if f.sp = .none then (0, .nanDrop) else (f.canonNan, .nanOut)
  | .inf s => match f.sp with
    | .ieee => (f.infPat s, .infOut)
    | .e4m3 => if ov = .sat then (f.maxPat s, .sat) else (f.canonNan, .nanOut)
    | .none => (f.maxPat s, .sat)
  | .fin s m e =>
    if m = 0 then (f.sign s, .plain)
    else
      let q := max ((Nat.log2 m : Int) + e - f.mb) (1 - (f.bias : Int) - f.mb)
      let k := roundMag by_ m e q
      let (mm, me) := f.maxMag
      if magLe k q mm me then (f.sign s + f.encodeMag k q, .plain)
      else match f.sp with
        | .ieee => if ov = .sat then (f.maxPat s, .sat) else (f.infPat s, .infOut)
        | .e4m3 => if ov = .sat then (f.maxPat s, .sat) else (f.canonNan, .nanOut)
        | .none => (f.maxPat s, .sat)

/-- Convert to a two's-complement integer of `w` bits in units of 2^q (R44, Table 2-4). -/
def convertInt (w : Nat) (q : Int) (by_ : RndBy) (v : FVal) : Nat × ConvEv :=
  match v with
  | .nan => (0, .nanDrop)
  | .inf s => (if s then 2 ^ (w - 1) else 2 ^ (w - 1) - 1, .sat)
  | .fin s m e =>
    let k := roundMag by_ m e q
    if s then (if k ≤ 2 ^ (w - 1) then (pat w (-(k : Int)), .plain) else (2 ^ (w - 1), .sat))
    else (if k < 2 ^ (w - 1) then (k, .plain) else (2 ^ (w - 1) - 1, .sat))

/-- Convert one value to an element format other than a block-scaled one (R44–R47).  E8M0 is no target
of R44; the vector unit writes scales through R48. -/
def convert (f : Fmt) (by_ : RndBy) (ov : Ovf) (v : FVal) : Nat × ConvEv :=
  match f.fpSpec with
  | some s => s.convert by_ ov v
  | none => match f with
    | .int8 => convertInt 8 0 by_ v
    | .mxint8 => convertInt 8 (-6) by_ v
    | .int32 => convertInt 32 0 by_ v
    | _ => (0, .plain)

/-- Round to FP32, RNE, with IEEE overflow (R49). -/
def rn32 (v : FVal) : FVal := FpSpec.decode ⟨8, 23, 127, .ieee⟩ ((convert .fp32 .rne .nonsat v).1)

/-- The FP32 pattern of an exact value under RNE. -/
def to32 (v : FVal) : Nat := (convert .fp32 .rne .nonsat v).1
/-- The value of an FP32 pattern. -/
def of32 (n : Nat) : FVal := Fmt.decode .fp32 n

/-- The 32-bit random value of R46, all arithmetic modulo 2⁶⁴. -/
def srDraw (layer oper tensor accession : Nat) (index : Int) : Nat :=
  let m := 2 ^ 64
  let key := (layer % 65536) * 2 ^ 48 + (oper % 65536) * 2 ^ 32 + (tensor % 65536) * 2 ^ 16
  let x := key ^^^ (accession * 0x9E3779B97F4A7C15 % m) ^^^ (pat 64 index * 0xD1B54A32D192ED03 % m)
  let x := (x ^^^ (x / 2 ^ 30)) * 0xBF58476D1CE4E5B9 % m
  let x := (x ^^^ (x / 2 ^ 27)) * 0x94D049BB133111EB % m
  let x := x ^^^ (x / 2 ^ 31)
  x / 2 ^ 32

/-- emax of a block-scaled target (R48 step 3). -/
def Fmt.emax : Fmt → Int
  | .mxfp8e4m3 => 8 | .mxfp8e5m2 => 15 | .mxfp6e3m2 => 4 | .mxfp6e2m3 => 2 | .mxfp4 => 2 | _ => 0

/-- What producing one block counts as: NaN outputs, scale clamps, saturations (R48). -/
structure BlockEv where
  nanOut : Nat := 0
  scaleClamp : Nat := 0
  sat : Nat := 0
  deriving DecidableEq, Repr

/-- One element of a block, clamped to the largest finite value whatever OVF says; MXINT8 clamps to
−127…127 (R48 step 4). -/
def mxElem (f : Fmt) (by_ : RndBy) (v : FVal) : Nat :=
  match f.fpSpec with
  | some s => (s.convert by_ .sat v).1
  | none => let n := (convertInt 8 (-6) by_ v).1; if n = 128 then 129 else n

/-- Produce one block from its source values, each with its rounding (R48): the scale byte, the element
patterns, and what it counts as. -/
def mxBlock (f : Fmt) (ov : Ovf) (vs : List (FVal × RndBy)) : Nat × List Nat × BlockEv :=
  let zeros := vs.map fun _ => 0
  if vs.any (fun x => x.1.isNan || x.1.isInf) then (0xFF, zeros, { nanOut := 1 })
  else if vs.all (fun x => x.1.isZero) then (0x7F, zeros, {})
  else
    let top := vs.foldl (fun (a : Option Int) x =>
      if x.1.isZero then a else some (match a with | none => x.1.ilog | some y => max y x.1.ilog)) none
    let se := top.getD 0 - f.emax
    if 127 < se ∧ ov = .nonsat then (0xFF, zeros, { nanOut := 1 })
    else
      let se' := if se < -127 then -127 else if 127 < se then 127 else se
      ((se' + 127).toNat, vs.map (fun x => mxElem f x.2 (x.1.scale (-se'))),
        { scaleClamp := if se < -127 then 1 else 0, sat := if 127 < se then 1 else 0 })

/-! ### FAST accumulation (R49–R51) -/

/-- The exact sum of a group's products; an exact zero is +0 whatever the signs (R50). -/
def groupSum (ps : List FVal) : FVal :=
  match ps.foldl FVal.add (.fin false 0 0) with
  | .fin _ 0 e => .fin false 0 e
  | v => v

/-- acc := rn32(acc + rn32(group_sum)) (R49). -/
def fastStep (acc : FVal) (ps : List FVal) : FVal := rn32 (acc.add (rn32 (groupSum ps)))

/-- The INT32 accumulator step: saturating, and whether it saturated (R51). -/
def fastIntStep (acc : Int) (ps : List Int) : Int × Bool :=
  let s := acc + ps.foldl (· + ·) 0
  if s > 2147483647 then (2147483647, true)
  else if s < -2147483648 then (-2147483648, true) else (s, false)

/-! ### EXACT accumulation (R53–R58) -/

/-- An EXACT accumulator (R53, R54). -/
structure ExactAcc where
  sum : BitVec 176 := 0
  ovf : Bool := false
  nonfinite : Bool := false
  uflow : Nat := 0
  deriving DecidableEq, Repr, Inhabited

def satCount (n : Nat) : Nat := min n 0xFFFFFFFF

/-- Enter one product into the accumulator with window exponent `ew` (R54). -/
def ExactAcc.enter (ew : Int) (a : ExactAcc) (p : FVal) : ExactAcc :=
  match p with
  | .nan | .inf _ => { a with nonfinite := true }
  | .fin s m e =>
    if m = 0 then a
    else
      let sh := e - ew
      let t := if 0 ≤ sh then m * 2 ^ sh.toNat else m / 2 ^ (-sh).toNat
      let lost := !(0 ≤ sh) && m % 2 ^ (-sh).toNat != 0
      if 2 ^ 127 ≤ t then { a with ovf := true }
      else { a with
        sum := if s then a.sum - BitVec.ofNat 176 t else a.sum + BitVec.ofNat 176 t
        uflow := if lost then satCount (a.uflow + 1) else a.uflow }

/-- The EXACT record of an accumulator (Table 2-5). -/
def ExactAcc.record (ew : Int) (a : ExactAcc) : Nat :=
  a.sum.toNat + pat 10 ew * 2 ^ 176 + (if a.ovf then 2 ^ 186 else 0)
    + (if a.nonfinite then 2 ^ 187 else 0) + satCount a.uflow * 2 ^ 192

/-- Read an EXACT record: its window exponent and its accumulator (Table 2-5). -/
def ExactAcc.ofRecord (r : Nat) : Int × ExactAcc :=
  (signed 10 (r / 2 ^ 176 % 1024),
   { sum := BitVec.ofNat 176 r, ovf := r / 2 ^ 186 % 2 = 1, nonfinite := r / 2 ^ 187 % 2 = 1,
     uflow := r / 2 ^ 192 % 2 ^ 32 })

/-- Combine two values of equal window exponents (R57). -/
def ExactAcc.combine (a b : ExactAcc) : ExactAcc :=
  { sum := a.sum + b.sum, ovf := a.ovf || b.ovf, nonfinite := a.nonfinite || b.nonfinite,
    uflow := satCount (a.uflow + b.uflow) }

/-- Finalise (R58): a fault code, or the exact value to convert. -/
def ExactAcc.finalise (ew : Int) (a : ExactAcc) : Except Nat FVal :=
  if a.nonfinite then .error 0x1001
  else
    let s := a.sum.toInt
    if a.ovf ∨ s < -(2 ^ 127 : Int) ∨ (2 ^ 127 : Int) ≤ s then .error 0x1002
    else .ok (ofInt s ew)

end Sys2Proof
end

