-- ==== Sys2Proof/Config.lean ====
section
/-! DEFINITION. What an implementation fixes and the free values: constants with no body, so that nothing
can evaluate them and a statement about them holds whatever they are. -/

namespace Sys2Proof

/-- The result of a lane-program function step where Table 6-7 gives only an error bound: the step's code
and the FP32 input pattern (R177: the same bits for the same input). -/
opaque Config.veFn : Nat → Nat → BitVec 32

/-- The part of a time response's CORR that accumulated on the way up, where the packet carries one sum (R357). -/
opaque Config.corrUp : Nat → Nat

/-- How a register of whole units shows a fractional value (TIME_OFFSET, TIME_RATE): rounded up or down. -/
opaque Config.showUp : Nat → Bool

/-- How the 32-bit fraction of fabric time takes a rate 1 + r (R358): the gain of one tick rounded up or down. -/
opaque Config.rateUp : Rat → Bool

/-- HKDF-SHA-384 (RFC 5869): input key material, info and length (R483). -/
opaque Config.hkdf384 : List Byte → List Byte → Nat → List Byte

/-- AES-256-GCM (NIST SP 800-38D): key, IV, AAD and plaintext give ciphertext and tag (R482). -/
opaque Config.gcmSeal : List Byte → List Byte → List Byte → List Byte → List Byte × List Byte

/-- AES-256-GCM: key, IV, AAD, ciphertext and tag give the plaintext, or none where the tag fails (R484). -/
opaque Config.gcmOpen : List Byte → List Byte → List Byte → List Byte → List Byte → Option (List Byte)

/-- The random source: the draw with a number, of so many bytes (R468). -/
opaque Config.random : Nat → Nat → Nat

/-- The scope byte of a FREEZE record (Table 16-4 gives it no encoding): of the FREEZE_SCOPE register. -/
opaque Config.freezeScope : Nat → Nat

/-- How a DUMP header's bytes 16–63 hold the core, ISEQ, call number, accession and byte count (R454). -/
opaque Config.dumpFields : List Nat → List Byte

/-- How the sections of the ledger before its fault ring lay out their contents (Table 16-5): the section and its
entries. -/
opaque Config.ledgerSection : Nat → List (Nat × Nat) → List Byte

/-- Both signatures of a signature block verify over a message: ECDSA P-384 with SHA-384 and ML-DSA-65 in pure mode
with an empty context (R469). -/
opaque Config.sigVerify : List Byte → List Byte → Bool

/-- A signature by both Alias keys that derive from a seed (R467), over a message. -/
opaque Config.aliasSign : List Byte → List Byte → List Byte

/-- The slot 0 certificate chain: root, DeviceID, Alias (R467), of the DeviceID and Alias seeds, MREG[0], the SVN and the
life cycle (R478). -/
opaque Config.certChain : List Byte → List Byte → List Byte → Nat → Nat → List Byte

/-- The body of a response whose form DSP0274 gives and the spec does not: the response code and what it rests on. -/
opaque Config.spdmBody : Nat → List Byte → List Byte

/-- The bytes with which MREG[1] or MREG[3] is extended: its items in the order of Table 17-7, which gives them no
encoding. -/
opaque Config.measured : Nat → List (List Byte) → List Byte

/-- An open value of so many bits that a step needs, by draw. -/
opaque Config.freeBits : Nat → Nat

/-- Whether a write of the ledger that the device makes on its own verifies (R458), by draw. -/
opaque Config.flashOk : Nat → Bool

/-- What the bytes of a CODE section spell: the encoding of compute bundles is private to the device (R6, log 38). -/
opaque Config.decodeCode : List Byte → CodeImage

/-- The micro-operations into which the loader translates a stage program (R302). -/
opaque Config.microOps : List (BitVec 32) → Nat

end Sys2Proof
end

