-- ==== Sys2Proof/Machine/Lane.lean ====
section
/-! DEFINITION. The arithmetic of scalar FP32 operations and of lane steps (R167, R176, R177), and the
combining functions of reductions (R182). -/

namespace Sys2Proof

/-- −0 orders below +0; otherwise by value (Table 6-6). -/
def FVal.below (a b : FVal) : Bool :=
  a.lt b || (a.feq b && (match a, b with | .fin true 0 _, .fin false 0 _ => true | _, _ => false))

def FVal.minStep (a b : FVal) : FVal := if a.isNan || b.isNan then .nan else if b.below a then b else a
def FVal.maxStep (a b : FVal) : FVal := if a.isNan || b.isNan then .nan else if a.below b then b else a

def FVal.abs : FVal → FVal
  | .nan => .nan
  | .inf _ => .inf false
  | .fin _ m e => .fin false m e

def FVal.one : FVal := .fin false 1 0
def FVal.zero : FVal := .fin false 0 0

/-- Integer square root by bits from bit `n` down: the largest r with r² ≤ v. -/
def isqrtFrom (v : Nat) : Nat → Nat → Nat
  | 0, r => r
  | n + 1, r => let t := r + 2 ^ n; isqrtFrom v n (if t * t ≤ v then t else r)

/-- √(m × 2^e) to at least 40 significant bits with a sticky bit, so that rounding it once is correct. -/
def sqrtVal (m : Nat) (e : Int) : FVal :=
  let k : Nat := if e % 2 = 0 then 80 else 81
  let v := m * 2 ^ k
  let r := isqrtFrom v 80 0
  .fin false (2 * r + (if r * r = v then 0 else 1)) ((e - k) / 2 - 1)

/-- 1 / (m × 2^e) to at least 64 significant bits with a sticky bit. -/
def rcpVal (neg : Bool) (m : Nat) (e : Int) : FVal :=
  let k := Nat.log2 m + 64
  .fin neg (2 * (2 ^ k / m) + (if 2 ^ k % m = 0 then 0 else 1)) (-e - k - 1)

/-- The FP32 ulp exponent at a value (R177: 2⁻¹⁴⁹ for subnormal results). -/
def ulpExp (v : FVal) : Int := max (v.ilog - 23) (-149)

/-- The candidate `c` when it lies within `n` ulp of the exact reciprocal of m × 2^e, else the correctly
rounded value: any implementation within the bound of Table 6-7 is some choice of `c`. -/
def boundedRcp (neg : Bool) (m : Nat) (e : Int) (c : FVal) : FVal :=
  let x := rcpVal neg m e
  let u := ulpExp x
  match c with
  | .fin s k f =>
    -- |c·a − 1| ≤ ulp·|a|
    let ca : FVal := FVal.mul (.fin s k f) (.fin neg m e)
    let d := (ca.add (.fin true 1 0)).abs
    if FVal.lt (.fin false m (e + u)) d then rn32 x else c
  | _ => rn32 x

/-- As `boundedRcp` for 1/√(m × 2^e) within 2 ulp. -/
def boundedRsqrt (m : Nat) (e : Int) (c : FVal) : FVal :=
  let x := match sqrtVal m e with | .fin _ k f => rcpVal false k f | v => v
  let u := ulpExp x
  match c with
  | .fin false k f =>
    let lo := (FVal.fin false k f).add (.fin true 2 u)
    let hi := (FVal.fin false k f).add (.fin false 2 u)
    let a := FVal.fin false m e
    let loOk := lo.smant ≤ 0 || !(FVal.lt .one ((lo.mul lo).mul a))
    let hiOk := !(FVal.lt ((hi.mul hi).mul a) .one)
    if loOk && hiOk then c else rn32 x
  | _ => rn32 x

/-! ### Enclosures of the functions of Table 6-7

Fixed-point numbers of 128 fraction bits; each enclosure is an interval with a relative width below 2⁻⁷⁰, against which a
candidate is judged. -/

def fxOne : Nat := 2 ^ 128

/-- A value as a fixed-point number, toward −∞. -/
def FVal.fx : FVal → Int
  | .fin s m e =>
    let n : Int := if s then -(m : Int) else m
    if 0 ≤ e + 128 then n * (2 ^ (e + 128).toNat : Nat) else n / (2 ^ (-(e + 128)).toNat : Nat)
  | _ => 0

/-- ln 2 = Σ 1 ÷ (k · 2ᵏ). -/
def fxLn2 : Nat := (List.range 140).foldl (fun s i => s + fxOne / ((i + 1) * 2 ^ (i + 1))) 0

/-- The terms yᵏ ÷ k! from term `k` on, the term being `t`. -/
def fxExp (y : Nat) : Nat → Nat → Nat → Nat
  | 0, _, _ => 0
  | n + 1, k, t => t + fxExp y n (k + 1) (t * y / fxOne / (k + 1))

/-- 2^v for a fixed-point `v`: a mantissa and an exponent. -/
def fxExp2 (v : Int) : Nat × Int := (fxExp ((v % fxOne).toNat * fxLn2 / fxOne) 48 0 fxOne, v / fxOne - 128)

/-- The terms u^(2k+1) ÷ (2k + 1), `p` being the power of u that has been reached. -/
def fxAtanh (sq : Nat) : Nat → Nat → Nat → Nat
  | 0, _, _ => 0
  | n + 1, k, p => p / (2 * k + 1) + fxAtanh sq n (k + 1) (p * sq / fxOne)

/-- log₂ of a fixed-point number in [1, 2). -/
def fxLog2 (z : Nat) : Nat :=
  let u := (z - fxOne) * fxOne / (z + fxOne)
  2 * fxAtanh (u * u / fxOne) 48 0 u * fxOne / fxLn2

/-- m × 2^e with the relative error of `fxExp2`. -/
def enclose (neg : Bool) (m : Nat) (e : Int) : FVal × FVal :=
  let lo := FVal.fin neg (m - 2 ^ 30) e
  let hi := FVal.fin neg (m + 2 ^ 30) e
  if neg then (hi, lo) else (lo, hi)

/-- 2^v; below 2⁻³⁰⁰ the lower end is 0. -/
def encExp2 (v : FVal) : FVal × FVal :=
  if FVal.lt v (.fin true 300 0) then (.zero, .fin false 1 (-300)) else let (m, e) := fxExp2 v.fx; enclose false m e

/-- log₂ of m × 2^e. -/
def encLog2 (m : Nat) (e : Int) : FVal × FVal :=
  let k := Nat.log2 m
  let x : Int := ((k : Int) + e) * fxOne + fxLog2 (m * fxOne / 2 ^ k)
  (ofInt (x - 2 ^ 30) (-128), ofInt (x + 2 ^ 30) (-128))

/-- e^−y for y = m × 2^e, as a fixed-point number; 0 from y = 128 on. -/
def fxExpNeg (m : Nat) (e : Int) : Nat :=
  if FVal.lt (.fin false m e) (.fin false 128 0) then
    let (n, k) := fxExp2 (-((FVal.fin false m e).fx * fxOne / fxLn2))
    n / 2 ^ (-(k + 128)).toNat
  else 0

/-- tanh of m × 2^e, or of its negative: (1 − D) ÷ (1 + D) with D = e^−2a, and below 2⁻²⁰ the two ends of the series
a − a³ ÷ 3 + 2a⁵ ÷ 15. -/
def encTanh (neg : Bool) (m : Nat) (e : Int) : FVal × FVal :=
  if (FVal.fin false m e).ilog < -20 then
    let c := FVal.fin false (m * m * m) (3 * e)
    let third (k : Nat) : FVal := c.mul (.fin true k (-64))
    let lo := (FVal.fin false m e).add (third (2 ^ 64 / 3 + 1))
    let hi := ((FVal.fin false m e).add (third (2 ^ 64 / 3))).add ((c.mul (.fin false (m * m) (2 * e))).mul (.fin false 1 (-2)))
    if neg then (hi.neg, lo.neg) else (lo, hi)
  else
    let d := fxExpNeg m (e + 1)
    enclose neg ((fxOne - d) * fxOne / (fxOne + d)) (-128)

/-- 1 ÷ (1 + e^−a) for a = ±m × 2^e; for a negative a it is D ÷ (1 + D) with D = e^a, below e⁻¹²⁸ between 0 and e⁻¹²⁸. -/
def encSigmoid (neg : Bool) (m : Nat) (e : Int) : FVal × FVal :=
  if neg then
    if FVal.lt (.fin false m e) (.fin false 128 0) then
      let (n, k) := fxExp2 (-((FVal.fin false m e).fx * fxOne / fxLn2))
      enclose false (n * fxOne / (fxOne + n / 2 ^ (-(k + 128)).toNat)) k
    else (.zero, .fin false 1 (-184))
  else let d := fxExpNeg m e; enclose false (fxOne * fxOne / (fxOne + d)) (-128)

/-- The candidate `c` when it lies within `n` ulp of a value that `iv` encloses, else that value correctly rounded (R177):
any implementation within the bound of Table 6-7 is some choice of `c`. -/
def boundedBy (n : Nat) (iv : FVal × FVal) (c : FVal) : FVal :=
  let r := FVal.fin false n (ulpExp iv.1)
  match c with
  | .fin _ _ _ => if c.lt (iv.1.add r.neg) || (iv.2.add r).lt c then rn32 iv.1 else c
  | _ => rn32 iv.1

/-- The value is an integer; answers it. -/
def FVal.asInt : FVal → Option Int
  | .fin s m e =>
    if 0 ≤ e then some ((if s then -1 else 1) * (m * 2 ^ e.toNat : Nat))
    else if m % 2 ^ (-e).toNat = 0 then some ((if s then -1 else 1) * (m / 2 ^ (-e).toNat : Nat)) else none
  | _ => none

def StepOp.code : StepOp → Nat
  | .rcp => 1 | .sqrt => 2 | .rsqrt => 3 | .exp2 => 4 | .log2 => 5 | .tanh => 6 | .sigmoid => 7 | _ => 0

/-- Cycles of a strip that a step occupies, and cycles until its result can be used (Table 6-6). -/
def stepCost : StepOp → Nat
  | .rcp => 2 | .sqrt => 2 | .rsqrt => 2 | .exp2 => 2 | .log2 => 2 | .tanh => 4 | .sigmoid => 4 | _ => 1
def stepLat : StepOp → Nat
  | .rcp => 6 | .sqrt => 6 | .rsqrt => 6 | .exp2 => 6 | .log2 => 6 | .tanh => 10 | .sigmoid => 10 | _ => 3

/-- The function steps (Table 6-7). -/
def laneFn (op : StepOp) (a : FVal) : FVal :=
  let free := of32 (Config.veFn op.code (to32 a)).toNat
  match op, a with
  | _, .nan => .nan
  | .rcp, .inf s => .fin s 0 0
  | .rcp, .fin s 0 _ => .inf s
  | .rcp, .fin s m e => boundedRcp s m e free
  | .sqrt, .inf s => if s then .nan else .inf false
  | .sqrt, .fin s 0 e => .fin s 0 e
  | .sqrt, .fin s m e => if s then .nan else rn32 (sqrtVal m e)
  | .rsqrt, .inf s => if s then .nan else .fin false 0 0
  | .rsqrt, .fin s 0 _ => .inf s
  | .rsqrt, .fin s m e => if s then .nan else boundedRsqrt m e free
  | .exp2, .inf s => if s then .fin false 0 0 else .inf false
  | .exp2, v => match v.asInt with
    | some n => if 128 ≤ n then .inf false else if -149 ≤ n then .fin false 1 n else boundedBy 2 (encExp2 v) free
    | none => if FVal.lt v (.fin false 128 0) then boundedBy 2 (encExp2 v) free else .inf false
  | .log2, .inf s => if s then .nan else .inf false
  | .log2, .fin _ 0 _ => .inf true
  | .log2, .fin s m e => if s then .nan else
    if m = 2 ^ Nat.log2 m then rn32 (ofInt ((Nat.log2 m : Int) + e) 0) else boundedBy 2 (encLog2 m e) free
  | .tanh, .inf s => .fin s 1 0
  | .tanh, .fin s 0 e => .fin s 0 e
  | .tanh, .fin s m e => boundedBy 4 (encTanh s m e) free
  | .sigmoid, .inf s => if s then .fin false 0 0 else .one
  | .sigmoid, .fin s m e => boundedBy 4 (encSigmoid s m e) free
  | _, _ => free

/-- Round a lane result to the operation's precision (R170). -/
def laneRound (b16 : Bool) (v : FVal) : FVal :=
  if b16 then FpSpec.decode ⟨8, 7, 127, .ieee⟩ (convert .bf16 .rne .nonsat v).1 else rn32 v

/-- One lane step (Table 6-6). -/
def laneStep (b16 : Bool) (op : StepOp) (a b c : FVal) : FVal :=
  match op with
  | .add => laneRound b16 (a.add b)
  | .sub => laneRound b16 (a.add b.neg)
  | .mul => laneRound b16 (a.mul b)
  | .fma => laneRound b16 ((a.mul b).add c)
  | .min => a.minStep b
  | .max => a.maxStep b
  | .abs => a.abs
  | .neg => a.neg
  | .ceq => if a.feq b then .one else .zero
  | .clt => if a.lt b then .one else .zero
  | .cle => if a.lt b || a.feq b then .one else .zero
  | .sel => if a.isZero then c else b
  | f => laneFn f a

/-- The partial of a reduction: a value with an index, or a count (Table 6-9). -/
inductive RedV where
  | v (x : FVal) (idx : Nat)
  | n (k : Nat)
  deriving DecidableEq, Repr

def redIdentity : RedKind → RedV
  | .sum => .v (.fin true 0 0) 0
  | .max => .v (.inf true) 0
  | .min => .v (.inf false) 0
  | .absmax => .v .zero 0
  | .argmax => .v (.inf true) (2 ^ 64 - 1)
  | _ => .n 0

/-- The value an element brings into the reduction. -/
def redElem (k : RedKind) (x : FVal) (i : Nat) : RedV :=
  match k with
  | .absmax => .v x.abs i
  | .nonfinite => .n (if x.isNan || x.isInf then 1 else 0)
  | .nonzero => .n (if x.isZero then 0 else 1)
  | _ => .v x i

/-- The combining function c of Table 6-9. -/
def redCombine (k : RedKind) (a b : RedV) : RedV :=
  match a, b with
  | .n x, .n y => .n (x + y)
  | .v x i, .v y j =>
    match k with
    | .sum => .v (rn32 (x.add y)) 0
    | .max => .v (x.maxStep y) 0
    | .min => .v (x.minStep y) 0
    | .absmax => .v (x.abs.maxStep y.abs) 0
    | .argmax =>
      if x.isNan && y.isNan then .v .nan (min i j)
      else if x.isNan then .v x i
      else if y.isNan then .v y j
      else if x.lt y then .v y j
      else if y.lt x then .v x i
      else .v x (min i j)
    | _ => .v x i
  | a, _ => a

/-- Reduce the values of one segment in the order that R183 fixes: lane l, four partials per lane, then
a tree over 128 lanes. -/
def reduceSeg (k : RedKind) (xs : List FVal) : RedV :=
  let id := redIdentity k
  let ys := xs.zipIdx.map fun (x, i) => redElem k x i
  let lane (l : Nat) : RedV :=
    let mine := ys.zipIdx.filter fun (_, i) => i % 128 = l
    let part (j : Nat) : RedV :=
      (mine.filter fun (_, i) => i / 128 % 4 = j).foldl (fun a x => redCombine k a x.1) id
    redCombine k (redCombine k (part 0) (part 1)) (redCombine k (part 2) (part 3))
  let rec tree (w : Nat) (q : List RedV) : Nat → List RedV
    | 0 => q
    | n + 1 => tree (w / 2) (List.zipWith (redCombine k) (q.take w) (q.drop w)) n
  match tree 64 ((List.range 128).map lane) 7 with
  | [r] => r
  | _ => id

end Sys2Proof
end

