-- ==== Sys2Proof/Machine/Tab.lean ====
section
/-! DEFINITION. Sparse tables: every replicated or addressed piece of state is a list of (key, value)
pairs in one canonical form, keys strictly rising and no entry equal to what an unlisted key reads as. -/

namespace Sys2Proof.Machine

/-- A sparse table over natural keys. -/
abbrev Tab (α : Type) := List (Nat × α)

variable {α : Type}

/-- The entry of key `k`, or `d` (what an unlisted key reads as). -/
def Tab.get (d : α) : Tab α → Nat → α
  | [], _ => d
  | (j, v) :: t, k => if k = j then v else if k < j then d else Tab.get d t k

/-- Remove the entry of key `k`. -/
def Tab.erase : Tab α → Nat → Tab α
  | [], _ => []
  | (j, v) :: t, k => if k = j then t else if k < j then (j, v) :: t else (j, v) :: Tab.erase t k

/-- Put value `x` at key `k`, keeping keys rising. -/
def Tab.put : Tab α → Nat → α → Tab α
  | [], k, x => [(k, x)]
  | (j, v) :: t, k, x =>
    if k = j then (k, x) :: t else if k < j then (k, x) :: (j, v) :: t else (j, v) :: Tab.put t k x

/-- Write `x` at key `k`: writing what an unlisted key reads as removes the entry. -/
def Tab.set [DecidableEq α] (d : α) (t : Tab α) (k : Nat) (x : α) : Tab α :=
  if x = d then Tab.erase t k else Tab.put t k x

/-- Every key of `t` is above `b`. -/
def Tab.above (b : Nat) : Tab α → Bool
  | [] => true
  | (j, _) :: _ => b < j

/-- The canonical form: keys strictly rising, no entry equal to `d`. -/
def Tab.wf [DecidableEq α] (d : α) : Tab α → Bool
  | [] => true
  | (j, v) :: t => (v != d) && Tab.above j t && Tab.wf d t

/-- Change the entry of key `k` by `f`. -/
def Tab.modify [DecidableEq α] (d : α) (t : Tab α) (k : Nat) (f : α → α) : Tab α :=
  Tab.set d t k (f (Tab.get d t k))

end Sys2Proof.Machine
end

