-- ==== Sys2Proof/Machine/RegMap.lean ====
section
/-! DEFINITION. The register map (R11, R550–R553 and the register tables of every chapter): for each
register its home key, width, access masks (R11) and reset value.  The rows are the spec's own field
tables.  A register shown through a selector (CTX_SEL, QSEL, WD_SEL, SLICE_SEL) has one home per
selected object, on a page number of the model's own above 0xFFF. -/

namespace Sys2Proof.Machine

/-- The home key of the register at byte `off` of page `pg`. -/
def regKey (pg off : Nat) : Nat := pg * 4096 + off

namespace R

def udShape (u : Nat) : Nat := regKey (u) (0x100)
def udState (u : Nat) : Nat := regKey (u) (0x108)
def udQset (u : Nat) : Nat := regKey (u) (0x110)
def udWinBase (u n : Nat) : Nat := regKey (u) (0x200 + 16 * n)
def udWinSize (u n : Nat) : Nat := regKey (u) (0x208 + 16 * n)
def coreNumStatus (c : Nat) : Nat := regKey (c) (0x500)
def coreNumUflowCnt (c : Nat) : Nat := regKey (c) (0x504)
def coreNumSatCnt (c : Nat) : Nat := regKey (c) (0x508)
def coreNumNanCnt (c : Nat) : Nat := regKey (c) (0x50c)
def coreArrColmap (c a : Nat) : Nat := regKey (c) (0x600 + 4 * a)
def coreArrState (c : Nat) : Nat := regKey (c) (0x610)
def coreParkStatus (c : Nat) : Nat := regKey (c) (0x700)
def coreParkPc (c : Nat) : Nat := regKey (c) (0x704)
def coreParkLink (c : Nat) : Nat := regKey (c) (0x708)
def coreParkLoops (c : Nat) : Nat := regKey (c) (0x70c)
def coreParkLcnt (c i : Nat) : Nat := regKey (c) (0x710 + 4 * i)
def coreParkIseq (c e : Nat) : Nat := regKey (c) (0x740 + 32 * e)
def coreParkTile (c e : Nat) : Nat := regKey (c) (0x744 + 32 * e)
def coreParkLidx (c e j : Nat) : Nat := regKey (c) (0x748 + 32 * e + 4 * j)
def coreParkPend (c e : Nat) : Nat := regKey (c) (0x754 + 32 * e)
def coreParkEstate (c e : Nat) : Nat := regKey (c) (0x758 + 32 * e)
def coreParkSreg (c n : Nat) : Nat := regKey (c) (0x800 + 8 * n)
def coreSeqStatus (c : Nat) : Nat := regKey (c) (0x300)
def coreSeqPc (c : Nat) : Nat := regKey (c) (0x304)
def coreQueueLevel (c : Nat) : Nat := regKey (c) (0x308)
def coreHeadWait (c : Nat) : Nat := regKey (c) (0x30c)
def coreWaitCfg (c : Nat) : Nat := regKey (c) (0x310)
def coreDbgBundleLimit (c : Nat) : Nat := regKey (c) (0x320)
def coreDbgBundleCount (c : Nat) : Nat := regKey (c) (0x328)
def coreSregCollideCnt (c : Nat) : Nat := regKey (c) (0x330)
def coreFlag (c j : Nat) : Nat := regKey (c) (0x400 + 4 * j)
def coreAgSel (c : Nat) : Nat := regKey (c) (0x900)
def coreAgStatus (c : Nat) : Nat := regKey (c) (0x904)
def coreAgView (c w : Nat) : Nat := regKey (c) (0x940 + 8 * w)
def corePmcSel (c i : Nat) : Nat := regKey (c) (0xa00 + 8 * i)
def corePmc (c i : Nat) : Nat := regKey (c) (0xa40 + 8 * i)
def coreCycles (c : Nat) : Nat := regKey (c) (0xa80)
def coreBundles (c : Nat) : Nat := regKey (c) (0xa88)
def coreArrStall (c a : Nat) : Nat := regKey (c) (0xa90 + 8 * a)
def coreFrz (c j : Nat) : Nat := regKey (c) (0xac0 + 8 * j)
def coreCpmc (c k : Nat) : Nat := regKey (c) (0xb40 + 8 * k)
def podSlotMap (p : Nat) : Nat := regKey (128 + p) (0x300)
def podFlag (p j : Nat) : Nat := regKey (128 + p) (0x340 + 4 * j)
def spadIntStatus (c : Nat) : Nat := regKey (256 + c) (0x20)
def spadConflictCnt (c b : Nat) : Nat := regKey (256 + c) (0x100 + 4 * b)
def spadPortWait (c p : Nat) : Nat := regKey (256 + c) (0x140 + 4 * p)
def spadEccCeCnt (c : Nat) : Nat := regKey (256 + c) (0x180)
def spadEccUeCnt (c : Nat) : Nat := regKey (256 + c) (0x184)
def spadEccLast (c : Nat) : Nat := regKey (256 + c) (0x188)
def spadDbgAddr (c : Nat) : Nat := regKey (256 + c) (0x1c0)
def spadDbgStatus (c : Nat) : Nat := regKey (256 + c) (0x1c4)
def spadDbgData (c : Nat) : Nat := regKey (256 + c) (0x1c8)
def smemIntStatus (t : Nat) : Nat := regKey (384 + t) (0x20)
def smemCeCnt (t : Nat) : Nat := regKey (384 + t) (0x100)
def smemUeCnt (t : Nat) : Nat := regKey (384 + t) (0x104)
def smemReconCnt (t : Nat) : Nat := regKey (384 + t) (0x108)
def smemScrubPassCnt (t : Nat) : Nat := regKey (384 + t) (0x10c)
def smemErrLast (t : Nat) : Nat := regKey (384 + t) (0x110)
def smemSpareBank (t k : Nat) : Nat := regKey (384 + t) (0x120 + 4 * k)
def smemSpareRowMin (t : Nat) : Nat := regKey (384 + t) (0x128)
def smemRebuild (t : Nat) : Nat := regKey (384 + t) (0x130)
def smemcStatus : Nat := regKey (392) (0x14)
def smemcScrubCfg : Nat := regKey (392) (0x100)
def smemcUnwindowedCnt : Nat := regKey (392) (0x104)
def smemcGranule (g : Nat) : Nat := regKey (392) (0x800 + 4 * g)
def poolPoolCfg (i : Nat) : Nat := regKey (393 + i / 64) (0x100 + 0x20 * (i % 64) + 0x0)
def poolPoolSlots (i : Nat) : Nat := regKey (393 + i / 64) (0x100 + 0x20 * (i % 64) + 0x4)
def poolPoolBase (i : Nat) : Nat := regKey (393 + i / 64) (0x100 + 0x20 * (i % 64) + 0x8)
def poolPoolState (i : Nat) : Nat := regKey (393 + i / 64) (0x100 + 0x20 * (i % 64) + 0x10)
def poolPoolWait (i : Nat) : Nat := regKey (393 + i / 64) (0x100 + 0x20 * (i % 64) + 0x14)
def poolPoolRejectCnt (i : Nat) : Nat := regKey (393 + i / 64) (0x100 + 0x20 * (i % 64) + 0x18)
def poolPoolBusyCnt (i : Nat) : Nat := regKey (393 + i / 64) (0x100 + 0x20 * (i % 64) + 0x1c)
def qmCtrl : Nat := regKey (400) (0x10)
def qmStatus : Nat := regKey (400) (0x14)
def qmIntStatus : Nat := regKey (400) (0x20)
def qmCeCnt : Nat := regKey (400) (0x100)
def qmUeCnt : Nat := regKey (400) (0x104)
def qmEventLostCnt : Nat := regKey (400) (0x108)
def qmFlushCnt : Nat := regKey (400) (0x10c)
def qmDiscardCnt : Nat := regKey (400) (0x110)
def qmPortRx (p : Nat) : Nat := regKey (400) (0x300 + 4 * p)
def qmShelfCfg (k : Nat) : Nat := regKey (400) (0x400 + 16 * k)
def qmShelfSize (k : Nat) : Nat := regKey (400) (0x404 + 16 * k)
def qmShelfBase (k : Nat) : Nat := regKey (400) (0x408 + 16 * k)
def qmVsmap (s v : Nat) : Nat := regKey (400) (0x600 + 128 * s + 8 * v)
def qmAsmCfg (j : Nat) : Nat := regKey (400) (0x800 + 32 * j)
def qmAsmDeadline (j : Nat) : Nat := regKey (400) (0x804 + 32 * j)
def qmAsmRec (j : Nat) : Nat := regKey (400) (0x808 + 32 * j)
def qmAsmState (j : Nat) : Nat := regKey (400) (0x810 + 32 * j)
def qmAsmBatchCnt (j : Nat) : Nat := regKey (400) (0x814 + 32 * j)
def qmAsmOverrunCnt (j : Nat) : Nat := regKey (400) (0x818 + 32 * j)
def qselQcfg (q : Nat) : Nat := regKey (0x2000 + q) (0x200)
def qselQring (q : Nat) : Nat := regKey (0x2000 + q) (0x204)
def qselQptr (q : Nat) : Nat := regKey (0x2000 + q) (0x208)
def qselQcut (q : Nat) : Nat := regKey (0x2000 + q) (0x20c)
def qselQreplay (q : Nat) : Nat := regKey (0x2000 + q) (0x210)
def qselQreplayUsed (q : Nat) : Nat := regKey (0x2000 + q) (0x214)
def qselQdropCnt (q : Nat) : Nat := regKey (0x2000 + q) (0x218)
def stgSeqCtrl (s : Nat) : Nat := regKey (408 + s) (0x100)
def stgSeqStatus (s : Nat) : Nat := regKey (408 + s) (0x104)
def stgSeqPc (s : Nat) : Nat := regKey (408 + s) (0x108)
def stgSeqFault (s : Nat) : Nat := regKey (408 + s) (0x10c)
def stgXtimeout (s : Nat) : Nat := regKey (408 + s) (0x110)
def stgXferCnt (s : Nat) : Nat := regKey (408 + s) (0x114)
def stgLateReplyCnt (s : Nat) : Nat := regKey (408 + s) (0x118)
def stgXslot (s k : Nat) : Nat := regKey (408 + s) (0x200 + 4 * k)
def stgGreg (s n : Nat) : Nat := regKey (408 + s) (0x300 + 8 * n)
def stgIntStatus (s : Nat) : Nat := regKey (408 + s) (0x20)
def lnkCtrl (p : Nat) : Nat := regKey (448 + p) (0x10)
def lnkStatus (p : Nat) : Nat := regKey (448 + p) (0x14)
def lnkIntStatus (p : Nat) : Nat := regKey (448 + p) (0x20)
def lnkPortCfg (p : Nat) : Nat := regKey (448 + p) (0x100)
def lnkLaneThresh (p : Nat) : Nat := regKey (448 + p) (0x104)
def lnkPeerKey (p : Nat) : Nat := regKey (448 + p) (0x108)
def lnkRetryCnt (p : Nat) : Nat := regKey (448 + p) (0x110)
def lnkRetrainCnt (p : Nat) : Nat := regKey (448 + p) (0x114)
def lnkCrcErrCnt (p : Nat) : Nat := regKey (448 + p) (0x118)
def lnkCreditViolCnt (p : Nat) : Nat := regKey (448 + p) (0x11c)
def lnkPktDropCnt (p : Nat) : Nat := regKey (448 + p) (0x120)
def lnkFecCorr (p l : Nat) : Nat := regKey (448 + p) (0x140 + 8 * l)
def lnkFecUcw (p l : Nat) : Nat := regKey (448 + p) (0x144 + 8 * l)
def lnkCredit (p : Nat) : Nat := regKey (448 + p) (0x180)
def cartCStatus (port : Nat) : Nat := regKey (480 + port / 4) (0x100 + 0x40 * (port % 4) + 0x0)
def cartCMatings (port : Nat) : Nat := regKey (480 + port / 4) (0x100 + 0x40 * (port % 4) + 0x4)
def cartCLaserH (port : Nat) : Nat := regKey (480 + port / 4) (0x100 + 0x40 * (port % 4) + 0x8)
def cartCSerial (port i : Nat) : Nat := regKey (480 + port / 4) (0x100 + 0x40 * (port % 4) + 0x10 + 4 * i)
def cartCVendor (port i : Nat) : Nat := regKey (480 + port / 4) (0x100 + 0x40 * (port % 4) + 0x20 + 4 * i)
def cartCBusErrCnt (port : Nat) : Nat := regKey (480 + port / 4) (0x100 + 0x40 * (port % 4) + 0x30)
def cartIntStatus (b : Nat) : Nat := regKey (480 + b) (0x20)
def fabCtrl : Nat := regKey (496) (0x10)
def fabStatus : Nat := regKey (496) (0x14)
def fabIntStatus : Nat := regKey (496) (0x20)
def fabChipId : Nat := regKey (496) (0x100)
def fabEpochCfg : Nat := regKey (496) (0x104)
def fabSwapEpoch : Nat := regKey (496) (0x108)
def fabTime : Nat := regKey (496) (0x110)
def fabEpoch : Nat := regKey (496) (0x118)
def fabTimeCfg : Nat := regKey (496) (0x120)
def fabTimeAlt : Nat := regKey (496) (0x124)
def fabSyncPeriod : Nat := regKey (496) (0x128)
def fabTimeOffset : Nat := regKey (496) (0x12c)
def fabTimeRate : Nat := regKey (496) (0x130)
def fabReqTimeout : Nat := regKey (496) (0x140)
def fabTagState : Nat := regKey (496) (0x144)
def fabMgmtSlice : Nat := regKey (496) (0x148)
def fabTblSel : Nat := regKey (496) (0x200)
def fabTblData : Nat := regKey (496) (0x204)
def fabNbrSel : Nat := regKey (496) (0x300)
def fabNbrData (w : Nat) : Nat := regKey (496) (0x340 + 4 * w)
def fabNoRouteCnt : Nat := regKey (496) (0x400)
def fabFwdDropCnt : Nat := regKey (496) (0x404)
def fabUnmappedCnt : Nat := regKey (496) (0x408)
def fabTimeoutCnt : Nat := regKey (496) (0x40c)
def fabLateCplCnt : Nat := regKey (496) (0x410)
def fabStrayCplCnt : Nat := regKey (496) (0x414)
def fabPreRcDropCnt : Nat := regKey (496) (0x418)
def fabSliceDropCnt (p : Nat) : Nat := regKey (496) (0x480 + 4 * p)
def colReqQ (h : Nat) : Nat := regKey (416 + h) (0x100)
def colColStatus (h : Nat) : Nat := regKey (416 + h) (0x104)
def colColSeq (h : Nat) : Nat := regKey (416 + h) (0x108)
def colColDoneCnt (h : Nat) : Nat := regKey (416 + h) (0x110)
def colColFailCnt (h : Nat) : Nat := regKey (416 + h) (0x114)
def colIntStatus (h : Nat) : Nat := regKey (416 + h) (0x20)
def ctxIntStatus : Nat := regKey (497) (0x20)
def ctxCtxSel : Nat := regKey (497) (0x100)
def ctxCmd : Nat := regKey (497) (0x104)
def ctxWdSel : Nat := regKey (497) (0x300)
def ctxIdleEnergy : Nat := regKey (497) (0x320)
def ctxselCState (x : Nat) : Nat := regKey (0x1000 + x) (0x108)
def ctxselCCfg (x : Nat) : Nat := regKey (0x1000 + x) (0x10c)
def ctxselCCause (x : Nat) : Nat := regKey (0x1000 + x) (0x110)
def ctxselCProgBase (x : Nat) : Nat := regKey (0x1000 + x) (0x118)
def ctxselCProgSize (x : Nat) : Nat := regKey (0x1000 + x) (0x120)
def ctxselCSpill (x : Nat) : Nat := regKey (0x1000 + x) (0x128)
def ctxselCGranules (x i : Nat) : Nat := regKey (0x1000 + x) (0x140 + 4 * i)
def ctxselAcc (x n : Nat) : Nat := regKey (0x1000 + x) (0x200 + 8 * n)
def wdselWdCount (u : Nat) : Nat := regKey (0x1600 + u) (0x308)
def wdselWdLimit (u : Nat) : Nat := regKey (0x1600 + u) (0x310)
def mgtRecState : Nat := regKey (170) (0x400)
def mgtRecCause : Nat := regKey (170) (0x404)
def mgtRecCmd : Nat := regKey (170) (0x408)
def mgtReclaimChip : Nat := regKey (170) (0x40c)
def mgtGrantLife : Nat := regKey (170) (0x410)
def mgtCkptHoldoff : Nat := regKey (170) (0x414)
def mgtFlogHead : Nat := regKey (170) (0x418)
def mgtFlogSel : Nat := regKey (170) (0x41c)
def mgtFlogData (w : Nat) : Nat := regKey (170) (0x440 + 4 * w)
def mgtReclaimCnt : Nat := regKey (170) (0x480)
def mgtStartStatus : Nat := regKey (170) (0x300)
def mgtResetCause : Nat := regKey (170) (0x304)
def mgtResetCmd : Nat := regKey (170) (0x308)
def mgtStartSummary : Nat := regKey (170) (0x30c)
def mgtStartTime : Nat := regKey (170) (0x310)
def mgtPhaseEnd (k : Nat) : Nat := regKey (170) (0x320 + 4 * k)
def mgtIntStatus : Nat := regKey (170) (0x20)
def mgtIntPages (w : Nat) : Nat := regKey (170) (0x500 + 4 * w)
def halfCkptReqQ (h : Nat) : Nat := regKey (168 + h) (0x400)
def halfCkptArm (h : Nat) : Nat := regKey (168 + h) (0x408)
def halfCkptStatus (h : Nat) : Nat := regKey (168 + h) (0x410)
def halfCkptId (h : Nat) : Nat := regKey (168 + h) (0x418)
def halfCkptDoneCnt (h : Nat) : Nat := regKey (168 + h) (0x420)
def halfCkptFailCnt (h : Nat) : Nat := regKey (168 + h) (0x424)
def halfNoticeDropCnt (h : Nat) : Nat := regKey (168 + h) (0x428)
def halfIntStatus (h : Nat) : Nat := regKey (168 + h) (0x20)
def clkCclkStatus : Nat := regKey (499) (0x100)
def clkCclkMax : Nat := regKey (499) (0x104)
def clkPllStatus : Nat := regKey (499) (0x108)
def clkStepChgCnt : Nat := regKey (499) (0x110)
def clkTimeAtStep (k : Nat) : Nat := regKey (499) (0x140 + 8 * k)
def clkIntStatus : Nat := regKey (499) (0x20)
def pwrIntStatus : Nat := regKey (498) (0x20)
def pwrPSust : Nat := regKey (498) (0x100)
def pwrPkgPower : Nat := regKey (498) (0x104)
def pwrPkgPower1ms : Nat := regKey (498) (0x108)
def pwrExc : Nat := regKey (498) (0x10c)
def pwrPeakStepCnt : Nat := regKey (498) (0x110)
def pwrDomainEn : Nat := regKey (498) (0x120)
def pwrDomainState : Nat := regKey (498) (0x128)
def pwrThrottleTemp : Nat := regKey (498) (0x140)
def pwrTempMax : Nat := regKey (498) (0x144)
def pwrSupplyStatus : Nat := regKey (498) (0x148)
def pwrTemp (d : Nat) : Nat := regKey (498) (0x180 + 4 * d)
def pwrVmaxUsed : Nat := regKey (498) (0x250)
def pwrVmaxBudget : Nat := regKey (498) (0x254)
def pwrRoSel : Nat := regKey (498) (0x260)
def pwrRoData : Nat := regKey (498) (0x264)
def pwrDomainEnergy (d : Nat) : Nat := regKey (498) (0x400 + 8 * d)
def obsCtrl : Nat := regKey (500) (0x10)
def obsStatus : Nat := regKey (500) (0x14)
def obsIntStatus : Nat := regKey (500) (0x20)
def obsFreezeAt : Nat := regKey (500) (0x100)
def obsFreezeScope : Nat := regKey (500) (0x108)
def obsSampleCfg : Nat := regKey (500) (0x110)
def obsSampleOvfCnt : Nat := regKey (500) (0x114)
def obsSbufBase : Nat := regKey (500) (0x118)
def obsSbufSize : Nat := regKey (500) (0x120)
def obsSbufWr : Nat := regKey (500) (0x128)
def obsGsel (i : Nat) : Nat := regKey (500) (0x140 + 4 * i)
def obsGcnt (i : Nat) : Nat := regKey (500) (0x180 + 8 * i)
def obsGfrz (i : Nat) : Nat := regKey (500) (0x200 + 8 * i)
def obsCtxSel : Nat := regKey (500) (0x300)
def obsLtime : Nat := regKey (500) (0x340)
def obsDumpCall : Nat := regKey (500) (0x400)
def obsDumpAcc : Nat := regKey (500) (0x408)
def obsDumpCfg : Nat := regKey (500) (0x40c)
def obsDumpBuf : Nat := regKey (500) (0x410)
def obsDumpSize : Nat := regKey (500) (0x418)
def obsDumpStatus : Nat := regKey (500) (0x420)
def obsSnapUnit : Nat := regKey (500) (0x500)
def obsSnapMissCnt : Nat := regKey (500) (0x504)
def obsselCProf (x : Nat) : Nat := regKey (0x1200 + x) (0x308)
def obsselCBufBase (x : Nat) : Nat := regKey (0x1200 + x) (0x310)
def obsselCBufSize (x : Nat) : Nat := regKey (0x1200 + x) (0x318)
def obsselCBufWr (x : Nat) : Nat := regKey (0x1200 + x) (0x320)
def ledgCtrl : Nat := regKey (501) (0x10)
def ledgStatus : Nat := regKey (501) (0x14)
def ledgGen : Nat := regKey (501) (0x100)
def ledgWriteErrCnt : Nat := regKey (501) (0x108)
def ledgWinSel : Nat := regKey (501) (0x110)
def ledgWinData (w : Nat) : Nat := regKey (501) (0x140 + 4 * w)
def ledgIntStatus : Nat := regKey (501) (0x20)
def trustLifecycle : Nat := regKey (502) (0x100)
def trustAccess : Nat := regKey (502) (0x104)
def trustSvn : Nat := regKey (502) (0x108)
def trustSerial : Nat := regKey (502) (0x110)
def trustDbgNonce (w : Nat) : Nat := regKey (502) (0x120 + 4 * w)
def trustDbgLock : Nat := regKey (502) (0x140)
def trustDbgToken : Nat := regKey (502) (0x144)
def trustCtxSel : Nat := regKey (502) (0x200)
def trustMreg (i w : Nat) : Nat := regKey (502) (0x400 + 48 * i + 4 * w)
def trustSysKey (j w : Nat) : Nat := regKey (502) (0x580 + 96 * j + 4 * w)
def trustSysKeyEn : Nat := regKey (502) (0x640)
def trustOprKey (w : Nat) : Nat := regKey (502) (0x650 + 4 * w)
def trustSliceSel : Nat := regKey (502) (0x680)
def trustPrivDeniedCnt : Nat := regKey (502) (0x700)
def trustAuthFailCnt : Nat := regKey (502) (0x704)
def trustNoKeyCnt : Nat := regKey (502) (0x708)
def trustIntStatus : Nat := regKey (502) (0x20)
def trustselCSigpol (x : Nat) : Nat := regKey (0x1400 + x) (0x204)
def trustselCMeas (x w : Nat) : Nat := regKey (0x1400 + x) (0x210 + 4 * w)
def trustselCKey (x k w : Nat) : Nat := regKey (0x1400 + x) (0x240 + 96 * k + 4 * w)
def sliceselSliceState (x : Nat) : Nat := regKey (0x4000 + x) (0x684)
def sliceselSliceGen (x s : Nat) : Nat := regKey (0x4000 + x) (0x688 + 4 * s)
def sliceselSliceArmEpoch (x : Nat) : Nat := regKey (0x4000 + x) (0x690)
def hostStatus : Nat := regKey (503) (0x14)
def hostIntStatus : Nat := regKey (503) (0x20)
def hostDoorbell : Nat := regKey (503) (0x100)
def hostCplTimeoutCnt : Nat := regKey (503) (0x104)
def hostLateCplCnt : Nat := regKey (503) (0x108)
def hostPoisonRxCnt : Nat := regKey (503) (0x10c)
def hostPoisonTxCnt : Nat := regKey (503) (0x110)
def hostUrCnt : Nat := regKey (503) (0x114)
def hostCrossingCnt : Nat := regKey (503) (0x118)
def hostTagState : Nat := regKey (503) (0x120)
def hostIntVec : Nat := regKey (503) (0x130)
def hostQstopStatus : Nat := regKey (503) (0x140)
def hostQstopCtrl : Nat := regKey (503) (0x144)
def hostQstopDiscCnt : Nat := regKey (503) (0x148)
def hostQstopFaultCnt : Nat := regKey (503) (0x14c)
def hostRingCfg (r : Nat) : Nat := regKey (503) (0x400 + 32 * r)
def hostRingBase (r : Nat) : Nat := regKey (503) (0x408 + 32 * r)
def hostRingIdx (r : Nat) : Nat := regKey (503) (0x410 + 32 * r)
def hostRingIrq (r : Nat) : Nat := regKey (503) (0x418 + 32 * r)
def hostRingState (r : Nat) : Nat := regKey (503) (0x41c + 32 * r)
def hdrId (pg : Nat) : Nat := regKey pg 0x0
def hdrVersion (pg : Nat) : Nat := regKey pg 0x4
def hdrCap (pg : Nat) : Nat := regKey pg 0x8
def hdrCtrl (pg : Nat) : Nat := regKey pg 0x10
def hdrStatus (pg : Nat) : Nat := regKey pg 0x14
def hdrIntStatus (pg : Nat) : Nat := regKey pg 0x20
def hdrIntEnable (pg : Nat) : Nat := regKey pg 0x24
def hdrIntForce (pg : Nat) : Nat := regKey pg 0x28
def hdrErrLog0 (pg : Nat) : Nat := regKey pg 0x30
def hdrErrLog1 (pg : Nat) : Nat := regKey pg 0x34
def hdrErrLog2 (pg : Nat) : Nat := regKey pg 0x38
def hdrLock (pg : Nat) : Nat := regKey pg 0x40

end R

/-- One row of a register table: name, byte offset, replication (two counts with strides), whether it
is 64 bits wide, and the bits of each access code of R11. -/
structure RegRow where
  name : String
  off : Nat
  n1 : Nat := 1
  s1 : Nat := 4
  n2 : Nat := 1
  s2 : Nat := 4
  wide : Bool := false
  rw : Nat := 0
  ro : Nat := 0
  w1c : Nat := 0
  w1s : Nat := 0
  wo : Nat := 0
  rwl : Nat := 0
  reset : Nat := 0
  deriving DecidableEq, Repr

def rowsUd : List RegRow := [
  { name := "UD_SHAPE", off := 0x100, ro := 0xff07ff },
  { name := "UD_STATE", off := 0x108, ro := 0x81ff0007, reset := 0x3 },
  { name := "UD_QSET", off := 0x110, ro := 0xff },
  { name := "UD_WIN_BASE", off := 0x200, n1 := 16, s1 := 16, wide := true, rw := 0x3fffff001 },
  { name := "UD_WIN_SIZE", off := 0x208, n1 := 16, s1 := 16, wide := true, rw := 0x7fffff000 }]

def rowsCore : List RegRow := [
  { name := "NUM_STATUS", off := 0x500, ro := 0x7f },
  { name := "NUM_UFLOW_CNT", off := 0x504, ro := 0xffffffff },
  { name := "NUM_SAT_CNT", off := 0x508, ro := 0xffffffff },
  { name := "NUM_NAN_CNT", off := 0x50c, ro := 0xffffffff },
  { name := "ARR_COLMAP", off := 0x600, n1 := 4, s1 := 4, ro := 0x7f7f, reset := 0x7f7f },
  { name := "ARR_STATE", off := 0x610, ro := 0xffff },
  { name := "PARK_STATUS", off := 0x700, ro := 0x1ff },
  { name := "PARK_PC", off := 0x704, ro := 0xffffffff },
  { name := "PARK_LINK", off := 0x708, ro := 0xffffffff },
  { name := "PARK_LOOPS", off := 0x70c, ro := 0x7 },
  { name := "PARK_LCNT", off := 0x710, n1 := 4, s1 := 4, ro := 0x1ffff },
  { name := "PARK_ISEQ", off := 0x740, n1 := 4, s1 := 32, ro := 0xffffffff },
  { name := "PARK_TILE", off := 0x744, n1 := 4, s1 := 32, ro := 0xffffffff },
  { name := "PARK_LIDX", off := 0x748, n1 := 4, s1 := 32, n2 := 3, s2 := 4, ro := 0xffffffff },
  { name := "PARK_PEND", off := 0x754, n1 := 4, s1 := 32, ro := 0xffff },
  { name := "PARK_ESTATE", off := 0x758, n1 := 4, s1 := 32, ro := 0x7 },
  { name := "PARK_SREG", off := 0x800, n1 := 32, s1 := 8, wide := true, ro := 0xffffffffffffffff },
  { name := "SEQ_STATUS", off := 0x300, ro := 0x7fff, reset := 0x7f00 },
  { name := "SEQ_PC", off := 0x304, ro := 0xffffffff },
  { name := "QUEUE_LEVEL", off := 0x308, ro := 0x7fffff },
  { name := "HEAD_WAIT", off := 0x30c, ro := 0xffffffff, reset := 0xfffffff0 },
  { name := "WAIT_CFG", off := 0x310, ro := 0x1f },
  { name := "DBG_BUNDLE_LIMIT", off := 0x320, wide := true, rw := 0xffffffffffffffff },
  { name := "DBG_BUNDLE_COUNT", off := 0x328, wide := true, ro := 0xffffffffffffffff },
  { name := "SREG_COLLIDE_CNT", off := 0x330, ro := 0xffffffff },
  { name := "FLAG", off := 0x400, n1 := 32, s1 := 4, ro := 0xffffffff },
  { name := "AG_SEL", off := 0x900, rw := 0x1f },
  { name := "AG_STATUS", off := 0x904, ro := 0x1 },
  { name := "AG_VIEW", off := 0x940, n1 := 8, s1 := 8, wide := true, ro := 0xffffffffffffffff },
  { name := "PMC_SEL", off := 0xa00, n1 := 8, s1 := 8, wide := true, rw := 0x8000ffffffffffff },
  { name := "PMC", off := 0xa40, n1 := 8, s1 := 8, wide := true, rw := 0xffffffffffffffff },
  { name := "CYCLES", off := 0xa80, wide := true, rw := 0xffffffffffffffff },
  { name := "BUNDLES", off := 0xa88, wide := true, rw := 0xffffffffffffffff },
  { name := "ARR_STALL", off := 0xa90, n1 := 4, s1 := 8, wide := true, rw := 0xffffffffffffffff },
  { name := "FRZ", off := 0xac0, n1 := 14, s1 := 8, wide := true, ro := 0xffffffffffffffff },
  { name := "CPMC", off := 0xb40, n1 := 4, s1 := 8, wide := true, ro := 0xffffffffffffffff }]

def rowsPod : List RegRow := [
  { name := "SLOT_MAP", off := 0x300, ro := 0xffff, reset := 0x4688 },
  { name := "FLAG", off := 0x340, n1 := 16, s1 := 4, ro := 0xffffffff }]

def rowsSpad : List RegRow := [
  { name := "INT_STATUS", off := 0x20, w1c := 0x3 },
  { name := "CONFLICT_CNT", off := 0x100, n1 := 16, s1 := 4, ro := 0xffffffff },
  { name := "PORT_WAIT", off := 0x140, n1 := 2, s1 := 4, ro := 0xffffffff },
  { name := "ECC_CE_CNT", off := 0x180, ro := 0xffffffff },
  { name := "ECC_UE_CNT", off := 0x184, ro := 0xffffffff },
  { name := "ECC_LAST", off := 0x188, ro := 0x3ffff },
  { name := "DBG_ADDR", off := 0x1c0, rw := 0x7fff8 },
  { name := "DBG_STATUS", off := 0x1c4, ro := 0x7 },
  { name := "DBG_DATA", off := 0x1c8, wide := true, ro := 0xffffffffffffffff }]

def rowsSmem : List RegRow := [
  { name := "INT_STATUS", off := 0x20, w1c := 0x1f },
  { name := "CE_CNT", off := 0x100, ro := 0xffffffff },
  { name := "UE_CNT", off := 0x104, ro := 0xffffffff },
  { name := "RECON_CNT", off := 0x108, ro := 0xffffffff },
  { name := "SCRUB_PASS_CNT", off := 0x10c, ro := 0xffffffff },
  { name := "ERR_LAST", off := 0x110, ro := 0x1ffffff },
  { name := "SPARE_BANK", off := 0x120, n1 := 2, s1 := 4, ro := 0x7ff, reset := 0x1ff },
  { name := "SPARE_ROW_MIN", off := 0x128, ro := 0xffff, reset := 0x40 },
  { name := "REBUILD", off := 0x130, ro := 0xffffff }]

def rowsSmemc : List RegRow := [
  { name := "STATUS", off := 0x14, w1c := 0x3 },
  { name := "SCRUB_CFG", off := 0x100, rw := 0xff01, reset := 0xa01 },
  { name := "UNWINDOWED_CNT", off := 0x104, ro := 0xffffffff },
  { name := "GRANULE", off := 0x800, n1 := 512, s1 := 4, rw := 0xfff, ro := 0x1000 }]

def rowsPool : List RegRow := [
  { name := "POOL_CFG", off := 0x100, n1 := 64, s1 := 32, rw := 0xfff7fff, reset := 0x18 },
  { name := "POOL_SLOTS", off := 0x104, n1 := 64, s1 := 32, rw := 0x1fff, reset := 0x1 },
  { name := "POOL_BASE", off := 0x108, n1 := 64, s1 := 32, wide := true, rw := 0x3fffff000 },
  { name := "POOL_STATE", off := 0x110, n1 := 64, s1 := 32, ro := 0xffffffff },
  { name := "POOL_WAIT", off := 0x114, n1 := 64, s1 := 32, ro := 0x7f },
  { name := "POOL_REJECT_CNT", off := 0x118, n1 := 64, s1 := 32, ro := 0xffffffff },
  { name := "POOL_BUSY_CNT", off := 0x11c, n1 := 64, s1 := 32, ro := 0xffffffff }]

def rowsQm : List RegRow := [
  { name := "CTRL", off := 0x10, rw := 0xfff, wo := 0x1000 },
  { name := "STATUS", off := 0x14, ro := 0x6, w1c := 0x1 },
  { name := "INT_STATUS", off := 0x20, w1c := 0xf },
  { name := "CE_CNT", off := 0x100, ro := 0xffffffff },
  { name := "UE_CNT", off := 0x104, ro := 0xffffffff },
  { name := "EVENT_LOST_CNT", off := 0x108, ro := 0xffffffff },
  { name := "FLUSH_CNT", off := 0x10c, ro := 0xffffffff },
  { name := "DISCARD_CNT", off := 0x110, ro := 0xffffffff },
  { name := "PORT_RX", off := 0x300, n1 := 32, s1 := 4, rw := 0x7, ro := 0x1ff8 },
  { name := "SHELF_CFG", off := 0x400, n1 := 32, s1 := 16, rw := 0x1ffff, reset := 0x2 },
  { name := "SHELF_SIZE", off := 0x404, n1 := 32, s1 := 16, rw := 0x7fffff, ro := 0x3f800000, reset := 0x1 },
  { name := "SHELF_BASE", off := 0x408, n1 := 32, s1 := 16, wide := true, rw := 0x3fffff000 },
  { name := "VSMAP", off := 0x600, n1 := 4, s1 := 128, n2 := 16, s2 := 8, wide := true, rw := 0x3fffffffffffff, reset := 0xffffffffffff },
  { name := "ASM_CFG", off := 0x800, n1 := 16, s1 := 32, rw := 0x7ffffff, reset := 0x7fffffe },
  { name := "ASM_DEADLINE", off := 0x804, n1 := 16, s1 := 32, rw := 0xffffff, reset := 0x320 },
  { name := "ASM_REC", off := 0x808, n1 := 16, s1 := 32, wide := true, rw := 0x3ffff0000 },
  { name := "ASM_STATE", off := 0x810, n1 := 16, s1 := 32, ro := 0xfffff },
  { name := "ASM_BATCH_CNT", off := 0x814, n1 := 16, s1 := 32, ro := 0xffffffff },
  { name := "ASM_OVERRUN_CNT", off := 0x818, n1 := 16, s1 := 32, ro := 0xffffffff }]

def rowsQsel : List RegRow := [
  { name := "QCFG", off := 0x200, rw := 0x7fff },
  { name := "QRING", off := 0x204, rw := 0xfffff, reset := 0x40000 },
  { name := "QPTR", off := 0x208, ro := 0x1fff1fff },
  { name := "QCUT", off := 0x20c, rw := 0xffff },
  { name := "QREPLAY", off := 0x210, rw := 0x7ffff, reset := 0x7ff80 },
  { name := "QREPLAY_USED", off := 0x214, ro := 0x7f },
  { name := "QDROP_CNT", off := 0x218, ro := 0xffffffff }]

def rowsStg : List RegRow := [
  { name := "SEQ_CTRL", off := 0x100, rw := 0x1 },
  { name := "SEQ_STATUS", off := 0x104, ro := 0x1fff },
  { name := "SEQ_PC", off := 0x108, ro := 0x3fff },
  { name := "SEQ_FAULT", off := 0x10c, ro := 0x3ffff },
  { name := "XTIMEOUT", off := 0x110, rw := 0xffffff, reset := 0xc3500 },
  { name := "XFER_CNT", off := 0x114, ro := 0xffffffff },
  { name := "LATE_REPLY_CNT", off := 0x118, ro := 0xffffffff },
  { name := "XSLOT", off := 0x200, n1 := 16, s1 := 4, ro := 0x1ffffff },
  { name := "GREG", off := 0x300, n1 := 16, s1 := 8, wide := true, ro := 0xffffffffffffffff },
  { name := "INT_STATUS", off := 0x20, w1c := 0x3 }]

def rowsLnk : List RegRow := [
  { name := "CTRL", off := 0x10, wo := 0x3 },
  { name := "STATUS", off := 0x14, ro := 0x1fff },
  { name := "INT_STATUS", off := 0x20, w1c := 0xf },
  { name := "PORT_CFG", off := 0x100, rwl := 0x3fff, reset := 0xfc0 },
  { name := "LANE_THRESH", off := 0x104, rw := 0xffffff, reset := 0x108000 },
  { name := "PEER_KEY", off := 0x108, wide := true, ro := 0xffffffffffffffff },
  { name := "RETRY_CNT", off := 0x110, ro := 0xffffffff },
  { name := "RETRAIN_CNT", off := 0x114, ro := 0xffffffff },
  { name := "CRC_ERR_CNT", off := 0x118, ro := 0xffffffff },
  { name := "CREDIT_VIOL_CNT", off := 0x11c, ro := 0xffffffff },
  { name := "PKT_DROP_CNT", off := 0x120, ro := 0xffffffff },
  { name := "FEC_CORR", off := 0x140, n1 := 5, s1 := 8, ro := 0xffffffff },
  { name := "FEC_UCW", off := 0x144, n1 := 5, s1 := 8, ro := 0xffffffff },
  { name := "CREDIT", off := 0x180, ro := 0xffffff }]

def rowsCart : List RegRow := [
  { name := "C_STATUS", off := 0x100, n1 := 4, s1 := 64, ro := 0x3ff003f },
  { name := "C_MATINGS", off := 0x104, n1 := 4, s1 := 64, ro := 0xffffffff },
  { name := "C_LASER_H", off := 0x108, n1 := 4, s1 := 64, ro := 0xffffffff },
  { name := "C_SERIAL", off := 0x110, n1 := 4, s1 := 64, n2 := 4, s2 := 4, ro := 0xffffffff },
  { name := "C_VENDOR", off := 0x120, n1 := 4, s1 := 64, n2 := 4, s2 := 4, ro := 0xffffffff },
  { name := "C_BUS_ERR_CNT", off := 0x130, n1 := 4, s1 := 64, ro := 0xffffffff },
  { name := "INT_STATUS", off := 0x20, w1c := 0xff }]

def rowsFab : List RegRow := [
  { name := "CTRL", off := 0x10, rw := 0x3, w1s := 0x4, wo := 0x8 },
  { name := "STATUS", off := 0x14, ro := 0xf },
  { name := "INT_STATUS", off := 0x20, w1c := 0xf },
  { name := "CHIP_ID", off := 0x100, rw := 0xfffff },
  { name := "EPOCH_CFG", off := 0x104, rwl := 0x3f, reset := 0x18 },
  { name := "SWAP_EPOCH", off := 0x108, wide := true, rw := 0xffffffffffffffff },
  { name := "TIME", off := 0x110, wide := true, ro := 0xffffffffffffffff },
  { name := "EPOCH", off := 0x118, wide := true, ro := 0xffffffffffffffff },
  { name := "TIME_CFG", off := 0x120, rw := 0x1fffff1 },
  { name := "TIME_ALT", off := 0x124, rw := 0x1fffff },
  { name := "SYNC_PERIOD", off := 0x128, rw := 0xffff, reset := 0x3e8 },
  { name := "TIME_OFFSET", off := 0x12c, ro := 0xffffffff },
  { name := "TIME_RATE", off := 0x130, ro := 0xffffffff },
  { name := "REQ_TIMEOUT", off := 0x140, rw := 0xffff, reset := 0x1f4 },
  { name := "TAG_STATE", off := 0x144, ro := 0xffffffff },
  { name := "MGMT_SLICE", off := 0x148, rwl := 0xfff },
  { name := "TBL_SEL", off := 0x200, rw := 0x7fff },
  { name := "TBL_DATA", off := 0x204, wide := true, rw := 0xffffffffffffffff },
  { name := "NBR_SEL", off := 0x300, rw := 0x1f, ro := 0x20 },
  { name := "NBR_DATA", off := 0x340, n1 := 16, s1 := 4, ro := 0xffffffff },
  { name := "NO_ROUTE_CNT", off := 0x400, ro := 0xffffffff },
  { name := "FWD_DROP_CNT", off := 0x404, ro := 0xffffffff },
  { name := "UNMAPPED_CNT", off := 0x408, ro := 0xffffffff },
  { name := "TIMEOUT_CNT", off := 0x40c, ro := 0xffffffff },
  { name := "LATE_CPL_CNT", off := 0x410, ro := 0xffffffff },
  { name := "STRAY_CPL_CNT", off := 0x414, ro := 0xffffffff },
  { name := "PRE_RC_DROP_CNT", off := 0x418, ro := 0xffffffff },
  { name := "SLICE_DROP_CNT", off := 0x480, n1 := 32, s1 := 4, ro := 0xffffffff }]

def rowsCol : List RegRow := [
  { name := "REQ_Q", off := 0x100, rw := 0xfff, reset := 0xfff },
  { name := "COL_STATUS", off := 0x104, ro := 0xf },
  { name := "COL_SEQ", off := 0x108, wide := true, ro := 0xffffffffffffffff },
  { name := "COL_DONE_CNT", off := 0x110, ro := 0xffffffff },
  { name := "COL_FAIL_CNT", off := 0x114, ro := 0xffffffff },
  { name := "INT_STATUS", off := 0x20, w1c := 0x3 }]

def rowsCtx : List RegRow := [
  { name := "INT_STATUS", off := 0x20, w1c := 0x7 },
  { name := "CTX_SEL", off := 0x100, rw := 0x1ff },
  { name := "CMD", off := 0x104, wo := 0x7 },
  { name := "WD_SEL", off := 0x300, rw := 0xff },
  { name := "IDLE_ENERGY", off := 0x320, wide := true, ro := 0xffffffffffffffff }]

def rowsCtxsel : List RegRow := [
  { name := "C_STATE", off := 0x108, ro := 0x7ff },
  { name := "C_CFG", off := 0x10c, rw := 0x3fff, reset := 0x3000 },
  { name := "C_CAUSE", off := 0x110, ro := 0x1ffff },
  { name := "C_PROG_BASE", off := 0x118, wide := true, rw := 0x3fffff000 },
  { name := "C_PROG_SIZE", off := 0x120, wide := true, rw := 0x7fffff000 },
  { name := "C_SPILL", off := 0x128, wide := true, rw := 0xfffffffffffff000 },
  { name := "C_GRANULES", off := 0x140, n1 := 16, s1 := 4, ro := 0xffffffff },
  { name := "ACC", off := 0x200, n1 := 11, s1 := 8, wide := true, ro := 0xffffffffffffffff }]

def rowsWdsel : List RegRow := [
  { name := "WD_COUNT", off := 0x308, wide := true, ro := 0xffffffffffffffff },
  { name := "WD_LIMIT", off := 0x310, wide := true, ro := 0xffffffffffffffff }]

def rowsMgt : List RegRow := [
  { name := "REC_STATE", off := 0x400, ro := 0x3ff, w1c := 0x400 },
  { name := "REC_CAUSE", off := 0x404, ro := 0xffff },
  { name := "REC_CMD", off := 0x408, wo := 0x3 },
  { name := "RECLAIM_CHIP", off := 0x40c, rw := 0xfffff },
  { name := "GRANT_LIFE", off := 0x410, rw := 0xffff, reset := 0x64 },
  { name := "CKPT_HOLDOFF", off := 0x414, rw := 0xffff, reset := 0x258 },
  { name := "FLOG_HEAD", off := 0x418, ro := 0xffffffff },
  { name := "FLOG_SEL", off := 0x41c, rw := 0xffffffff },
  { name := "FLOG_DATA", off := 0x440, n1 := 16, s1 := 4, ro := 0xffffffff },
  { name := "RECLAIM_CNT", off := 0x480, ro := 0xffffffff },
  { name := "START_STATUS", off := 0x300, ro := 0x1f },
  { name := "RESET_CAUSE", off := 0x304, ro := 0xf },
  { name := "RESET_CMD", off := 0x308, wo := 0xffff0003 },
  { name := "START_SUMMARY", off := 0x30c, ro := 0x3fffffff },
  { name := "START_TIME", off := 0x310, ro := 0xffffffff },
  { name := "PHASE_END", off := 0x320, n1 := 6, s1 := 4, ro := 0xffffffff },
  { name := "INT_STATUS", off := 0x20, w1c := 0xf },
  { name := "INT_PAGES", off := 0x500, n1 := 128, s1 := 4, ro := 0xffffffff }]

def rowsHalf : List RegRow := [
  { name := "CKPT_REQ_Q", off := 0x400, rw := 0xfff, reset := 0xfff },
  { name := "CKPT_ARM", off := 0x408, wide := true, rw := 0x3ffffffc1 },
  { name := "CKPT_STATUS", off := 0x410, ro := 0x7 },
  { name := "CKPT_ID", off := 0x418, wide := true, ro := 0xffffffffffffffff },
  { name := "CKPT_DONE_CNT", off := 0x420, ro := 0xffffffff },
  { name := "CKPT_FAIL_CNT", off := 0x424, ro := 0xffffffff },
  { name := "NOTICE_DROP_CNT", off := 0x428, ro := 0xffffffff },
  { name := "INT_STATUS", off := 0x20, w1c := 0x3 }]

def rowsClk : List RegRow := [
  { name := "CCLK_STATUS", off := 0x100, ro := 0x3f7f, reset := 0x24 },
  { name := "CCLK_MAX", off := 0x104, rw := 0x7 },
  { name := "PLL_STATUS", off := 0x108, ro := 0x7, reset := 0x2 },
  { name := "STEP_CHG_CNT", off := 0x110, ro := 0xffffffff },
  { name := "TIME_AT_STEP", off := 0x140, n1 := 5, s1 := 8, wide := true, ro := 0xffffffffffffffff },
  { name := "INT_STATUS", off := 0x20, w1c := 0x3 }]

def rowsPwr : List RegRow := [
  { name := "INT_STATUS", off := 0x20, w1c := 0xff },
  { name := "P_SUST", off := 0x100, rw := 0x7ff, reset := 0x640 },
  { name := "PKG_POWER", off := 0x104, ro := 0xffff },
  { name := "PKG_POWER_1MS", off := 0x108, ro := 0xffff },
  { name := "EXC", off := 0x10c, ro := 0xffff },
  { name := "PEAK_STEP_CNT", off := 0x110, ro := 0xffffffff },
  { name := "DOMAIN_EN", off := 0x120, wide := true, rw := 0xffffffffffff },
  { name := "DOMAIN_STATE", off := 0x128, wide := true, ro := 0xffffffffffff, reset := 0x800000000000 },
  { name := "THROTTLE_TEMP", off := 0x140, rwl := 0x7f, reset := 0x69 },
  { name := "TEMP_MAX", off := 0x144, ro := 0x3ffff },
  { name := "SUPPLY_STATUS", off := 0x148, ro := 0xfffff },
  { name := "TEMP", off := 0x180, n1 := 48, s1 := 4, ro := 0xfff },
  { name := "VMAX_USED", off := 0x250, ro := 0xffffffff },
  { name := "VMAX_BUDGET", off := 0x254, ro := 0xffffffff, reset := 0x2819a0 },
  { name := "RO_SEL", off := 0x260, rw := 0xff },
  { name := "RO_DATA", off := 0x264, ro := 0x3ffff },
  { name := "DOMAIN_ENERGY", off := 0x400, n1 := 48, s1 := 8, wide := true, ro := 0xffffffffffffffff }]

def rowsObs : List RegRow := [
  { name := "CTRL", off := 0x10, rw := 0xb, w1s := 0x4, wo := 0x10 },
  { name := "STATUS", off := 0x14, ro := 0x7 },
  { name := "INT_STATUS", off := 0x20, w1c := 0x1f },
  { name := "FREEZE_AT", off := 0x100, wide := true, rw := 0xffffffffffffffff },
  { name := "FREEZE_SCOPE", off := 0x108, rw := 0x3ff, reset := 0x200 },
  { name := "SAMPLE_CFG", off := 0x110, rw := 0xffff, reset := 0x3e8 },
  { name := "SAMPLE_OVF_CNT", off := 0x114, ro := 0xffffffff },
  { name := "SBUF_BASE", off := 0x118, wide := true, rw := 0x3fffff001 },
  { name := "SBUF_SIZE", off := 0x120, wide := true, rw := 0x3fffff000 },
  { name := "SBUF_WR", off := 0x128, ro := 0xffffffff },
  { name := "GSEL", off := 0x140, n1 := 16, s1 := 4, rw := 0x80000f3f },
  { name := "GCNT", off := 0x180, n1 := 16, s1 := 8, wide := true, rw := 0xffffffffffffffff },
  { name := "GFRZ", off := 0x200, n1 := 16, s1 := 8, wide := true, ro := 0xffffffffffffffff },
  { name := "CTX_SEL", off := 0x300, rw := 0x1ff },
  { name := "LTIME", off := 0x340, wide := true, ro := 0xffffffffffffffff },
  { name := "DUMP_CALL", off := 0x400, wide := true, rw := 0xffffffffffff },
  { name := "DUMP_ACC", off := 0x408, rw := 0xffffffff },
  { name := "DUMP_CFG", off := 0x40c, rw := 0xffff07ff, reset := 0x10000 },
  { name := "DUMP_BUF", off := 0x410, wide := true, rw := 0x3fffff000 },
  { name := "DUMP_SIZE", off := 0x418, wide := true, rw := 0x3fffff000 },
  { name := "DUMP_STATUS", off := 0x420, ro := 0x3 },
  { name := "SNAP_UNIT", off := 0x500, wo := 0xff },
  { name := "SNAP_MISS_CNT", off := 0x504, ro := 0xffffffff }]

def rowsObssel : List RegRow := [
  { name := "C_PROF", off := 0x308, wide := true, rw := 0x7fffffffff },
  { name := "C_BUF_BASE", off := 0x310, wide := true, rw := 0x3fffff001 },
  { name := "C_BUF_SIZE", off := 0x318, wide := true, rw := 0x3fffff000 },
  { name := "C_BUF_WR", off := 0x320, ro := 0xffffffff }]

def rowsLedg : List RegRow := [
  { name := "CTRL", off := 0x10, wo := 0x1 },
  { name := "STATUS", off := 0x14, ro := 0x7 },
  { name := "GEN", off := 0x100, wide := true, ro := 0xffffffffffffffff },
  { name := "WRITE_ERR_CNT", off := 0x108, ro := 0xffffffff },
  { name := "WIN_SEL", off := 0x110, rw := 0x3ff },
  { name := "WIN_DATA", off := 0x140, n1 := 16, s1 := 4, ro := 0xffffffff },
  { name := "INT_STATUS", off := 0x20, w1c := 0x3 }]

def rowsTrust : List RegRow := [
  { name := "LIFECYCLE", off := 0x100, ro := 0x7f },
  { name := "ACCESS", off := 0x104, rwl := 0x3 },
  { name := "SVN", off := 0x108, ro := 0x7fff },
  { name := "SERIAL", off := 0x110, wide := true, ro := 0xffffffffffffffff },
  { name := "DBG_NONCE", off := 0x120, n1 := 8, s1 := 4, ro := 0xffffffff },
  { name := "DBG_LOCK", off := 0x140, wo := 0x1 },
  { name := "DBG_TOKEN", off := 0x144, wo := 0xffffffff },
  { name := "CTX_SEL", off := 0x200, rw := 0x1ff },
  { name := "MREG", off := 0x400, n1 := 8, s1 := 48, n2 := 12, s2 := 4, ro := 0xffffffff },
  { name := "SYS_KEY", off := 0x580, n1 := 2, s1 := 96, n2 := 24, s2 := 4, rwl := 0xffffffff },
  { name := "SYS_KEY_EN", off := 0x640, rwl := 0x3 },
  { name := "OPR_KEY", off := 0x650, n1 := 12, s1 := 4, rwl := 0xffffffff },
  { name := "SLICE_SEL", off := 0x680, rw := 0xfff },
  { name := "PRIV_DENIED_CNT", off := 0x700, ro := 0xffffffff },
  { name := "AUTH_FAIL_CNT", off := 0x704, ro := 0xffffffff },
  { name := "NO_KEY_CNT", off := 0x708, ro := 0xffffffff },
  { name := "INT_STATUS", off := 0x20, w1c := 0x7 }]

def rowsTrustsel : List RegRow := [
  { name := "C_SIGPOL", off := 0x204, rw := 0x1f, ro := 0x20 },
  { name := "C_MEAS", off := 0x210, n1 := 12, s1 := 4, ro := 0xffffffff },
  { name := "C_KEY", off := 0x240, n1 := 4, s1 := 96, n2 := 24, s2 := 4, rw := 0xffffffff }]

def rowsSlicesel : List RegRow := [
  { name := "SLICE_STATE", off := 0x684, ro := 0x1f },
  { name := "SLICE_GEN", off := 0x688, n1 := 2, s1 := 4, ro := 0xffffffff },
  { name := "SLICE_ARM_EPOCH", off := 0x690, wide := true, ro := 0xffffffffffffffff }]

def rowsHost : List RegRow := [
  { name := "STATUS", off := 0x14, ro := 0xfff },
  { name := "INT_STATUS", off := 0x20, w1c := 0x1f },
  { name := "DOORBELL", off := 0x100, wo := 0x3f },
  { name := "CPL_TIMEOUT_CNT", off := 0x104, ro := 0xffffffff },
  { name := "LATE_CPL_CNT", off := 0x108, ro := 0xffffffff },
  { name := "POISON_RX_CNT", off := 0x10c, ro := 0xffffffff },
  { name := "POISON_TX_CNT", off := 0x110, ro := 0xffffffff },
  { name := "UR_CNT", off := 0x114, ro := 0xffffffff },
  { name := "CROSSING_CNT", off := 0x118, ro := 0xffffffff },
  { name := "TAG_STATE", off := 0x120, ro := 0x7ff07ff },
  { name := "INT_VEC", off := 0x130, rw := 0x7ff, reset := 0x1 },
  { name := "QSTOP_STATUS", off := 0x140, ro := 0x1f },
  { name := "QSTOP_CTRL", off := 0x144, wo := 0x1 },
  { name := "QSTOP_DISC_CNT", off := 0x148, ro := 0xffffffff },
  { name := "QSTOP_FAULT_CNT", off := 0x14c, ro := 0xffffffff },
  { name := "RING_CFG", off := 0x400, n1 := 64, s1 := 32, rw := 0x7ffffff, reset := 0x13ffc },
  { name := "RING_BASE", off := 0x408, n1 := 64, s1 := 32, wide := true, rw := 0xffffffffffffffc0 },
  { name := "RING_IDX", off := 0x410, n1 := 64, s1 := 32, wide := true, rw := 0xffffffffffffff80 },
  { name := "RING_IRQ", off := 0x418, n1 := 64, s1 := 32, rw := 0xffffffff, reset := 0x1000 },
  { name := "RING_STATE", off := 0x41c, n1 := 64, s1 := 32, ro := 0x7 }]

def rowsHdr : List RegRow := [
  { name := "ID", off := 0x0, ro := 0xffffffff, reset := 0x40000 },
  { name := "VERSION", off := 0x4, ro := 0xffffff, reset := 0xa10100 },
  { name := "CAP", off := 0x8, ro := 0x1ffff },
  { name := "CTRL", off := 0x10 },
  { name := "STATUS", off := 0x14 },
  { name := "INT_STATUS", off := 0x20 },
  { name := "INT_ENABLE", off := 0x24 },
  { name := "INT_FORCE", off := 0x28 },
  { name := "ERR_LOG0", off := 0x30, ro := 0x2ffff, w1c := 0x10000 },
  { name := "ERR_LOG1", off := 0x34, ro := 0xffffffff },
  { name := "ERR_LOG2", off := 0x38, wide := true, ro := 0xffffffffffffffff },
  { name := "LOCK", off := 0x40, w1s := 0x1 }]

/-- The reset values of the unit pages 0–170. -/
def regResetUnit (pg off : Nat) : Word :=
  if pg ≤ 170 ∧ off = 0x108 then 0x3#64 else -- UD_STATE
  if pg < 128 ∧ 0x600 ≤ off ∧ off < 0x610 ∧ (off - 0x600) % 4 = 0 then 0x7f7f#64 else -- ARR_COLMAP
  if pg < 128 ∧ off = 0x300 then 0x7f00#64 else -- SEQ_STATUS
  if pg < 128 ∧ off = 0x30c then 0xfffffff0#64 else -- HEAD_WAIT
  if 128 ≤ pg ∧ pg < 160 ∧ off = 0x300 then 0x4688#64 else -- SLOT_MAP
  if pg = 170 ∧ off = 0x410 then 0x64#64 else -- GRANT_LIFE
  if pg = 170 ∧ off = 0x414 then 0x258#64 else -- CKPT_HOLDOFF
  if (pg = 168 ∨ pg = 169) ∧ off = 0x400 then 0xfff#64 else -- CKPT_REQ_Q
  0#64

/-- The reset values of the block pages. -/
def regResetBlock (pg off : Nat) : Word :=
  if 384 ≤ pg ∧ pg < 392 ∧ 0x120 ≤ off ∧ off < 0x128 ∧ (off - 0x120) % 4 = 0 then 0x1ff#64 else -- SPARE_BANK
  if 384 ≤ pg ∧ pg < 392 ∧ off = 0x128 then 0x40#64 else -- SPARE_ROW_MIN
  if pg = 392 ∧ off = 0x100 then 0xa01#64 else -- SCRUB_CFG
  if (pg = 393 ∨ pg = 394) ∧ 0x100 ≤ off ∧ off < 0x900 ∧ (off - 0x100) % 32 = 0 then 0x18#64 else -- POOL_CFG
  if (pg = 393 ∨ pg = 394) ∧ 0x104 ≤ off ∧ off < 0x904 ∧ (off - 0x104) % 32 = 0 then 0x1#64 else -- POOL_SLOTS
  if pg = 400 ∧ 0x400 ≤ off ∧ off < 0x600 ∧ (off - 0x400) % 16 = 0 then 0x2#64 else -- SHELF_CFG
  if pg = 400 ∧ 0x404 ≤ off ∧ off < 0x604 ∧ (off - 0x404) % 16 = 0 then 0x1#64 else -- SHELF_SIZE
  if pg = 400 ∧ 0x600 ≤ off ∧ off < 0x800 ∧ (off - 0x600) % 8 = 0 then 0xffffffffffff#64 else -- VSMAP
  if pg = 400 ∧ 0x800 ≤ off ∧ off < 0xa00 ∧ (off - 0x800) % 32 = 0 then 0x7fffffe#64 else -- ASM_CFG
  if pg = 400 ∧ 0x804 ≤ off ∧ off < 0xa04 ∧ (off - 0x804) % 32 = 0 then 0x320#64 else -- ASM_DEADLINE
  if 408 ≤ pg ∧ pg < 412 ∧ off = 0x110 then 0xc3500#64 else -- XTIMEOUT
  if 448 ≤ pg ∧ pg < 480 ∧ off = 0x100 then 0xfc0#64 else -- PORT_CFG
  if 448 ≤ pg ∧ pg < 480 ∧ off = 0x104 then 0x108000#64 else -- LANE_THRESH
  if pg = 496 ∧ off = 0x104 then 0x18#64 else -- EPOCH_CFG
  if pg = 496 ∧ off = 0x128 then 0x3e8#64 else -- SYNC_PERIOD
  if pg = 496 ∧ off = 0x140 then 0x1f4#64 else -- REQ_TIMEOUT
  if (pg = 416 ∨ pg = 417) ∧ off = 0x100 then 0xfff#64 else -- REQ_Q
  if pg = 499 ∧ off = 0x100 then 0x24#64 else -- CCLK_STATUS
  if pg = 499 ∧ off = 0x108 then 0x2#64 else -- PLL_STATUS
  if pg = 498 ∧ off = 0x100 then 0x640#64 else -- P_SUST
  if pg = 498 ∧ off = 0x128 then 0x800000000000#64 else -- DOMAIN_STATE
  if pg = 498 ∧ off = 0x140 then 0x69#64 else -- THROTTLE_TEMP
  if pg = 498 ∧ off = 0x254 then 0x2819a0#64 else -- VMAX_BUDGET
  if pg = 500 ∧ off = 0x108 then 0x200#64 else -- FREEZE_SCOPE
  if pg = 500 ∧ off = 0x110 then 0x3e8#64 else -- SAMPLE_CFG
  if pg = 500 ∧ off = 0x40c then 0x10000#64 else -- DUMP_CFG
  if pg = 503 ∧ off = 0x130 then 0x1#64 else -- INT_VEC
  if pg = 503 ∧ 0x400 ≤ off ∧ off < 0xc00 ∧ (off - 0x400) % 32 = 0 then 0x13ffc#64 else -- RING_CFG
  if pg = 503 ∧ 0x418 ≤ off ∧ off < 0xc18 ∧ (off - 0x418) % 32 = 0 then 0x1000#64 else -- RING_IRQ
  0#64

/-- The reset value of each register (the Reset column; 0 where the column says 0).  A value the spec
gives per page, per preset or from fuses is set by `State.reset` or read through a view. -/
def regReset (k : Nat) : Word :=
  let pg := k / 4096
  let off := k % 4096
  if 0x2000 ≤ pg then
    if 0x3000 ≤ pg then 0#64 else
    if off = 0x204 then 0x40000#64 else -- QRING
    if off = 0x210 then 0x7ff80#64 else -- QREPLAY
    0#64
  else if 0x1000 ≤ pg then (if pg < 0x1200 ∧ off = 0x10c then 0x3000#64 else 0#64) -- C_CFG
  else if pg ≤ 170 then regResetUnit pg off
  else regResetBlock pg off

end Sys2Proof.Machine
end

