-- ==== Sys2Proof/Machine/State/Core.lean ====
section
/-! DEFINITION. The state of one compute core (chapters 3–7), of jobs and of loaded programs. -/

namespace Sys2Proof.Machine

/-- A descriptor: 64 bytes, word n at bits [64n+63:64n] (Table 5-1). -/
abbrev Desc := BitVec 512

def engNum : EngId → Nat | .mx => 0 | .ve => 1 | .ld => 2 | .st => 3

/-- A queued operation with the registers and descriptors it captured at issue (R107). -/
structure QOp where
  op : SlotOp
  iseq : Nat
  pc : Nat
  regs : Tab Word
  descs : Tab Desc
  deriving DecidableEq, Repr, Inhabited

/-- One DMA request of an LD or ST operation (R154): bytes `near … near+len−1` of the scratchpad against
local address (or send-buffer offset) `far`; its tile; for a count, its segment, and whether it ends it. -/
structure MemReq where
  near : Nat
  far : Nat
  len : Nat
  tile : Nat := 0
  seg : Nat := 0
  segEnd : Bool := false
  deriving DecidableEq, Repr, Inhabited

/-- A finished set awaiting its drain (R76): the sets by array, tile number, whether it raises
a signal, and whether it is the operation's last. -/
structure DrainJob where
  q : QOp
  sets : List (Nat × Nat)
  n : Nat
  signal : Bool
  last : Bool := false
  deriving DecidableEq, Repr, Inhabited

/-- An operation in progress: its captured form, the requests not yet complete (LD, ST), for a count at the
memory the count so far and the bytes of a packing unit whose rest is still to come, and the tiles done. -/
structure CurOp where
  q : QOp
  reqs : List MemReq := []
  count : Nat := 0
  carry : List (BitVec 8) := []
  tiles : Nat := 0
  deriving DecidableEq, Repr, Inhabited

/-- A signal owed at a completion point, or at resume (R116, R131). -/
structure SigOwed where
  flag : Nat
  n : Nat
  deriving DecidableEq, Repr, Inhabited

/-- A released `ST.SIGNAL` on its way (R120): target core, flag, count, and the operation's own signal. -/
structure StSig where
  target : Nat
  flag : Nat
  n : Nat
  own : Option SigOwed := none
  deriving DecidableEq, Repr, Inhabited

/-- A scalar delivery owed: register, value, flag (R108), and the operation's own END signal, whose completion point is
the delivery cycle (Table 4-4, R200). -/
structure Deliv where
  reg : Nat
  val : Word
  flag : Nat
  own : Option SigOwed := none
  deriving DecidableEq, Repr, Inhabited

/-- One engine: its queue (R111), ISEQ of the next operation (R133), the operations in progress, oldest first,
the pod-flag grant its head wait holds (R117), the signals and deliveries owed, whether it has stopped at its
park point, and the requests in flight there (R131). -/
structure Engine where
  queue : List QOp := []
  nextIseq : Nat := 1
  cur : List CurOp := []
  granted : Bool := false
  sigs : List SigOwed := []
  delivs : List Deliv := []
  atPoint : Bool := false
  pend : Nat := 0
  deriving DecidableEq, Repr, Inhabited

/-- An accumulator entry (R66): FP32 bits, INT32, or EXACT. -/
inductive Acc where
  | f (bits : Nat)
  | i (v : Int)
  | x (a : ExactAcc)
  deriving DecidableEq, Repr, Inhabited

/-- One accumulator set of one array: entries keyed 64·r + c, the set's EW (R66), and, for the rows a later
`ACC_DRAIN` writes (Table 5-3), how many rows it holds and whether an MMA.WT held it. -/
structure AccSet where
  ew : Int := 0
  rows : Nat := 16
  wt : Bool := false
  cells : Tab Acc := []
  deriving DecidableEq, Repr, Inhabited

/-- The held tile of an array (R86): element patterns keyed 128·c + i, block scales keyed 4·c + j. -/
structure HeldTile where
  fb : Fmt := .fp32
  elems : Tab Nat := []
  scales : Tab Nat := []
  loaded : Bool := false
  deriving DecidableEq, Repr, Inhabited

/-- One matrix array (R66): two sets, the sets held in hold order, the set the next tile uses, the active
and shadow held registers, and one more than the core's cycle of its latest cell operation in the job, 0 before the
first (R96). -/
structure Arr where
  set0 : AccSet := {}
  set1 : AccSet := {}
  holds : List Nat := []
  nextSet : Nat := 0
  active : HeldTile := {}
  shadow : HeldTile := {}
  lastOp : Nat := 0
  deriving DecidableEq, Repr, Inhabited

/-- An MX operation in progress, between two stretches (R99): its tile and the passes done in it (beats, for EWMUL), the
sets that each array held when it began (R74), whether the tile has begun, the sets it uses, its accumulators and those
loaded for the next tile (INIT = LOAD), by array; the scale entries in force and the start address of the pass that
filled the B buffer (R84). -/
structure MxProg where
  q : QOp
  n : Nat := 0
  p : Nat := 0
  kept : Tab Nat := []
  begun : Bool := false
  sets : List (Nat × Nat) := []
  cells : Tab (List Acc) := []
  next : Tab (List Acc) := []
  sa : List Byte := []
  sb : List Byte := []
  lastDb : Option Nat := none
  deriving DecidableEq, Repr, Inhabited

/-- A VE operation in progress, between two strips (R181): elements read and elements written, the values reduced of the
open segment, its G and H, the values of an MX block whose end is still to be read, and the result held in the combine
stage with the segment it belongs to. -/
structure VeProg where
  q : QOp
  i : Nat := 0
  written : Nat := 0
  seg : List FVal := []
  g : FVal := .zero
  h : FVal := .zero
  blk : List (FVal × RndBy) := []
  held : Option (Nat × RedV) := none
  deriving DecidableEq, Repr

/-- An open hardware loop (R124): first and last bundle, iterations left, and whether it was opened in a
callee (R125). -/
structure LoopF where
  first : Nat
  last : Nat
  remain : Nat
  inCall : Bool
  deriving DecidableEq, Repr, Inhabited

/-- An SC result on its way (R166): register, value, cycles left. -/
structure ScPend where
  reg : Nat
  val : Word
  left : Nat
  deriving DecidableEq, Repr, Inhabited

/-- What the sequencer of a core is doing (SEQ_STATUS.STATE, Table 4-10). -/
inductive CorePhase where
  | idle | issuing | syWait | heldFull | limit | parked | ended | stopped
  deriving DecidableEq, Repr, Inhabited

/-- One core (Table 1-4), its scratchpad and its registers apart. -/
structure Core where
  phase : CorePhase := .idle
  sregs : Tab Word := []
  scPend : List ScPend := []
  descs : Tab Desc := []
  pc : Nat := 0
  link : Option Nat := none
  loops : List LoopF := []
  gap : Nat := 1
  cycles : Nat := 0
  syGranted : Bool := false
  mx : Engine := {}
  ve : Engine := {}
  ld : Engine := {}
  st : Engine := {}
  arrs : Tab Arr := []
  bbuf : Tab Nat := []
  bbufValid : Bool := false
  drains : List DrainJob := []
  mxRun : Option MxProg := none
  veRun : Option VeProg := none
  /-- Cycles for which each waiter (SY, MX, VE, LD, ST) has evaluated an unmet wait (R122). -/
  waits : Tab Nat := []
  stSignals : List StSig := []
  /-- Operations of the job that matched the armed dump, and the latest: ISEQ, call number, output descriptor and
  the length of its access units (R453). -/
  dumpHits : Nat := 0
  dumpLast : Option (Nat × Nat × Desc × Nat) := none
  deriving DecidableEq, Repr, Inhabited

def Core.eng (c : Core) : EngId → Engine
  | .mx => c.mx | .ve => c.ve | .ld => c.ld | .st => c.st

def Core.setEng (c : Core) (e : EngId) (x : Engine) : Core :=
  match e with
  | .mx => { c with mx := x } | .ve => { c with ve := x }
  | .ld => { c with ld := x } | .st => { c with st := x }

/-- A loaded compute program (R138, R371). -/
structure Program where
  ctx : Nat := 0
  width : Nat := 1
  waitExp : Nat := 12
  entry : Nat := 0
  code : List Bundle := []
  descs : List Desc := []
  cert : Nat := 1
  callnums : List (Nat × Nat × Nat) := []
  scratch : List (Nat × List Byte) := []
  place : Nat := 0
  size : Nat := 0
  digest : List Byte := []
  deriving DecidableEq, Repr, Inhabited

end Sys2Proof.Machine
end

