-- ==== Sys2Proof/Machine/State/Fabric.lean ====
section
/-! DEFINITION. Packets, tags, tables, fabric time and the link ports (chapters 11 and 12), registers apart. -/

namespace Sys2Proof.Machine

/-- A 256-byte flit, byte n at bits [8n+7:8n] (R313). -/
abbrev Flit := BitVec 2048

/-- A packet (Table 11-5): type, class, chips, the slice of its flits, BODY and its data units. -/
structure Pkt where
  ptype : Nat
  cls : Nat
  dst : Nat := 0
  src : Nat := 0
  slice : Nat := 0
  body : Nat := 0
  data : List (BitVec 8) := []
  deriving DecidableEq, Repr, Inhabited

/-- A tag that is not FREE (R354): quarantined and in which epoch, the destination, the requester of R353 and
what it is for, and the deadline in fabric time. -/
structure TagRec where
  quarantined : Bool := false
  epoch : Nat := 0
  dest : Nat := 0
  requester : Nat := 0
  info : Nat := 0
  deadline : Nat := 0
  deriving DecidableEq, Repr, Inhabited

/-- A neighbour record (R342). -/
structure Nbr where
  valid : Bool := false
  bytes : BitVec 512 := 0
  deriving DecidableEq, Repr, Inhabited

/-- A time exchange in progress (R357): T1 of the outstanding request and when it is given up, and the number
of exchanges missed in a row. -/
structure TimeSync where
  /-- The 32-bit fraction of the counter (R358). -/
  frac : Nat := 0
  /-- The frequency estimate and the correction applied (R358), exact. -/
  f : Rat := 0
  r : Rat := 0
  /-- T1 of the outstanding request, once its first flit has left the port. -/
  outstanding : Option Nat := none
  lastSent : Option Nat := none
  missed : Nat := 0
  good : Nat := 0
  alt : Bool := false
  holdoverSince : Nat := 0
  /-- TIME_LOST was raised in this holdover. -/
  lost : Bool := false
  deriving DecidableEq, Repr, Inhabited

/-- A chunk that a collective engine is sending (R363): its step and index, its bytes, what has been written and
not acknowledged, and the slot it was granted. -/
structure CollSend where
  step : Nat
  chunk : Nat
  bytes : List (BitVec 8)
  id : Nat := 0
  sent : Nat := 0
  unacked : Nat := 0
  first : Option Nat := none
  deriving DecidableEq, Repr, Inhabited

/-- The running request of a collective engine (R361–R364): the card, its context, the ring, this member's rank,
the chunks that wait to be sent, those requested, those granted in the order of their grants, the partials
received so far, and the fabric time of the latest notice. -/
structure CollRun where
  card : Card
  /-- The number of the request among the engines' requests, by which a tag's outcome is known to be its own (R356). -/
  no : Nat := 0
  ctx : Nat
  members : List Nat
  rank : Nat
  todo : List CollSend := []
  asked : List CollSend := []
  flying : List CollSend := []
  got : Nat := 0
  /-- Chunks of this member's shard that reduce-scatter has finished. -/
  fin : List Nat := []
  last : Nat := 0
  deriving DecidableEq, Repr, Inhabited

/-- A slice key slot beyond its register (R481): the key and its SALT. -/
structure KeySlot where
  key : List (BitVec 8) := []
  salt : Nat := 0
  deriving DecidableEq, Repr, Inhabited

structure FabState where
  /-- Slice keys, keyed 2·slice + slot (R481). -/
  keys : Tab KeySlot := []
  /-- The slot that an armed switch of a slice will use (R481). -/
  armSlots : Tab Nat := []
  tags : Tab TagRec := []
  lastTag : Nat := 65535
  /-- CHIP_ID has been written since reset (R325, R342). -/
  assigned : Bool := false
  /-- Routing entries, keyed 2,048·bank + 1,024·table + index (Table 12-3). -/
  routes : Tab Nat := []
  /-- Permit entries, keyed 4,096·bank + slice (Table 12-4). -/
  permits : Tab Nat := []
  nbr : Tab Nbr := []
  /-- Groups whose control and response classes are fenced (R348): the old set and the latest end. -/
  fences : Tab (List Nat × Nat) := []
  sync : TimeSync := {}
  /-- Packets passed into the chip and not yet acted on: the input port, or 32 for an agent of this chip. -/
  chipIn : List (Nat × Pkt) := []
  /-- Values that RCPLs delivered, by requester: status and value. -/
  replies : List (Nat × Nat × Nat) := []
  /-- When each requester began to wait for a tag (R353), plus one. -/
  tagWait : Tab Nat := []
  /-- Requesters whose wait has raised TAG_EXHAUST. -/
  tagRaised : List Nat := []
  /-- Local time at which the copy of the tables began (R352), and the requests that the engines have taken. -/
  copyAt : Nat := 0
  engSeq : Nat := 0
  /-- The latest epoch number whose tick has been acted on (R352). -/
  epochSeen : Nat := 0
  /-- The collective engines of the two halves. -/
  coll0 : Option CollRun := none
  coll1 : Option CollRun := none
  deriving DecidableEq, Repr, Inhabited

/-- Numbers a port's CONFIG message carries (Table 11-8). -/
structure PeerCfg where
  port : Nat := 0
  mask : Nat := 0
  reach : Nat := 0
  key : Nat := 0
  bulk : Nat := 0
  control : Nat := 0
  response : Nat := 0
  deriving DecidableEq, Repr, Inhabited

/-- A link port beyond its registers. -/
structure Port where
  /-- Packets waiting for the port, in order (R318). -/
  txq : List Pkt := []
  /-- The rest of a packet that continues in the next DATA flit, with its class and slice (R316). -/
  cont : List (BitVec 8) := []
  contCls : Nat := 0
  contSlice : Nat := 0
  /-- The packet that continues originates on this chip; the numbers of the retry buffer's flits that hold part of a
  packet that does (R510). -/
  contOwn : Bool := false
  own : List Nat := []
  /-- Consecutive flits of other classes that a waiting bulk packet has seen (R318). -/
  bulkWait : Nat := 0
  /-- LINK flits to send, in order, as message bytes (Table 11-8). -/
  linkOut : List (List (BitVec 8)) := []
  seq : Nat := 0
  /-- The retry buffer: DATA flits not yet acknowledged, oldest first (R320). -/
  retry : List (Nat × Flit) := []
  /-- Flits being resent (R321). -/
  resend : List (Nat × Flit) := []
  expected : Nat := 0
  ackValid : Bool := false
  /-- Credits to return, by class (R317). -/
  oweBulk : Nat := 0
  oweControl : Nat := 0
  oweResponse : Nat := 0
  /-- The bytes received so far of a packet that continues (R316). -/
  rxPart : List (BitVec 8) := []
  /-- The expected number for which a RETRY_REQ is open, and how many were sent (R321, R322). -/
  reqOpen : Bool := false
  reqCount : Nat := 0
  reqAt : Nat := 0
  /-- Failed attempts in a row (R323) and in CONFIG (R325). -/
  attempts : Nat := 0
  cfgFails : Nat := 0
  gotConfig : Bool := false
  gotAck : Bool := false
  peer : PeerCfg := {}
  /-- When the port entered its state, and a drain began. -/
  since : Nat := 0
  drainAt : Nat := 0
  /-- When CONFIG is sent next, and the flit slots since WIDTH_CHANGE began (R324, R328). -/
  cfgAt : Nat := 0
  slots : Nat := 0
  /-- A retrain is in progress; in RETRAIN, its phase: 0 request sent, 1 aligning, 2 in CONFIG; and the fabric times
  of the latest full retrains (R326). -/
  retraining : Bool := false
  phase : Nat := 0
  /-- The RETRAIN_REQ of this end asks for a full retrain. -/
  full : Bool := false
  fullAt : List Nat := []
  /-- The mask a WIDTH_REQ of this end asks for (R328). -/
  wantMask : Option Nat := none
  /-- Positions left out until the next full retrain (R329), and the standby: 0 idle, 1 calibrating, 2 failed. -/
  badMask : Nat := 0
  standby : Nat := 0
  standbyAt : Nat := 0
  /-- A drain in progress: its reason (R335, R336). -/
  draining : Option Nat := none
  peerDraining : Bool := false
  /-- Authentication drops of the window in progress (R484), and when it began. -/
  authDrops : List Nat := []
  /-- The transmit counter of link encryption (R482). -/
  encCtr : Nat := 0
  /-- Numbers of the retry buffer's flits that the credits of the latest retrain do not cover yet (R317, R324). -/
  uncharged : List Nat := []
  /-- The flit on the lanes: the last one sent; the lane position it went on, and the number of the next flit slot (R307). -/
  out : Flit := 0
  outPos : Nat := 0
  slotNo : Nat := 0
  deriving DecidableEq, Repr, Inhabited

/-- A cartridge beyond its registers (R333, R334): matings counted and not yet written, the rated lives, until
when its bus's polling is paused, and its wear page as last written. -/
structure Cart where
  /-- 0x5006 has been raised for this cartridge. -/
  rejected : Bool := false
  owed : Nat := 0
  ratedMatings : Nat := 0
  ratedLaser : Nat := 0
  pausedUntil : Nat := 0
  wearPage : List (BitVec 8) := []
  deriving DecidableEq, Repr, Inhabited

end Sys2Proof.Machine
end

