-- ==== Sys2Proof/Machine/State/Host.lean ====
section
/-! DEFINITION. Power, security, host port and management state (chapters 15, 17, 18, 19), registers apart. -/

namespace Sys2Proof.Machine

/-! ### Power (chapter 15) -/

structure PowerState where
  /-- The step each limiter of Table 15-3 demands, by bit. -/
  demands : Tab Nat := []
  /-- Samples taken since reset, the numbers of those over limit in the trailing 50,000, the latest 1,000 package
  powers (newest first), and whether the peak-window limiter's demand stands (R424–R426). -/
  samples : Nat := 0
  overs : List Nat := []
  recent : List Nat := []
  standing : Bool := false
  /-- Energy of each domain since reset, in nanojoules (R423), and what is not yet apportioned (R383). -/
  energy : Tab Nat := []
  unshared : Tab Nat := []
  /-- TEMP_MAX has been at or above the threshold since the thermal limiter's latest demand; every reading has been
  3 °C below it since the latest step (R429). -/
  hot : Bool := false
  cool : Bool := false
  /-- PWR_BRAKE_N is low (R433). -/
  brake : Bool := false
  /-- THERMTRIP_N is asserted (R431). -/
  trip : Bool := false
  /-- The core rails' commanded set point and the one they move from, in mV (R420). -/
  vset : Nat := 650
  vold : Nat := 650
  /-- Consecutive samples of each rail past its warning and its fault limit (R432), samples of a core warning
  in force, and samples without one. -/
  warnRun : Tab Nat := []
  badRun : Tab Nat := []
  warned : Nat := 0
  clear : Nat := 0
  /-- The latest quotient of each ring and its consecutive low ones (R434). -/
  rings : Tab (Nat × Nat) := []
  deriving DecidableEq, Repr, Inhabited

/-! ### The host port (chapter 18) -/

/-- A host tag that is not FREE (R493): quarantined and since which epoch; the requester (Table 14-17: 0 restore,
1 load, 2 ring), its number (context, transport or ring), the host address and length, and what a ring reads. -/
structure HostTag where
  quarantined : Bool := false
  epoch : Nat := 0
  requester : Nat := 0
  idx : Nat := 0
  addr : Nat := 0
  len : Nat := 0
  /-- A ring reads card lines (from its own index on), not its host index line. -/
  card : Bool := false
  deriving DecidableEq, Repr, Inhabited

/-- A line of the device cache (R496): 1 S, 2 E, 3 M; its data, whether pinned, and when last used. -/
structure CacheLine where
  st : Nat
  data : BitVec 512 := 0
  pinned : Bool := false
  used : Nat := 0
  deriving DecidableEq, Repr, Inhabited

/-- An entry of the eviction buffer (R498). -/
structure Evict where
  line : Nat
  dirty : Bool
  data : BitVec 512
  deriving DecidableEq, Repr, Inhabited

/-- A CXL.cache request outstanding (Table 18-4): 0 RdShared, 1 RdCurr, 2 RdOwnNoData; the line, its ring, the data to
write once it is owned, and whether that is the device's index line. -/
structure CxlReq where
  kind : Nat
  line : Nat
  ring : Nat
  data : BitVec 512 := 0
  index : Bool := false
  deriving DecidableEq, Repr, Inhabited

/-- A host ring beyond its registers (R500–R504): the device's index and the host's index last read, refused
cards, cards handled since the index line was written, whether the index has changed since, whether a pass is
under way, failed reads in a row, whether a failed read waits to be retried, cards read from the host and not yet handled,
cards written since the last interrupt, and the fabric time of the first of them. -/
structure Ring where
  own : BitVec 32 := 0
  host : BitVec 32 := 0
  refused : Nat := 0
  handled : Nat := 0
  dirty : Bool := false
  busy : Bool := false
  fails : Nat := 0
  retry : Bool := false
  cards : List (BitVec 512) := []
  /-- Card lines read in CXL mode, by host address, until the last of the reads under way has come. -/
  arrived : Tab (BitVec 512) := []
  unsignalled : Nat := 0
  since : Nat := 0
  deriving DecidableEq, Repr, Inhabited

/-- A load from host memory under way on a transport (R507): what was asked, and the bytes read so far. -/
structure HostLoad where
  kind : Nat
  ctx : Nat
  seqr : Nat
  level : Nat
  addr : Nat
  size : Nat
  got : List (BitVec 8) := []
  deriving DecidableEq, Repr, Inhabited

structure HostState where
  /-- MSI-X: table entries (address, data, control; masked at reset), pending vectors, function 0's messages and
  other posted writes in the order sent. -/
  msix : Tab (BitVec 128) := []
  pba : List Nat := []
  out : List (Nat × List (BitVec 8)) := []
  tags : Tab HostTag := []
  cache : Tab CacheLine := []
  evicts : List Evict := []
  /-- Lines of disabled rings that still wait for an entry of the eviction buffer (Table 18-4). -/
  leaving : List Nat := []
  reqs : List CxlReq := []
  /-- Requests that wait for an eviction-buffer entry or for a line in it (R498). -/
  stalled : List CxlReq := []
  use : Nat := 0
  /-- The latest answer to an H2D snoop (Table 18-5): a response code and data. -/
  snoop : Option (Nat × BitVec 512) := none
  rings : Tab Ring := []
  /-- AER: Uncorrectable Internal Error logged, and advisory Unexpected Completions. -/
  aerInternal : Bool := false
  aerUnexpected : Nat := 0
  /-- The latest completion of a host read: status (0 SC, 1 UR), EP, and its data. -/
  cpl : Option (Nat × Bool × List (BitVec 8)) := none
  /-- A QSTOP disagreement is being counted (R509); sequencers stopped by the quiesce. -/
  disagree : Bool := false
  staging : Tab (List (BitVec 8)) := []
  loads : Tab (Option HostLoad) := []
  /-- The latest response of each transport: status and bytes (Table 18-8). -/
  resp : Tab (Nat × List (BitVec 8)) := []
  mctpDrops : Nat := 0
  eid : Nat := 0
  i3cAddr : Option Nat := none
  deriving DecidableEq, Repr, Inhabited

/-! ### Security (chapter 17) -/

/-- The fuses (Table 17-3): UDS and the key hashes as numbers of 32 and 96 bytes; LIFECYCLE, SVN and SERIAL have
their home in TRUST. -/
structure Fuses where
  uds : List (BitVec 8) := []
  fwKeys : List (BitVec 8) := []
  dbgKeys : List (BitVec 8) := []
  deriving DecidableEq, Repr, Inhabited

/-- The SPDM responder (R473): how far the negotiation went (0 none, 1 version, 2 capabilities, 3 algorithms), a
key exchange in progress, a secure session and whether its requester qualifies, how often its keys were updated,
and the latest response: a response code and its bytes. -/
structure Spdm where
  phase : Nat := 0
  exchange : Bool := false
  session : Bool := false
  qualified : Bool := false
  updates : Nat := 0
  resp : Nat := 0
  body : List (BitVec 8) := []
  deriving DecidableEq, Repr, Inhabited

structure TrustState where
  fuses : Fuses := {}
  /-- Boot flash: the two firmware slots, and the slot of the last good boot (R470). -/
  slotA : List (BitVec 8) := []
  slotB : List (BitVec 8) := []
  lastGood : Option Nat := none
  /-- The slot that runs, the Alias seed that the ROM derived for it, and the certificate chain it signed (R467). -/
  running : Option Nat := none
  aliasSeed : List (BitVec 8) := []
  cert : List (BitVec 8) := []
  /-- Both slots failed: the ROM's recovery service runs (R470). -/
  recovery : Bool := false
  /-- The debug nonce in force (R479). -/
  nonce : Option (List (BitVec 8)) := none
  /-- Token bytes written to DBG_TOKEN so far. -/
  token : List (BitVec 8) := []
  spdm : Spdm := {}
  /-- The current JTAG instruction, as its place in BYPASS, IDCODE, SAMPLE/PRELOAD, EXTEST; the data register it
  last captured. -/
  jtag : Nat := 0
  jtagOut : Nat := 0
  /-- The boundary-scan chain: what SAMPLE captured, what PRELOAD latched, and whether EXTEST drives the pins. -/
  scan : List Bool := []
  preload : List Bool := []
  extest : Bool := false
  deriving DecidableEq, Repr, Inhabited

/-- Held accesses of one agent (R560): the register and high word latched by a low-word read, and the register and
low word of a held write; and the value that its latest read returned. -/
structure Latch where
  read : Option (Nat × Nat) := none
  held : Option (Nat × Nat) := none
  value : Nat := 0
  deriving DecidableEq, Repr, Inhabited

/-- Start-up (chapter 19): the straps as latched, MicroS since release, and whether reset is held. -/
structure StartState where
  preset : Nat := 0
  mgtAddr : Nat := 0
  /-- SYS_RST_N is low or PWROK is low, or the device is in thermal hold (R525). -/
  held : Bool := false
  /-- In reset the boundary-scan chain may drive the pins: SYS_RST_N low with PWROK high, or thermal hold (R525). -/
  scanHold : Bool := false
  /-- The supply monitors are armed (R521). -/
  armed : Bool := false
  /-- Phase 4 has ended: the limiters decide the CCLK step (R527); PHASE has reached READY (R536). -/
  freed : Bool := false
  ready : Bool := false
  /-- The board description as read in phase 1 (R526). -/
  board : BoardDesc := {}
  deriving DecidableEq, Repr, Inhabited

end Sys2Proof.Machine
end

