-- ==== Sys2Proof/Machine/State/Memory.lean ====
section
/-! DEFINITION. Stage memory beside its contents: word health, write-backs owed, failed banks and rebuilds,
spare rows, credit grants (chapter 8). -/

namespace Sys2Proof.Machine

/-- A bank rebuild of one tier (R220): the bank (coded as `ERR_LAST.BANK`), the spare it goes to, the next row
of the walk, and the rows already written since it began. -/
structure Rebuild where
  bank : Nat
  spare : Nat
  row : Nat := 0
  written : List Nat := []
  deriving DecidableEq, Repr

/-- An open grant of a credit pool (R226): first slot, slots, the chip it was granted to, its requester (the
local requester index, or none for another chip), its slice, and the fabric time of the grant. -/
structure Grant where
  first : Nat
  count : Nat
  chip : Nat
  time : Nat := 0
  /-- For a cut-through grant: the lead card's ROWS and ROW_BYTES, and PFX (R261, R262). -/
  lead : Option (Nat × Nat) := none
  pfx : Nat := 0
  /-- The transfer's XFER was accepted: READY is ROWS; kept until a slot of it is released (R262, R263). -/
  closed : Bool := false
  deriving DecidableEq, Repr

/-- A credit request in a pool's waiting list (R228): where the reply goes (link port, or 32 for an agent of
this chip), the requester's chip, slice and requester index, and the message. -/
structure CreditWait where
  port : Nat
  chip : Nat
  slice : Nat
  requester : Nat
  count : Nat
  tag : Nat
  deriving DecidableEq, Repr

/-- One credit pool beyond its registers: slot states (0 free, 1 granted, 2 closed, 3 released-pending), open
grants and waiting list. -/
structure Pool where
  slots : Tab Nat := []
  grants : List Grant := []
  waiting : List CreditWait := []
  deriving DecidableEq, Repr, Inhabited

/-- A host or privileged access that waits for a zero fill (R212): address, length, and the bytes of a write. -/
structure FillWait where
  addr : Nat
  len : Nat
  write : Option (List (BitVec 8)) := none
  poison : Bool := false
  deriving DecidableEq, Repr

structure SmemState where
  /-- Health of each 64-bit word: 0 good, 1 a correctable error, 2 uncorrectable or poisoned.  Keyed by the
  word's address; the parity word of a stripe by 2^40 plus the address of the stripe's lowest channel. -/
  ecc : Tab Nat := []
  /-- Words corrected or rebuilt that wait for their write-back (R213, R216). -/
  owed : List Nat := []
  /-- Failed banks that no spare serves: (tier, bank as in ERR_LAST). -/
  failed : List (Nat × Nat) := []
  rebuilds : Tab (Option Rebuild) := []
  /-- Free spare rows of each bank, keyed 512·tier + bank (R218). -/
  spareRows : Tab Nat := []
  /-- Row map: keyed (512·tier + bank)·16384 + row, the spare row plus one (R219). -/
  rowMap : Tab Nat := []
  /-- Rows of class A or Q that a bank rebuild left poisoned and that nothing has written since: tier, bank, row
  (R220 step 3). -/
  lostRows : List (Nat × Nat × Nat) := []
  pools : Tab Pool := []
  fillWaits : List FillWait := []
  deriving DecidableEq, Repr, Inhabited

end Sys2Proof.Machine
end

