-- ==== Sys2Proof/Machine/State/Observe.lean ====
section
/-! DEFINITION. Record buffers, freezes, dumps, snapshots and the ledger (chapter 16), registers apart. -/

namespace Sys2Proof.Machine

/-- An entry of the ledger's cartridge table (Table 16-5). -/
structure LedgCart where
  serial : Nat
  vendor : Nat
  port : Nat
  matings : Nat := 0
  laser : Nat := 0
  warned : Bool := false
  worn : Bool := false
  first : Nat := 0
  last : Nat := 0
  deriving DecidableEq, Repr

/-- The ledger's live contents (Table 16-5), by section, and the two flash copies as last written. -/
structure Ledger where
  /-- Life, keyed as listed: 0 powered minutes; 1–4 resets (power-on, cold, warm, host); 5 quiesces; 6 QSTOP
  input faults; 7 thermal trips; 8 supply faults; 9–13 minutes at steps 0–4; 14 VMAX_USED. -/
  life : Tab Nat := []
  temps : Tab Nat := []
  powers : Tab Nat := []
  /-- Spares: keyed 0–31 slots retired, 32–63 SLOT_MAP per pod; 64–575 columns spared per array; 576–583 rows,
  584–591 banks failed, 592–599 spare banks in use per tier; 600–631 lanes failed, 632–663 standby use per port;
  664 queue manager switches. -/
  spares : Tab Nat := []
  /-- Errors: 0–7 corrected, 8–15 uncorrectable per tier; 16–175 scratchpad per slot; 176–207 retrains, 208–239
  retry exhaustions per port; 240–409 margin alarms per ring. -/
  errors : Tab Nat := []
  ports : Tab (Nat × Nat) := []
  carts : List LedgCart := []
  faults : Tab (BitVec 512) := []
  nFaults : Nat := 0
  copyA : List (BitVec 8) := []
  copyB : List (BitVec 8) := []
  /-- GEN of the copy in use, 0 where no copy was ever written; which copy it is. -/
  gen : Nat := 0
  useB : Bool := false
  deriving DecidableEq, Repr

structure ObsState where
  /-- SEQ of the privileged buffer and of each context's buffer (R446). -/
  seqS : Nat := 0
  seqC : Tab Nat := []
  /-- CO of each context (R447). -/
  origin : Tab Nat := []
  /-- The freeze park in force: all contexts or one (R450). -/
  freeze : Option (Option Nat) := none
  /-- The unit of a dump that has fired (R453), and units whose snapshot is being written (R455). -/
  dumpUnit : Option Nat := none
  snapBusy : List Nat := []
  ledger : Ledger := {}
  /-- What the copy in use holds (R457). -/
  saved : Ledger := {}
  deriving DecidableEq, Repr

end Sys2Proof.Machine
end

