-- ==== Sys2Proof/Machine/State/Queues.lean ====
section
/-! DEFINITION. The queue manager's own state (chapter 9), its registers apart. -/

namespace Sys2Proof.Machine

/-- One shelf (R252): bound or free, and what the job card that bound it named. -/
structure Shelf where
  bound : Bool := false
  accession : Nat := 0
  srcChip : Nat := 0
  slice : Nat := 0
  srcQueue : Nat := 0
  deriving DecidableEq, Repr, Inhabited

/-- A port's inline packet (R259): open, how many cards it has had, by queue the number of its latest card among those that
have entered the queue (plus one), and the cards flushed away whose later cards are discarded (R265 step 4). -/
structure InlinePkt where
  isOpen : Bool := false
  latest : Tab Nat := []
  count : Nat := 0
  flushed : Bool := false
  deriving DecidableEq, Repr, Inhabited

/-- The receive side of a link port at the queue manager (R258–R260): its FIFO, the inline packet of routed
mode, and the packet that is current in direct mode. -/
structure RxPort where
  fifo : List Card := []
  inline : InlinePkt := {}
  current : Bool := false
  deriving DecidableEq, Repr, Inhabited

/-- The lead card of a cut-through grant that is not yet in its queue (R261). -/
structure LeadCard where
  card : Card
  queue : Nat
  pool : Nat
  first : Nat
  deriving DecidableEq, Repr, Inhabited

/-- A batch assembler (R269–R271): the requests of the open batch, when its first joined, a request that
waits to open the next batch, whether the batch is closing, and the records in use with the accession of the
batch each holds. -/
structure Assembler where
  reqs : List Card := []
  t0 : Nat := 0
  closing : Bool := false
  next : Option Card := none
  recBusy : List (Nat × Nat) := []
  deriving DecidableEq, Repr, Inhabited

structure QmState where
  /-- Card store (R236): 65,536 cards. -/
  store : Tab Card := []
  /-- Health of each word of the store, keyed 8·card + word: 0 good, 1 correctable, 2 uncorrectable (R243). -/
  health : Tab Nat := []
  /-- Cards that have entered each queue (R265 step 4). -/
  entered : Tab Nat := []
  /-- Shelves, keyed 64·set + shelf (R252). -/
  shelves : Tab Shelf := []
  /-- Replay-window entries of each queue, in the order recorded (R254). -/
  replay : Tab (List Card) := []
  /-- Replayed cards offered again each cycle to a full queue (Table 9-3). -/
  replayWait : List (Nat × Card) := []
  rx : Tab RxPort := []
  leads : List LeadCard := []
  asms : Tab Assembler := []
  /-- DONE cards held for a full DONE queue, by unit (Table 9-3). -/
  doneHeld : List (Nat × Card) := []
  /-- XFERs still to come whose grant a flush closed: pool, first slot (R265 step 3). -/
  flushedXfers : List (Nat × Nat) := []
  /-- The unit that runs, or last ran, each context's job (R248); the package unit where none. -/
  lastUnit : Tab Nat := []
  /-- UCLK cycle in which the head card of each JOB queue reached the head (R373 key 2). -/
  headSince : Tab Nat := []
  /-- The latest answer of the card store to each requester of Table 9-4: status and card (R240). -/
  replies : Tab (Nat × Card) := []
  deriving DecidableEq, Repr, Inhabited

/-- The running request of a checkpoint engine (R401–R406): its card and context, the descriptor's bytes, the
peers in ascending order and this chip's position among them, the shards read with their digests, the notices
received (keyed peers·shard + position), when the last shard was read, and the writes still to be made (address
and bytes) or to be answered. -/
structure CkptRun where
  card : Card
  /-- The number of the request among the engines' requests (R356). -/
  no : Nat := 0
  ctx : Nat
  desc : List (BitVec 8)
  peers : List Nat
  pos : Nat
  digests : List (List (BitVec 8)) := []
  notices : Tab (List (BitVec 8)) := []
  reading : Bool := true
  writing : Bool := false
  readAt : Nat := 0
  writes : List (Nat × List (BitVec 8)) := []
  unacked : Nat := 0
  shards : Nat := 0
  bytes : Nat := 0
  deriving DecidableEq, Repr, Inhabited

/-- The recovery machine's own record (R397, R398): the contexts torn down in this stay in REPAIRING, and
those already named in a LEFT_JOB; the repairs in progress by kind. -/
structure RecState where
  torn : List Nat := []
  left : List Nat := []
  repairs : List Nat := []
  /-- What the management controller's thresholds look at (R393): kind, what it concerns, and local time; and the
  thresholds crossed in the window, as threshold, what it concerns, and when. -/
  events : List (Nat × Nat × Nat) := []
  fired : List (Nat × Nat × Nat) := []
  /-- Core slots that are to be retired, as 5·pod + slot, and pods that are out of service (R394, R16). -/
  retiring : List Nat := []
  podsOut : List Nat := []
  /-- Pods whose unused spare slot failed its self-test at start (R531). -/
  badSpares : List Nat := []
  /-- Arrays to be tested, as 4·core + array, each with the logical column whose parity failed (R395). -/
  selfTests : List (Nat × Nat) := []
  /-- The bank-active count of epoch swaps since the fault that isolated the chip (R399). -/
  swapped : Bool := false
  /-- Each context's energy not yet a whole microjoule, in nanojoules; key 512 is IDLE_ENERGY's (R383). -/
  energy : Tab Nat := []
  /-- The class, plus one, of each granule that a SPILL recorded, by 512·context + granule (R381). -/
  spilled : Tab Nat := []
  /-- The checkpoint engines of the two halves (R401–R407). -/
  ckpt0 : Option CkptRun := none
  ckpt1 : Option CkptRun := none
  /-- Fabric time at which each trigger kind last raised CHECKPOINT_ADVISE, plus one (R400). -/
  holdoff : Tab Nat := []
  deriving DecidableEq, Repr, Inhabited

end Sys2Proof.Machine
end

