-- ==== Sys2Proof/Machine/State/Stage.lean ====
section
/-! DEFINITION. The stage sequencers (Table 10-1), their registers apart. -/

namespace Sys2Proof.Machine

/-- A transfer slot beyond `XSLOT` (Table 10-7): the captured SEND card and its ORIGIN, the send buffer bound
to it and for which unit, whether the buffer still accepts, how far XMOVE has sent, staged writes (offset,
bytes), writes not yet acknowledged, whether one failed, the fabric time of the latest request or BUSY reply,
whether an XFREE from TIMEOUT waits for its epoch and which, and whether a tear-down is closing the slot. -/
structure XSlot where
  card : Card := 0
  origin : Nat := 0xFFF
  buffer : Option Nat := none
  unit : Nat := 0
  accepting : Bool := false
  sent : Nat := 0
  moving : Bool := false
  staging : List (Nat × List (BitVec 8)) := []
  unacked : Nat := 0
  failed : Bool := false
  since : Nat := 0
  epoch : Nat := 0
  freeing : Bool := false
  closing : Bool := false
  deriving DecidableEq, Repr, Inhabited

/-- The bound schedule table (R287): its local address, entries, context, ACC_BASE and the pointer. -/
structure BoundTable where
  addr : Nat
  entries : Nat
  ctx : Nat
  accBase : Nat
  ptr : Nat := 0
  /-- The table has no backward entries (R268), and its highest MB (R267). -/
  fwdOnly : Bool := false
  maxMb : Nat := 0
  deriving DecidableEq, Repr

/-- One stage sequencer; G0–G15, RUN, STATE, PC and the slot states are its registers (Table 10-11). -/
structure Seqr where
  loaded : Bool := false
  /-- Loaded and not started since (R274). -/
  fresh : Bool := false
  code : List (BitVec 32) := []
  entry : Nat := 0
  level : Nat := 0
  ctx : Nat := 0
  init : List (BitVec 8) := []
  digest : List (BitVec 8) := []
  cards : Tab Card := []
  origins : Tab Nat := []
  data : Tab (BitVec 8) := []
  slots : Tab XSlot := []
  watch : Tab Nat := []
  /-- The count that TSET loaded, and the local time at which it did (R281). -/
  timer : Nat := 0
  timerAt : Nat := 0
  link : Option Nat := none
  table : Option BoundTable := none
  /-- Latched event bits 8, 9 and 10 (R281). -/
  events : Nat := 0
  /-- The transfer slot on which an XDONE waits (R294, R356). -/
  xdone : Option Nat := none
  deriving DecidableEq, Repr, Inhabited

/-- The window table of a program handle (R285): base and size, keyed 16·handle + window. -/
abbrev WindowTables := Tab (Nat × Nat)

end Sys2Proof.Machine
end

