-- ==== Sys2Proof/Machine/State.lean ====
section
/-! DEFINITION. The state of the device: plain data, every piece the spec gives the machine. -/

namespace Sys2Proof.Machine

/-- A memory: (address, byte) pairs, addresses strictly rising, no entry equal to what an unlisted
address reads as (0: R205, R212, R530 zero-fill). -/
abbrev Memory := List Host.Cell

/-- Reasons a step can stop the machine. -/
inductive Fault where
  /-- Raised by no command: every event of the spec has an outcome that goes on (R7). Safe. -/
  | none
  deriving DecidableEq, Repr

/-- Reasons a command has no meaning in this model. -/
inductive Refusal where
  /-- Raised by the dispatcher for a command whose meaning is not written yet. Safe. -/
  | notModelled (mnemonic : String)
  deriving DecidableEq, Repr

/-- A job running or parked on a unit (R372): its card, its context, its program handle, the fault it
ends with, the park sources in force (R132) and whether the unit is parked. -/
structure Job where
  ctx : Nat := 0
  card : Card := 0
  handle : Nat := 0
  fault : Option Nat := none
  parkReqs : List Nat := []
  parked : Bool := false
  /-- The readiness binding (R263): pool, first slot, and the signals added so far. -/
  bound : Option (Nat × Nat × Nat) := none
  /-- The shelf of the job: shelf index (R252). -/
  shelf : Option Nat := none
  /-- LTIME at the first bundle issue (R447), and whether a bundle has issued. -/
  j0 : Nat := 0
  begun : Bool := false
  /-- The cycles of the job so far, as its latest core counts them: JOB_CYCLES of the unit (R169, R377). -/
  clock : Nat := 0
  /-- The context's counter profile as the job started with it (R444). -/
  profile : Word := 0
  /-- Accounts 0–6 of the context at job start (Table 16-4). -/
  acc0 : List Nat := []
  deriving DecidableEq, Repr, Inhabited

structure State where
  pending : List Instr := []
  freeCtr : Nat := 0
  regs : Tab Word := []
  mem : Memory := []
  spad : Tab Byte := []
  spadEcc : Tab Nat := []
  /-- Scratchpad words whose corrected value waits for its write-back (R201). -/
  spadOwed : List Nat := []
  cores : Tab Core := []
  jobs : Tab Job := []
  progs : Tab Program := []
  flog : Tab (BitVec 512) := []
  smem : SmemState := {}
  qm : QmState := {}
  seqs : Tab Seqr := []
  wintab : WindowTables := []
  fab : FabState := {}
  ports : Tab Port := []
  carts : Tab Cart := []
  recov : RecState := {}
  obs : ObsState := {}
  power : PowerState := {}
  host : HostState := {}
  trust : TrustState := {}
  start : StartState := {}
  /-- Held accesses, by agent: 0–3 sequencers, 4 host, 5 management controller, 6 management slice (R560). -/
  latches : Tab Latch := []
  /-- The context under which a bundle limit was written while the unit was idle (R464); 512: none. -/
  limitCtx : Tab Nat := []
  deriving DecidableEq, Repr

/-- The device right after a power-on reset (R518, R519): every register at its reset value, RESET_CAUSE.KIND 1,
memories zero, held in reset until SYS_RST_N and PWROK are high (R523); the fuses of LIFECYCLE read PRODUCTION (R478,
DESIGN CHOICE). -/
def State.reset : State :=
  { regs := [(R.mgtResetCause, 1#64), (R.trustLifecycle, 1#64)], start := { held := true } }

end Sys2Proof.Machine
end

