-- ==== Sys2Proof/Machine/Ops.lean ====
section
/-! DEFINITION. The named operations over registers, memory, scratchpads, flags and units that every
meaning uses. -/

namespace Sys2Proof

/-! ### Card fields (Tables 9-5, 9-7, 9-9, 9-10) -/

/-- `n` bytes of a card from byte `b`, little-endian. -/
def Card.get (c : Card) (b n : Nat) : Nat := bits c (8 * (b + n) - 1) (8 * b)
def Card.put (c : Card) (b n v : Nat) : Card := setBits c (8 * (b + n) - 1) (8 * b) v

def Card.tag (c : Card) : Nat := c.get 0 1
def Card.first (c : Card) : Bool := bits c 8 8 = 1
def Card.last (c : Card) : Bool := bits c 9 9 = 1
def Card.replay (c : Card) : Bool := bits c 10 10 = 1
def Card.setReplay (c : Card) : Card := setBits c 10 10 1
def Card.ctx (c : Card) : Nat := bits c 24 16
def Card.accession (c : Card) : Nat := c.get 4 4
def Card.layer (c : Card) : Nat := c.get 8 2
def Card.oper (c : Card) : Nat := c.get 10 2
def Card.srcChip (c : Card) : Nat := bits c 115 96
def Card.slice (c : Card) : Nat := bits c 127 116
def Card.tqueue (c : Card) : Nat := bits c 139 128

end Sys2Proof

namespace Sys2Proof.Machine

/-- The outcome of every meaning that has an effect. -/
abbrev Res := Host.Outcome State Fault Refusal

/-! ### Registers -/

/-- The value held at register key `k`; a register never written holds its reset value. -/
def State.rd (s : State) (k : Nat) : Word := s.regs.get (regReset k) k

/-- Set the register at key `k`. -/
def State.wr (s : State) (k : Nat) (v : Word) : State := { s with regs := s.regs.set (regReset k) k v }

/-- Field [hi:lo] of the register at `k`. -/
def State.fld (s : State) (k hi lo : Nat) : Nat := bits (s.rd k) hi lo

/-- Set field [hi:lo] of the register at `k`. -/
def State.setFld (s : State) (k hi lo v : Nat) : State := s.wr k (setBits (s.rd k) hi lo v)

/-- A one-bit field. -/
def State.bit (s : State) (k i : Nat) : Bool := s.fld k i i = 1
def State.setBit (s : State) (k i : Nat) (b : Bool) : State := s.setFld k i i (if b then 1 else 0)

/-- Add to a 32-bit counter that saturates at 0xFFFF_FFFF. -/
def State.count (s : State) (k n : Nat) : State := s.wr k (BitVec.ofNat 64 (min ((s.rd k).toNat + n) 0xFFFFFFFF))

/-- Add to a 64-bit account that saturates at all ones (R382). -/
def State.count64 (s : State) (k n : Nat) : State := s.wr k (BitVec.ofNat 64 (min ((s.rd k).toNat + n) (2 ^ 64 - 1)))

/-- A 64-bit counter adds `n`. -/
def State.add64 (s : State) (k n : Nat) : State := s.wr k (s.rd k + BitVec.ofNat 64 n)

/-- Global event `ev` of source `src` occurs (R443). -/
def State.globalEvent (s : State) (src ev n : Nat) : State :=
  if n = 0 ∨ ¬ s.bit R.obsCtrl 0 then s
  else (List.range 16).foldl (fun (st : State) i =>
    let g := st.rd (R.obsGsel i)
    if bits g 31 31 = 1 ∧ bits g 5 0 = src ∧ bits g 11 8 = ev then st.add64 (R.obsGcnt i) n else st) s

/-- The request of a page (R555). -/
def State.pageRequest (s : State) (pg : Nat) : Bool :=
  (s.rd (R.hdrIntStatus pg) &&& s.rd (R.hdrIntEnable pg)) != 0#64

/-- Send the message of MSI-X vector `v` (R504): a masked vector becomes pending; a link that is down loses it. -/
def State.msixSend (s : State) (v : Nat) : State :=
  let e := s.host.msix.get (BitVec.ofNat 128 (2 ^ 96)) v
  if bits e 96 96 = 1 then
    if s.host.pba.contains v then s else { s with host := { s.host with pba := s.host.pba ++ [v] } }
  else if s.fld R.hostStatus 1 0 < 2 then s
  else
    let m := (bits e 63 0, (List.range 4).map fun i => BitVec.ofNat 8 (bits e (71 + 8 * i) (64 + 8 * i)))
    { s with host := { s.host with out := s.host.out ++ [m] } }

/-- A page's request has risen since `before` (R555): one message on HOST.INT_VEC. -/
def State.noteRequest (s : State) (pg : Nat) (before : Bool) : State :=
  if s.pageRequest pg ∧ ¬ before then s.msixSend (s.fld R.hostIntVec 10 0) else s

/-- A hardware event sets bit `i` of a page's INT_STATUS (R554); the page number is that of Table 21-1. -/
def State.intEvent (s : State) (pg i : Nat) : State :=
  (s.setBit (R.hdrIntStatus pg) i true).noteRequest pg (s.pageRequest pg)

/-! ### Units (R13) -/

def unitWidth (u : Nat) : Nat :=
  if u < 128 then 1 else if u < 160 then 4 else if u < 168 then 16 else if u < 170 then 64 else 128
def unitLevel (u : Nat) : Nat :=
  if u < 128 then 0 else if u < 160 then 1 else if u < 168 then 2 else if u < 170 then 3 else 4
def unitIndex (u : Nat) : Nat :=
  if u < 128 then u else if u < 160 then u - 128 else if u < 168 then u - 160 else if u < 170 then u - 168 else 0
def unitFirst (u : Nat) : Nat := unitIndex u * unitWidth u
/-- The active cores of a unit, in order. -/
def unitCores (u : Nat) : List Nat := (List.range (unitWidth u)).map (unitFirst u + ·)
/-- Two units overlap when one contains the other or they are the same (R374). -/
def overlap (u v : Nat) : Bool :=
  unitFirst u < unitFirst v + unitWidth v && unitFirst v < unitFirst u + unitWidth u
/-- Unit `u` contains core `c`. -/
def unitHas (u c : Nat) : Bool := unitFirst u ≤ c && c < unitFirst u + unitWidth u
/-- The units that contain core `c`, narrowest first. -/
def unitsOf (c : Nat) : List Nat := [c, 128 + c / 4, 160 + c / 16, 168 + c / 64, 170]

/-! ### Jobs and cores -/

def State.core (s : State) (c : Nat) : Core := s.cores.get {} c
def State.setCore (s : State) (c : Nat) (x : Core) : State := { s with cores := s.cores.set {} c x }
def State.modCore (s : State) (c : Nat) (f : Core → Core) : State := s.setCore c (f (s.core c))
def State.modEng (s : State) (c : Nat) (e : EngId) (f : Engine → Engine) : State :=
  s.modCore c fun x => x.setEng e (f (x.eng e))

/-- UD_STATE.STATE: 0 idle, 1 running, 2 parked, 3 out of service (Table 1-3). -/
def State.unitState (s : State) (u : Nat) : Nat := s.fld (R.udState u) 1 0
def State.job (s : State) (u : Nat) : Job := s.jobs.get {} u
def State.setJob (s : State) (u : Nat) (j : Job) : State := { s with jobs := s.jobs.set {} u j }
/-- A job runs or is parked on the unit. -/
def State.hasJob (s : State) (u : Nat) : Bool := s.unitState u = 1 || s.unitState u = 2
/-- The unit whose job core `c` runs. -/
def State.unitOf (s : State) (c : Nat) : Option Nat := (unitsOf c).find? (s.hasJob ·)

/-- Every PEND count of a core is 0 (R131). -/
def Core.drained (x : Core) : Bool := x.mx.pend == 0 && x.ve.pend == 0 && x.ld.pend == 0 && x.st.pend == 0

/-- Every core of a unit is DRAINED. -/
def State.unitDrained (s : State) (u : Nat) : Bool := (unitCores u).all fun c => (s.core c).drained

/-- The units that contain `u` or are contained in it. -/
def unitsOver (u : Nat) : List Nat := (List.range 171).filter fun v => v != u && overlap u v

/-- Registers go back to their reset values. -/
def State.clearRegs (s : State) (ks : List Nat) : State := ks.foldl (fun (st : State) k => st.wr k (regReset k)) s

/-- STATE, CTX and CTX_VALID of a unit's descriptor, and BLOCKED of every unit that overlaps it (R22). -/
def State.setUnit (s : State) (u st : Nat) (ctx : Option Nat) : State :=
  let s := s.setFld (R.udState u) 1 0 st
  let s := s.setFld (R.udState u) 24 16 (ctx.getD 0)
  let s := s.setBit (R.udState u) 31 ctx.isSome
  (unitsOver u).foldl (fun (z : State) v => z.setBit (R.udState v) 2 ((unitsOver v).any z.hasJob)) s

/-! ### Bytes of a table: little-endian words -/

/-- `n` bytes at `a`, little-endian (R10). -/
def Tab.readLE (t : Tab Byte) (a : Nat) : Nat → Nat
  | 0 => 0
  | n + 1 => (t.get 0 a).toNat + 256 * Tab.readLE t (a + 1) n

/-- Write the low `n` bytes of `v` at `a`, little-endian. -/
def Tab.writeLE (t : Tab Byte) (a : Nat) : Nat → Nat → Tab Byte
  | 0, _ => t
  | n + 1, v => Tab.writeLE (t.set 0 a (BitVec.ofNat 8 v)) (a + 1) n (v / 256)

/-- Write a list of bytes at `a`. -/
def Tab.writeBytes (t : Tab Byte) (a : Nat) : List Byte → Tab Byte
  | [] => t
  | b :: bs => Tab.writeBytes (t.set 0 a b) (a + 1) bs

/-- `n` bytes at `a`. -/
def Tab.readBytes (t : Tab Byte) (a n : Nat) : List Byte := (List.range n).map fun i => t.get 0 (a + i)

/-- A list in chunks of `n`. -/
def chunks {α : Type} (n : Nat) (l : List α) : Nat → List (List α)
  | 0 => []
  | f + 1 => if l.isEmpty then [] else l.take n :: chunks n (l.drop n) f

/-- The little-endian number of a list of bytes. -/
def leNat : List Byte → Nat
  | [] => 0
  | b :: bs => b.toNat + 256 * leNat bs

/-- The `n` little-endian bytes of a number. -/
def natLE : Nat → Nat → List Byte
  | 0, _ => []
  | n + 1, v => BitVec.ofNat 8 v :: natLE n (v / 256)

/-- Every entry with key in [lo, hi) removed. -/
def Tab.clearRange {α : Type} (t : Tab α) (lo hi : Nat) : Tab α := t.filter fun e => e.1 < lo || hi ≤ e.1

/-! ### Scratchpads (R186, R201–R203) -/

/-- The key of byte `a` of core `c`'s scratchpad. -/
def spadKey (c a : Nat) : Nat := c * 524288 + a

/-- Health of a 64-bit word of a scratchpad: 0 good, 1 a correctable error, 2 uncorrectable or poisoned. -/
def State.spadHealth (s : State) (c a : Nat) : Nat := s.spadEcc.get 0 (spadKey c (a / 8 * 8))
def State.setSpadHealth (s : State) (c a h : Nat) : State :=
  { s with spadEcc := s.spadEcc.set 0 (spadKey c (a / 8 * 8)) h }

/-- The 8-aligned words that bytes [a, a+n) touch. -/
def wordsOf (a n : Nat) : List Nat :=
  if n = 0 then [] else (List.range ((a + n - 1) / 8 - a / 8 + 1)).map fun i => (a / 8 + i) * 8

/-! ### What the sparing thresholds look at (R393) -/

/-- The physical slot that serves core `c` (R14, Table 1-2), as 5·pod + slot. -/
def State.slotOf (s : State) (c : Nat) : Nat :=
  5 * (c / 4) + s.fld (R.podSlotMap (c / 4)) (3 * (c % 4) + 2) (3 * (c % 4))

/-- An observation of Table 14-6: kinds 0 scratchpad corrected read, 1 SPAD_ECC, 2 PARK_TIMEOUT (by slot),
3 ARRAY_PARITY (by column), 5 margin alarm (by slot), 6 corrected word (by row), 7 uncorrectable word found by
scrub (by row), 8 corrected word (by tier), 9 card-store uncorrectable word. -/
def State.observe (s : State) (kind key : Nat) : State :=
  { s with recov := { s.recov with events := s.recov.events ++ [(kind, key, (s.rd R.obsLtime).toNat)] } }

/-- A PMC selection passes an event: EN, code, format filter (none: the event has no format), tag filters. -/
def pmcPasses (sel : Word) (ev : Nat) (fmt : Option Nat) (tag : Option (Nat × Nat)) : Bool :=
  bits sel 63 63 == 1 && bits sel 7 0 == ev
    && (bits sel 13 13 == 0 || fmt == some (bits sel 12 8))
    && (bits sel 14 14 == 0 || tag.map (·.1) == some (bits sel 31 16))
    && (bits sel 15 15 == 0 || tag.map (·.2) == some (bits sel 47 32))

/-- Core event `ev` occurs on core `c` with increment `n` (R440, R441, R444). -/
def State.coreEvent (s : State) (c ev n : Nat) (fmt : Option Nat) (tag : Option (Nat × Nat)) : State :=
  if n = 0 then s
  else
    let j? := (s.unitOf c).map s.job
    let tag := match j? with | some j => some (tag.getD (j.card.layer, j.card.oper)) | none => none
    let s := (List.range 8).foldl (fun (st : State) i =>
      if pmcPasses (st.rd (R.corePmcSel c i)) ev fmt tag then st.add64 (R.corePmc c i) n else st) s
    match j? with
    | some j =>
      let p := j.profile
      if bits p 38 38 = 1 ∧ (bits p 37 37 = 0 ∨ fmt = some (bits p 36 32)) then
        (List.range 4).foldl (fun (st : State) k =>
          if bits p (8 * k + 7) (8 * k) = ev then st.add64 (R.coreCpmc c k) n else st) s
      else s
    | none => s

/-- A corrected or uncorrectable word is counted, flagged and recorded (R201, R202, Table 7-8). -/
def State.noteSpadEcc (s : State) (c w : Nat) : State :=
  let h := s.spadHealth c w
  if h = 0 then s
  else
    let s := s.count (if h = 1 then R.spadEccCeCnt c else R.spadEccUeCnt c) 1
    let s := s.intEvent (256 + c) (if h = 1 then 0 else 1)
    let s := if h = 1 then (s.coreEvent c 0x42 1 none none).observe 0 (s.slotOf c) else s
    let k := spadKey c (w / 8 * 8)
    let s := if h = 1 ∧ ¬ s.spadOwed.contains k then { s with spadOwed := s.spadOwed ++ [k] } else s
    s.wr (R.spadEccLast c) (BitVec.ofNat 64
      (w % 512 / 8 + w / 512 % 64 * 64 + w / 32768 % 16 * 4096 + (if h = 1 then 0 else 65536) + 131072))

/-- The words of one access: each is counted once, and an uncorrectable one outranks a corrected one in ECC_LAST
(R201, Table 7-8). -/
def State.noteWords (s : State) (c : Nat) (ws : List Nat) : State :=
  (ws.filter (fun w => s.spadHealth c w = 1) ++ ws.filter fun w => s.spadHealth c w = 2).foldl
    (fun (st : State) w => st.noteSpadEcc c w) s

/-- The first uncorrectable word of an access. -/
def State.badWord (s : State) (c : Nat) (ws : List Nat) : Option Nat := ws.find? fun w => s.spadHealth c w = 2

/-- The check that a read makes of the words it touches (R201): counts and whether one is uncorrectable. -/
def State.spadCheck (s : State) (c a n : Nat) : State × Bool :=
  (s.noteWords c (wordsOf a n), (s.badWord c (wordsOf a n)).isSome)

/-- `n` bytes of core `c`'s scratchpad at `a`, as a number. -/
def State.spadRead (s : State) (c a n : Nat) : Nat := s.spad.readLE (spadKey c a) n
def State.spadBytes (s : State) (c a n : Nat) : List Byte := s.spad.readBytes (spadKey c a) n

/-- One write access to a scratchpad, byte by byte address: a partly covered word is read, counted and
merged, an uncorrectable old word leaves the merged word poisoned, and a wholly covered word becomes good
(R202). -/
def State.spadScatter (s : State) (c : Nat) (ps : List (Nat × Byte)) : State :=
  let ws := (ps.map fun p => p.1 / 8 * 8).eraseDups
  let whole (w : Nat) : Bool := (List.range 8).all fun j => ps.any fun p => p.1 == w + j
  let s := s.noteWords c (ws.filter fun w => !whole w)
  let s := ws.foldl (fun (st : State) w =>
    if st.spadHealth c w = 1 ∨ whole w then st.setSpadHealth c w 0 else st) s
  { s with spad := ps.foldl (fun t p => t.set 0 (spadKey c p.1) p.2) s.spad }

/-- Write bytes at consecutive addresses. -/
def State.spadWrite (s : State) (c a : Nat) (bs : List Byte) : State :=
  s.spadScatter c (bs.zipIdx.map fun (b, i) => (a + i, b))

/-- Words take the bit errors that came from outside since the last access. -/
def State.upset (s : State) (c : Nat) (us : List Upset) : State :=
  us.foldl (fun st u => if st.spadHealth c u.addr = 2 then st
    else st.setSpadHealth c u.addr (if u.double then 2 else 1)) s

/-! ### Sync flags (R113): homes in the FLAG registers -/

/-- Flag `f` of core `c` (0–63 core flags, 64–95 pod flags). -/
def State.flag (s : State) (c f : Nat) : Nat :=
  if f < 64 then s.fld (R.coreFlag c (f / 2)) (16 * (f % 2) + 15) (16 * (f % 2))
  else s.fld (R.podFlag (c / 4) ((f - 64) / 2)) (16 * (f % 2) + 15) (16 * (f % 2))

def State.setFlag (s : State) (c f v : Nat) : State :=
  if f < 64 then s.setFld (R.coreFlag c (f / 2)) (16 * (f % 2) + 15) (16 * (f % 2)) v
  else s.setFld (R.podFlag (c / 4) ((f - 64) / 2)) (16 * (f % 2) + 15) (16 * (f % 2)) v

end Sys2Proof.Machine
end

