-- ==== Sys2Proof/Machine/Queues.lean ====
section
/-! DEFINITION. Cards and rings: the primitive operations of the queue manager (R237–R249). -/

namespace Sys2Proof

/-- The idle card (R242). -/
def idleCard : Card := Card.put 0 4 4 0xFFFFFFFF

/-- A header (Table 9-5). -/
def mkHeader (tag ctx acc layer oper chip slice : Nat) : Card :=
  let c : Card := Card.put 0 0 1 tag
  let c : Card := setBits c 24 16 ctx
  let c := c.put 4 4 acc
  let c := c.put 8 2 layer
  let c := c.put 10 2 oper
  setBits (setBits c 115 96 chip) 127 116 slice

/-- The tags of Table 9-6 that a card may have; 0x00 is the idle card. -/
def tagKnown (t : Nat) : Bool :=
  t = 1 || t = 2 || t = 3 || (0x10 ≤ t && t ≤ 0x16) || t = 0x20 || t = 0x21 || 0xF0 ≤ t

/-- XFER and XLEAD fields (Table 9-10). -/
def Card.xPool (c : Card) : Nat := bits c 150 144
def Card.xFirst (c : Card) : Nat := bits c 171 160
def Card.xCount (c : Card) : Nat := bits c 182 176
def Card.xBytes (c : Card) : Nat := c.get 24 4
def Card.xRows (c : Card) : Nat := c.get 28 4
def Card.xRowBytes (c : Card) : Nat := c.get 32 4

/-! ### Job card fields (Table 9-7) -/

def Card.jProgram (c : Card) : Nat := c.get 16 2
def Card.jUnit (c : Card) : Nat := c.get 18 1
def Card.jType (c : Card) : Nat := c.get 19 1
def Card.jNumctl (c : Card) : Nat := c.get 20 2
def Card.jPrio (c : Card) : Nat := bits c 177 176
def Card.jShelfSet (c : Card) : Nat := bits c 182 178
def Card.jShelfOp (c : Card) : Nat := bits c 184 183
def Card.jRetire (c : Card) : Bool := bits c 185 185 = 1
def Card.jArg (c : Card) (i : Nat) : Nat := c.get (24 + 8 * i) 8
def Card.jRdyCore (c : Card) : Nat := c.get 56 1
def Card.jRdyFlag (c : Card) : Nat := c.get 57 1
def Card.jPace (c : Card) : Nat := c.get 58 2
def Card.jPool (c : Card) : Nat := bits c 486 480
def Card.jFirst (c : Card) : Nat := bits c 498 487
def Card.jRdyEn (c : Card) : Bool := bits c 499 499 = 1
def Card.jSrcQueue (c : Card) : Nat := bits c 511 500

end Sys2Proof

namespace Sys2Proof.Machine

/-! ### Rings (R239, R240) -/

/-- The class of a queue: fixed by number for unit queues (Table 9-1); 15 where the number is no queue. -/
def State.qClass (s : State) (q : Nat) : Nat :=
  if q < 684 then (if q % 4 = 3 then 15 else q % 4)
  else if 1024 ≤ q ∧ q ≤ 4094 then s.fld (R.qselQcfg q) 4 1 else 15
def State.qEn (s : State) (q : Nat) : Bool := s.bit (R.qselQcfg q) 0
def State.qCtx (s : State) (q : Nat) : Nat := s.fld (R.qselQcfg q) 13 5
def State.qLog (s : State) (q : Nat) : Nat := s.fld (R.qselQring q) 19 16
def State.qDepth (s : State) (q : Nat) : Nat := 2 ^ s.qLog q
def State.qBase (s : State) (q : Nat) : Nat := s.fld (R.qselQring q) 15 0
def State.qWr (s : State) (q : Nat) : Nat := s.fld (R.qselQptr q) 12 0
def State.qRd (s : State) (q : Nat) : Nat := s.fld (R.qselQptr q) 28 16
/-- Cards in the queue. -/
def State.qLen (s : State) (q : Nat) : Nat := (s.qWr q + 2 * s.qDepth q - s.qRd q) % (2 * s.qDepth q)
def State.qEmpty (s : State) (q : Nat) : Bool := s.qWr q = s.qRd q
def State.qFull (s : State) (q : Nat) : Bool := s.qLen q = s.qDepth q
/-- The store index of the n-th position of the ring. -/
def State.qSlot (s : State) (q n : Nat) : Nat := s.qBase q + n % s.qDepth q
/-- The cards in the queue, head first. -/
def State.qCards (s : State) (q : Nat) : List Card :=
  (List.range (s.qLen q)).map fun i => s.qm.store.get 0 (s.qSlot q (s.qRd q + i))
def State.qHead (s : State) (q : Nat) : Option Card := (s.qCards q).head?

/-- The words of a stored card. -/
def cardWords (k : Nat) : List Nat := (List.range 8).map fun w => 8 * k + w

/-- The stored card at `k` takes errors from outside: base-4 digit `w` of `err` says of its word `w` 1 correctable, 2
uncorrectable (R243). -/
def State.cardUpset (s : State) (k err : Nat) : State :=
  { s with qm := { s.qm with health := (List.range 8).foldl (fun (t : Tab Nat) w =>
      t.set 0 (8 * k + w) (max (t.get 0 (8 * k + w)) (min (err / 4 ^ w % 4) 2))) s.qm.health } }

/-- The head card's words take errors from outside. -/
def State.headUpset (s : State) (q err : Nat) : State :=
  if err = 0 ∨ s.qEmpty q then s else s.cardUpset (s.qSlot q (s.qRd q)) err

/-- The words of the stored card at `k` with a given health. -/
def State.cardBad (s : State) (k h : Nat) : Nat := ((cardWords k).filter fun w => s.qm.health.get 0 w = h).length

/-- Write a card at WR and advance it. -/
def State.qPush (s : State) (q : Nat) (c : Card) : State :=
  let k := s.qSlot q (s.qWr q)
  let s := { s with qm := { s.qm with
    store := s.qm.store.set 0 k c
    health := (cardWords k).foldl (fun (t : Tab Nat) w => t.set 0 w 0) s.qm.health
    entered := s.qm.entered.set 0 q (s.qm.entered.get 0 q + 1) } }
  let s := if s.qEmpty q then { s with qm := { s.qm with headSince := s.qm.headSince.set 0 q (s.rd R.fabTime).toNat } } else s
  s.setFld (R.qselQptr q) 12 0 ((s.qWr q + 1) % (2 * s.qDepth q))

/-- Advance RD past the head. -/
def State.qPop (s : State) (q : Nat) : State :=
  let s := { s with qm := { s.qm with headSince := s.qm.headSince.set 0 q (s.rd R.fabTime).toNat } }
  s.setFld (R.qselQptr q) 28 16 ((s.qRd q + 1) % (2 * s.qDepth q))

/-- RD := WR (R265 step 1). -/
def State.qClear (s : State) (q : Nat) : State := s.setFld (R.qselQptr q) 28 16 (s.qWr q)

/-- Offer a card to an enabled queue with room; `none` where it is full or disabled. -/
def State.qOffer (s : State) (q : Nat) (c : Card) : Option State :=
  if s.qEn q && !s.qFull q then some (s.qPush q c) else none

end Sys2Proof.Machine
end

