-- ==== Sys2Proof/Machine/StageMem.lean ====
section
/-! DEFINITION. Stage memory: decoding, granules, protection classes, parity stripes, reads and writes
(R207–R217). -/

namespace Sys2Proof.Machine

/-! ### Decoding (Table 8-1, R208, R214) -/

def smTier (a : Nat) : Nat := 4 * (a / 2 ^ 33 % 2) + a / 512 % 4
def smChannel (a : Nat) : Nat := a / 2048 % 32
def smBankIn (a : Nat) : Nat := a / 65536 % 8
def smBank (a : Nat) : Nat := 8 * smChannel a + smBankIn a
def smRow (a : Nat) : Nat := a / 2 ^ 19 % 16384
def smWord (a : Nat) : Nat := a % 512 / 8
def smGranule (a : Nat) : Nat := a / 2 ^ 25 % 512

/-- The granule that holds a row of every bank of a tier (R208). -/
def rowGranule (tier row : Nat) : Nat := 256 * (tier / 4) + row / 64

/-- The size of stage memory in bytes (R30). -/
def smSize : Nat := 2 ^ 34

/-- The local address of byte `w`·8 of a row (the inverse of Table 8-1). -/
def smAddr (tier bank row word : Nat) : Nat :=
  tier / 4 * 2 ^ 33 + row * 2 ^ 19 + bank % 8 * 65536 + bank / 8 * 2048 + tier % 4 * 512 + word * 8

/-- The eight member words of the stripe of word `a` (R214). -/
def stripeMembers (a : Nat) : List Nat :=
  let base := a - smChannel a % 8 * 2048
  (List.range 8).map fun k => base + k * 2048

/-- The key of the stripe's parity word. -/
def parityKey (a : Nat) : Nat := 2 ^ 40 + (a - smChannel a % 8 * 2048)
/-- The bank code of the stripe's parity bank: 256 + 4b + m. -/
def parityBank (a : Nat) : Nat := 256 + 4 * smBankIn a + smChannel a / 8

/-! ### Granules (R211–R213) -/

def State.granOwner (s : State) (g : Nat) : Nat := s.fld (R.smemcGranule g) 8 0
def State.granValid (s : State) (g : Nat) : Bool := s.bit (R.smemcGranule g) 9
/-- CLASS: 0 W, 1 A, 2 Q (Table 8-4). -/
def State.granClass (s : State) (g : Nat) : Nat := s.fld (R.smemcGranule g) 11 10
def State.granBusy (s : State) (g : Nat) : Bool := s.bit (R.smemcGranule g) 12
/-- The class of the granule that holds address `a`. -/
def State.memClass (s : State) (a : Nat) : Nat := s.granClass (smGranule a)
/-- The granules that bytes [a, a + n) touch. -/
def granulesOf (a n : Nat) : List Nat :=
  if n = 0 then [] else (List.range ((a + n - 1) / 2 ^ 25 - a / 2 ^ 25 + 1)).map fun i => a / 2 ^ 25 + i
/-- Bytes [a, a + n) lie in stage memory, in granules that context `x` owns (R211). -/
def State.owned (s : State) (x a n : Nat) : Bool :=
  a + n ≤ smSize && (granulesOf a n).all fun g => s.granValid g && s.granOwner g == x
/-- Some of the granules that bytes [a, a + n) touch are being zero-filled (R212). -/
def State.fillBusy (s : State) (a n : Nat) : Bool := (granulesOf a n).any fun g => s.granValid g && s.granBusy g
/-- An access of context `x` reaches the bytes: they are its own and none is being zero-filled (R211, R212). -/
def State.inPartition (s : State) (x a n : Nat) : Bool := s.owned x a n && !s.fillBusy a n

/-! ### Word health -/

/-- A bank whose contents are lost until rebuilt: failed without a spare, or being rebuilt with this row not yet
written (R220, R221). -/
def State.rowLost (s : State) (tier bank row : Nat) : Bool :=
  s.smem.failed.contains (tier, bank) || s.smem.lostRows.contains (tier, bank, row) ||
  (match s.smem.rebuilds.get none tier with
   | some r => r.bank == bank && r.row ≤ row && !r.written.contains row
   | none => false)

/-- Health of the data word at `a`. -/
def State.memHealth (s : State) (a : Nat) : Nat :=
  if s.rowLost (smTier a) (smBank a) (smRow a) then 2 else s.smem.ecc.get 0 (a / 8 * 8)
/-- Health of the parity word of the stripe of `a`. -/
def State.parityHealth (s : State) (a : Nat) : Nat :=
  if s.rowLost (smTier a) (parityBank a) (smRow a) then 2 else s.smem.ecc.get 0 (parityKey (a / 8 * 8))

def State.setMemHealth (s : State) (k h : Nat) : State :=
  { s with smem := { s.smem with ecc := s.smem.ecc.set 0 k h } }

/-- An uncorrectable class W word can be rebuilt from its stripe (R216). -/
def State.rebuildable (s : State) (a : Nat) : Bool :=
  s.memClass a == 0 && s.parityHealth a != 2 &&
  (stripeMembers (a / 8 * 8)).all fun m => m == a / 8 * 8 || s.memHealth m != 2

/-- Global event `ev` of the tiers that bytes [a, a + n) lie in (Table 16-2): bytes by tier. -/
def State.tierBytes (s : State) (ev a : Nat) : Nat → Nat → State
  | _, 0 => s
  | n, f + 1 =>
    if n = 0 then s
    else
      let k := min n (512 - a % 512)
      (s.globalEvent (32 + smTier a) ev k).tierBytes ev (a + k) (n - k) f

/-- The number of a row among all banks of a tier: 290 banks as `ERR_LAST` codes them (Table 8-8). -/
def rowKey (tier bank row : Nat) : Nat := (tier * 290 + bank) * 16384 + row

/-- The data or parity bank of a health key: a word's address, or 2^40 plus its stripe's (R214). -/
def keyBank (k : Nat) : Nat := if k < 2 ^ 40 then smBank k else parityBank (k - 2 ^ 40)
def State.keyHealth (s : State) (k : Nat) : Nat := if k < 2 ^ 40 then s.memHealth k else s.parityHealth (k - 2 ^ 40)
/-- An uncorrectable word of class W, data or parity, can be made again from the rest of its stripe (R216). -/
def State.keyRebuilds (s : State) (k : Nat) : Bool :=
  if k < 2 ^ 40 then s.rebuildable k
  else s.memClass (k - 2 ^ 40) == 0 && (stripeMembers (k - 2 ^ 40)).all fun m => s.memHealth m != 2

/-- The spare bank that serves a bank, or is being written to serve it (Table 8-8). -/
def State.spareOf (s : State) (t b : Nat) : Option Nat :=
  [0, 1].find? fun k => s.fld (R.smemSpareBank t k) 8 0 == b
    && (s.fld (R.smemSpareBank t k) 10 9 == 1 || s.fld (R.smemSpareBank t k) 10 9 == 2)

/-- The bank that holds a row of a bank, coded as in ERR_LAST: a spare where the row stands in it already (R220). -/
def State.physBank (s : State) (t b row : Nat) : Nat :=
  match s.spareOf t b with
  | some k => match s.smem.rebuilds.get none t with
    | some r => if r.bank = b ∧ r.row ≤ row ∧ ¬ r.written.contains row then b else 288 + k
    | none => 288 + k
  | none => b

/-- Count and record a corrected or uncorrectable word, by its key (R213, Table 8-8). -/
def State.noteMemEcc (s : State) (k h : Nat) : State :=
  if h = 0 then s
  else
    let a := k % 2 ^ 40
    let t := smTier a
    let bank := s.physBank t (keyBank k) (smRow a)
    let s := s.count (if h = 1 then R.smemCeCnt t else R.smemUeCnt t) 1
    let s := if h = 1 then s.globalEvent (32 + t) 5 1 else s
    let s := s.intEvent (384 + t) (if h = 1 then 0 else 1)
    let s := if h = 1 then (s.observe 6 (rowKey t bank (smRow a))).observe 8 t else s
    s.wr (R.smemErrLast t) (BitVec.ofNat 64 (bank + smRow a * 512 + (if h = 1 then 0 else 2 ^ 23) + 2 ^ 24))

/-- Count and record the bad words among those that one access reads, row by row, an uncorrectable word of a row after its
correctable ones (Table 8-8). -/
def State.noteWordsBad (s : State) (ks : List Nat) : State :=
  ((ks.map (· / 512)).eraseDups).foldl (fun (st : State) r =>
    let mine := ks.filter fun k => k / 512 = r
    (mine.filter (fun k => s.keyHealth k ≠ 2) ++ mine.filter fun k => s.keyHealth k = 2).foldl
      (fun (z : State) k => z.noteMemEcc k (s.keyHealth k)) st) s

/-- A write-back is owed to a word (R213, R216). -/
def State.oweWriteBack (s : State) (w : Nat) : State :=
  if s.smem.owed.contains w then s else { s with smem := { s.smem with owed := s.smem.owed ++ [w] } }

/-- A row of class W with an uncorrectable word is rebuilt: every word of it that can be is rebuilt and owed a
write-back; the row counts once (R216). -/
def State.rebuildRow (s : State) (a : Nat) : State :=
  let row := (List.range 64).map fun i => a / 512 * 512 + 8 * i
  let ws := row.filter fun w => s.memHealth w = 2 && s.rebuildable w
  if ws = [] then s
  else
    let t := smTier a
    let s := ((s.count (R.smemReconCnt t) 1).globalEvent (32 + t) 4 1).intEvent (384 + t) 2
    ws.foldl (fun st w => st.oweWriteBack w) s

/-- The check that a read makes of the words it covers: corrections are counted and owed a write-back, a class W row with an
uncorrectable word is rebuilt, and the first word that cannot be delivered is named (R213, R216, R217). -/
def State.memCheck (s : State) (a n : Nat) : State × Option Nat :=
  let bad := (wordsOf a n).filter fun w => s.memHealth w ≠ 0
  let lost := bad.find? fun w => s.memHealth w = 2 && !s.rebuildable w
  let rows := (bad.filter fun w => s.memHealth w = 2 && s.memClass w = 0).map (· / 512 * 512)
  let s' := (bad.filter fun w => s.memHealth w = 1).foldl State.oweWriteBack (s.noteWordsBad bad)
  (rows.eraseDups.foldl State.rebuildRow s', lost)

/-- `n` bytes of stage memory. -/
def State.memBytes (s : State) (a n : Nat) : List Byte := Tab.readBytes s.mem a n

/-- Read `n` bytes with the checks of `memCheck`. -/
def State.memRead (s : State) (a n : Nat) : State × List Byte × Option Nat :=
  let bs := s.memBytes a n
  let (s, lost) := (s.tierBytes 1 a n (n / 512 + 2)).memCheck a n
  (s, bs, lost)

/-- The row of a bank under rebuild that a write reaches is in the spare from then on; its other words are still
to be rebuilt or read as poison (R220 steps 2 and 3). -/
def State.rowWritten (s : State) (a : Nat) : State :=
  if s.smem.lostRows.contains (smTier a, smBank a, smRow a) then
    let s := ((List.range 64).map fun i => a / 512 * 512 + 8 * i).foldl (fun st w => st.setMemHealth w 2) s
    { s with smem := { s.smem with lostRows := s.smem.lostRows.erase (smTier a, smBank a, smRow a) } }
  else match s.smem.rebuilds.get none (smTier a) with
  | some r =>
    if r.bank = smBank a ∧ r.row ≤ smRow a ∧ ¬ r.written.contains (smRow a) then
      let s := ((List.range 64).map fun i => a / 512 * 512 + 8 * i).foldl (fun st w => st.setMemHealth w 2) s
      let r' : Rebuild := { r with written := r.written ++ [smRow a] }
      { s with smem := { s.smem with rebuilds := s.smem.rebuilds.set none (smTier a) (some r') } }
    else s
  | none => s

/-- The parity word of a written class W word is read, modified and written: its error is counted, and it stays poisoned where
it is, or where the word's old value is lost (R215, R202, log 118). -/
def State.parityUpdate (s : State) (w : Nat) (known : Bool) : State :=
  let k := parityKey w
  if s.rowLost (smTier w) (parityBank w) (smRow w) then s
  else
    let s := s.noteMemEcc k (s.keyHealth k)
    if ¬ known then s.setMemHealth k 2 else if s.keyHealth k = 1 then s.setMemHealth k 0 else s

/-- A write's effect on the health of one word: a wholly covered word becomes good, one that is merged into keeps its poison
(R202, R213). -/
def State.wordWritten (s : State) (whole : Bool) (w : Nat) : State :=
  let known : Bool := s.memHealth w != 2 || s.rebuildable w
  let s := if s.memHealth w = 1 ∨ (whole ∧ s.memHealth w = 2) then s.setMemHealth w 0 else s
  if s.memClass w = 0 then s.parityUpdate w known else s

/-- Write bytes: the old word is read, and its error counted, where it is partly covered or of class W, whose parity the write
updates (R202, R213, R215). -/
def State.memWrite (s : State) (a : Nat) (bs : List Byte) : State :=
  let n := bs.length
  let ws := wordsOf a n
  let whole (w : Nat) : Bool := a ≤ w && w + 8 ≤ a + n
  let s := s.noteWordsBad (ws.filter fun w => s.memHealth w ≠ 0 && (!whole w || s.memClass w == 0))
  let s := ws.foldl (fun (st : State) w => (st.rowWritten w).wordWritten (whole w) w) s
  let s := s.tierBytes 2 a n (n / 512 + 2)
  { s with mem := Tab.writeBytes s.mem a bs }

/-- Words take bit errors from outside; `addr` above 2^40 names a parity word. -/
def State.memUpset (s : State) (us : List Upset) : State :=
  us.foldl (fun st u =>
    let k := u.addr / 8 * 8
    if st.smem.ecc.get 0 k = 2 then st else st.setMemHealth k (if u.double then 2 else 1)) s

/-! ### Element counts and compare-and-swap at the memory (R195–R199, R222, R223) -/

/-- Elements of a packing unit for counts: an EXACT record is one (R196). -/
def countPer (f : Fmt) : Nat := if f.bits = 4 then 2 else if f.bits = 6 then 4 else 1
def countBytes (f : Fmt) : Nat := f.bits * countPer f / 8

/-- A scalar element of a format as Table 7-4 tests it: MX formats by element type, MXINT8 as INT8. -/
def testVal (f : Fmt) (p : Nat) : FVal := if f = .mxint8 then Fmt.decode .int8 p else f.decode p

/-- The test of Table 7-4 on one element pattern; `sv` is the value register. -/
def countTest (f : Fmt) (k : CntKind) (sv p : Nat) : Bool :=
  match f with
  | .exact =>
    let sum := signed 176 p
    let v := signed 64 sv
    match k with
    | .eq => sum == v | .gt => v < sum | .lt => sum < v
    | .nan => p / 2 ^ 187 % 2 == 1 | .inf => p / 2 ^ 186 % 2 == 1
    | .nonfin => p / 2 ^ 187 % 2 == 1 || p / 2 ^ 186 % 2 == 1
  | f =>
    let x := testVal f p
    let v := testVal f (sv % 2 ^ f.bits)
    match k with
    | .eq => x.feq v | .gt => v.lt x | .lt => x.lt v
    | .nan => x.isNan | .inf => x.isInf | .nonfin => x.isNan || x.isInf

/-- How many elements of a run of packing units meet the test. -/
def countRun (f : Fmt) (k : CntKind) (sv : Nat) (bs : List Byte) : Nat :=
  let per := countPer f
  let nb := countBytes f
  (chunks nb bs (bs.length + 1)).foldl (fun n u =>
    let v := leNat u
    n + ((List.range per).filter fun j => countTest f k sv (v / 2 ^ (f.bits * j) % 2 ^ f.bits)).length) 0

end Sys2Proof.Machine
end

