-- ==== Sys2Proof/Machine/Observe.lean ====
section
/-! DEFINITION. Counting events and writing records: core events (R440, R441, R444), global events (R443), the
record buffers (R445–R447), the ledger's fault ring (R458). -/

namespace Sys2Proof.Machine

/-! ### Counters -/

/-- The codes of Table 16-1. -/
def eventCode (e : Nat) : Bool :=
  (1 ≤ e && e ≤ 5) || (0x10 ≤ e && e ≤ 0x17) || (0x20 ≤ e && e ≤ 0x23) || (0x30 ≤ e && e ≤ 0x33)
    || (0x40 ≤ e && e ≤ 0x42)

/-! ### Records (R445–R447, Tables 16-3 and 16-4) -/

/-- A record's bytes: header, then fields as (bytes, value), zero-filled to LEN64 units. -/
def recordBytes (kind len64 src seq time : Nat) (body : List (Nat × Nat)) : List Byte :=
  let b := natLE 1 kind ++ natLE 1 len64 ++ natLE 2 src ++ natLE 4 seq ++ natLE 8 time
    ++ body.flatMap fun p => natLE p.1 p.2
  b ++ List.replicate (64 * len64 - b.length) 0

/-- Place a record in a ring of `size` bytes at offset `wr`, after a PAD record where it would pass the end: the
bytes to write with their offsets, the next offset, and how many records that is. -/
def ringPlace (size wr kind len64 src seq time : Nat) (body : List (Nat × Nat)) :
    List (Nat × List Byte) × Nat × Nat :=
  let n := 64 * len64
  if wr + n ≤ size then ([(wr, recordBytes kind len64 src seq time body)], (wr + n) % size, 1)
  else
    ([(wr, recordBytes 0 ((size - wr) / 64) src seq time []), (0, recordBytes kind len64 src (seq + 1) time body)],
      n % size, 2)

/-- Write bytes of records into stage memory. -/
def State.ringWrite (s : State) (base : Nat) (ps : List (Nat × List Byte)) : State :=
  ps.foldl (fun (st : State) p => st.memWrite (base + p.1) p.2) s

/-- A record for the privileged buffer, when recording and the buffer are enabled. -/
def State.sysRecord (s : State) (kind len64 src time : Nat) (body : List (Nat × Nat)) : State :=
  if s.bit R.obsCtrl 0 ∧ s.bit R.obsSbufBase 0 then
    let (ps, wr, n) := ringPlace (s.fld R.obsSbufSize 33 12 * 4096) (s.fld R.obsSbufWr 31 0) kind len64 src
      (s.obs.seqS + 1) time body
    let s := s.ringWrite (s.fld R.obsSbufBase 33 12 * 4096) ps
    let s := { s with obs := { s.obs with seqS := s.obs.seqS + n } }
    s.wr R.obsSbufWr (BitVec.ofNat 64 wr)
  else s

/-- A record for the buffer of context `x`. -/
def State.ctxRecord (s : State) (x kind len64 src time : Nat) (body : List (Nat × Nat)) : State :=
  if s.bit R.obsCtrl 0 ∧ s.bit (R.obsselCBufBase x) 0 then
    let (ps, wr, n) := ringPlace (s.fld (R.obsselCBufSize x) 33 12 * 4096) (s.fld (R.obsselCBufWr x) 31 0) kind len64
      src (s.obs.seqC.get 0 x + 1) time body
    let s := s.ringWrite (s.fld (R.obsselCBufBase x) 33 12 * 4096) ps
    let s := { s with obs := { s.obs with seqC := s.obs.seqC.set 0 x (s.obs.seqC.get 0 x + n) } }
    s.wr (R.obsselCBufWr x) (BitVec.ofNat 64 wr)
  else s

def State.ltime (s : State) : Nat := (s.rd R.obsLtime).toNat

/-- The local time of an event of context `x`, and of the job on unit `u` when one is concerned (R447). -/
def State.localTime (s : State) (x u : Nat) : Nat :=
  if u ≤ 170 ∧ s.hasJob u ∧ (s.job u).begun then s.ltime - (s.job u).j0 else s.ltime - s.obs.origin.get 0 x

/-- The FAULT record of a code, in the privileged buffer and the context's (Table 16-4). -/
def State.faultRecord (s : State) (src u : Nat) (ctx : Option Nat) (r : Card) : State :=
  let s := s.sysRecord 2 2 src (s.rd R.fabTime).toNat [(64, r.toNat)]
  match ctx with
  | some x => s.ctxRecord x 2 2 src (s.localTime x u) [(64, (Card.put r 44 8 0).toNat)]
  | none => s

/-- A Chip- or Device-boundary record is copied into the ledger's ring of 256 (R389, R458). -/
def State.ledgerFault (s : State) (r : Card) : State :=
  let l := s.obs.ledger
  { s with obs := { s.obs with ledger := { l with faults := l.faults.set 0 (l.nFaults % 256) r, nFaults := l.nFaults + 1 } } }

/-- Count in a ledger table. -/
def State.modLedger (s : State) (f : Ledger → Ledger) : State := { s with obs := { s.obs with ledger := f s.obs.ledger } }
def bump (t : Tab Nat) (k n : Nat) : Tab Nat := t.set 0 k (t.get 0 k + n)

/-! ### Dump matching (R453) -/

/-- An output operation of core `c` with call number `call` has completed: it is matched against the armed
dump. -/
def State.dumpMatch (s : State) (c iseq call : Nat) (d : Desc) (len : Nat) : State :=
  let cfg := s.rd R.obsDumpCfg
  match s.unitOf c with
  | none => s
  | some u =>
    let j := s.job u
    if bits cfg 10 10 = 1 ∧ j.ctx = bits cfg 8 0 ∧ (bits cfg 9 9 = 1 ∨ j.card.accession = s.fld R.obsDumpAcc 31 0)
        ∧ call = s.fld R.obsDumpCall 47 0 then
      let n := (s.core c).dumpHits + 1
      let s := s.modCore c fun x => { x with dumpHits := n, dumpLast := some (iseq, call, d, len) }
      if n = max 1 (bits cfg 31 16) then
        let s := s.setBit R.obsDumpCfg 10 false
        let s := s.setBit R.obsStatus 1 true
        let s := { s with obs := { s.obs with dumpUnit := some u } }
        if j.parkReqs.contains 2 then s else s.setJob u { j with parkReqs := 2 :: j.parkReqs }
      else s
    else s

end Sys2Proof.Machine
end

