-- ==== Sys2Proof/Machine/Operands.lean ====
section
/-! DEFINITION. Descriptors, their walks and their checks (chapter 5), and how walked bytes form requests
(R154). -/

namespace Sys2Proof.Machine

/-! ### Descriptor fields (Table 5-1) -/

def Desc.f (d : Desc) (word hi lo : Nat) : Nat := bits d (64 * word + hi) (64 * word + lo)
def Desc.setF (d : Desc) (word hi lo v : Nat) : Desc := setBits d (64 * word + hi) (64 * word + lo) v

def Desc.base (d : Desc) : Nat := d.f 0 18 0
def Desc.esize (d : Desc) : Nat := d.f 0 22 20
def Desc.sshift (d : Desc) : Nat := d.f 0 27 24
def Desc.step (d : Desc) : Int := signed 20 (d.f 0 51 32)
def Desc.rbase (d : Desc) : Nat := d.f 1 12 0 * 64
def Desc.rsize (d : Desc) : Nat := d.f 1 29 16 * 64
def Desc.cnt (d : Desc) (n : Nat) : Nat := d.f (2 + n) 15 0 + 1
def Desc.stride (d : Desc) (n : Nat) : Int := signed 20 (d.f (2 + n) 35 16)

/-- Bytes of one element (Table 5-2). -/
def esizeBytes : Nat → Nat
  | 0 => 1 | 1 => 2 | 2 => 4 | 3 => 8 | 4 => 16 | 5 => 32 | 6 => 64 | _ => 3
/-- Alignment that an ESIZE sets (Table 5-2). -/
def esizeAlign : Nat → Nat
  | 0 => 1 | 1 => 2 | 2 => 4 | 3 => 8 | 4 => 16 | 5 => 32 | 6 => 64 | _ => 1

/-- The product of the counts of levels 0 to n − 1. -/
def Desc.prod (d : Desc) : Nat → Nat
  | 0 => 1
  | n + 1 => Desc.prod d n * d.cnt n

/-- T, the iterations of the whole nest (R146). -/
def Desc.total (d : Desc) : Nat := d.prod 6

/-- The walk sum of iteration `i` over levels `n … 5` (R146). -/
def Desc.walkFrom (d : Desc) (k : Nat) (j : Nat) : Nat → Nat → Int
  | _, 0 => 0
  | n, fuel + 1 =>
    ((j % d.cnt n : Nat) : Int) * d.stride n * (2 ^ k : Nat) + Desc.walkFrom d k (j / d.cnt n) (n + 1) fuel

/-- The walk sum of iteration `i`, rolling over after T iterations (R146). -/
def Desc.walk (d : Desc) (k i : Nat) : Int := d.walkFrom k (i % d.total) 0 6

/-- The ring mapping of R146. -/
def Desc.ring (d : Desc) (a : Int) : Int :=
  if d.rsize = 0 then a else (d.rbase : Int) + (a - d.rbase) % (d.rsize : Int)

/-- The scratchpad byte address of iteration `i` (R146). -/
def Desc.addr (d : Desc) (i : Nat) : Nat := (d.ring (d.base + d.walk 0 i)).toNat

/-- map(x) of R157: the ring mapping, or x mod 2¹⁹.  Of a ring that reaches beyond 0x8_0000 the BASE field keeps the low
19 bits, which is the model's choice (log entry 111). -/
def Desc.map (d : Desc) (x : Int) : Nat :=
  if d.rsize = 0 then pat 19 x else (d.ring x).toNat % 2 ^ 19

/-- Byte `j` of the access unit that starts at scratchpad address `a` (R147: a unit continues at the
ring's start). -/
def Desc.unitByte (d : Desc) (a j : Nat) : Nat :=
  if d.rsize = 0 then a + j else (d.ring ((a + j : Nat) : Int)).toNat

/-- The bytes from offset `off` of iteration `i`'s access unit, each with its address. -/
def unitPairs (d : Desc) (i off : Nat) (bs : List Byte) : List (Nat × Byte) :=
  bs.zipIdx.map fun (b, j) => (d.unitByte (d.addr i) (off + j), b)

/-- The wide port that serves scratchpad address `a` (R188). -/
def widePort (a : Nat) : Nat := a / 262144 % 2

/-- The bytes at a list of addresses, read by one access: every word touched is checked once (R201); the address of the
first uncorrectable word, when there is one. -/
def State.gather (s : State) (c : Nat) (as : List Nat) : State × List Byte × Option Nat :=
  let ws := (as.map fun a => a / 8 * 8).eraseDups
  (s.noteWords c ws, as.map fun a => s.spad.get 0 (spadKey c a), s.badWord c ws)

/-- The addresses of bytes [off, off + len) of iteration `i`'s access unit. -/
def Desc.unitAddrs (d : Desc) (i off len : Nat) : List Nat := (List.range len).map fun j => d.unitByte (d.addr i) (off + j)

/-- Read `len` bytes from offset `off` of iteration `i`'s access unit. -/
def State.unitRead (s : State) (c : Nat) (d : Desc) (i off len : Nat) : State × List Byte × Option Nat :=
  s.gather c (d.unitAddrs i off len)

/-- The n-th index of iteration `i` (R146), for the park record. -/
def Desc.idx (d : Desc) (i n : Nat) : Nat := i % d.total / d.prod n % d.cnt n

/-! ### The checks at the start of an operation (R152) -/

/-- What a failed check raises (R152): code, the value that failed, and which of the checks 1 to 3 it was. -/
structure AddrFault where
  code : Nat
  value : Int
  check : Nat
  deriving DecidableEq, Repr

def addrAlign : Nat := 0x3002
def windowBound : Nat := 0x3001
def spadBound : Nat := 0x3003

/-- The lowest and highest offsets of the nest about `base`, the access unit's last byte included. -/
def Desc.extent (d : Desc) (k : Nat) (base : Int) (len : Nat) : Int × Int :=
  (List.range 6).foldl (fun (lo, hi) n =>
    let r := ((d.cnt n - 1 : Nat) : Int) * d.stride n * (2 ^ k : Nat)
    if r < 0 then (lo + r, hi) else (lo, hi + r)) (base, base + len - 1)

def firstBad (al : Nat) (vs : List Int) : Option Int := vs.find? fun v => v % (al : Int) ≠ 0

/-- The checks of a descriptor in a scratchpad role whose access unit has `len` bytes (R152).  Which of several values that
fail one check is recorded is the model's choice (log entry 112): BASE, STEP, the strides from level 0, the unit length;
of an extent its low end first. -/
def Desc.checkNear (d : Desc) (len : Nat) : Option AddrFault :=
  let al := esizeAlign d.esize
  let vals := [(d.base : Int), d.step] ++ (List.range 6).map d.stride
    ++ (if d.rsize = 0 then [] else [(len : Int)])
  match firstBad al vals with
  | some v => some ⟨addrAlign, v, 1⟩
  | none =>
    if d.rsize = 0 then
      let (lo, hi) := d.extent 0 d.base len
      if lo < 0 then some ⟨spadBound, lo, 2⟩ else if 0x7FFFF < hi then some ⟨spadBound, hi, 2⟩ else none
    else if 0x80000 < d.rbase + d.rsize then some ⟨spadBound, (d.rbase + d.rsize : Nat), 3⟩
    else if d.rsize < len then some ⟨spadBound, len, 3⟩ else none

/-- The checks of a descriptor in the far role: offset `off` in a window of `size` bytes (R152, R153, R21).  A stride that
fails is recorded as it is checked, times 2^SSHIFT (log entry 112). -/
def Desc.checkFar (d : Desc) (off size : Nat) (len : Nat) : Option AddrFault :=
  let al := esizeAlign d.esize
  match firstBad al ((off : Int) :: (List.range 6).map (fun n => d.stride n * (2 ^ d.sshift : Nat))) with
  | some v => some ⟨addrAlign, v, 1⟩
  | none =>
    let (lo, hi) := d.extent d.sshift off len
    if lo < 0 then some ⟨windowBound, lo, 2⟩ else if (size : Int) ≤ hi then some ⟨windowBound, hi, 2⟩ else none

/-- The first failing check over several descriptors: checks in the order of R152, the lowest descriptor
number first.  Each entry: descriptor number, role code of Table 14-17, outcome.  Of two roles in which one descriptor
fails the same check, the one listed first is recorded (log entry 112). -/
def firstFault (fs : List (Nat × Nat × Option AddrFault)) : Option (Nat × Nat × AddrFault) :=
  let bad := fs.filterMap fun (n, r, o) => o.map fun a => (n, r, a)
  bad.foldl (fun (best : Option (Nat × Nat × AddrFault)) x =>
    match best with
    | some b => if x.2.2.check < b.2.2.check ∨ (x.2.2.check = b.2.2.check ∧ x.1 < b.1) then some x else some b
    | none => some x) none

/-! ### Writing descriptors (R157, R158) -/

/-- Write one field; the flag says that an out-of-range register value was adjusted (R158). -/
def Desc.write (d : Desc) (f : DField) (v : Int) : Desc × Bool :=
  let u := pat 64 v
  match f with
  | .base => (d.setF 0 18 0 (pat 19 v), v < 0 || 0x7FFFF < v)
  | .esize => (d.setF 0 22 20 u, v < 0 || 7 < v)
  | .sshift => (d.setF 0 27 24 u, v < 0 || 15 < v)
  | .step => (d.setF 0 51 32 (pat 20 v), v < -524288 || 524287 < v)
  | .rbase => (d.setF 1 12 0 (u / 64 % 2 ^ 13), v < 0 || 0x7FFFF < v || v % 64 ≠ 0)
  | .rsize => (d.setF 1 29 16 (u / 64 % 2 ^ 14), v < 0 || 524288 < v || v % 64 ≠ 0)
  | .count n => let w := if v ≤ 0 then 1 else if 65536 < v then 65536 else v.toNat
    (d.setF (2 + n) 15 0 (w - 1), v < 1 || 65536 < v)
  | .stride n => (d.setF (2 + n) 35 16 (pat 20 v), v < -524288 || 524287 < v)

/-- DADD (R157). -/
def Desc.dadd (d : Desc) (v : Int) : Desc := d.setF 0 18 0 (d.map (d.base + v))

/-- The descriptor step of R159. -/
def Desc.stepped (d : Desc) : Desc := d.dadd d.step

/-- The end of the ring, or of the scratchpad where there is none. -/
def Desc.ringEnd (d : Desc) : Nat := if d.rsize = 0 then 0x80000 else d.rbase + d.rsize

/-! ### Requests (R154) -/

/-- The pieces of element bytes [near, near+len) against [far, far+len) that cross no aligned 256-byte block
on either side and not the ring's end (R147, R154); `rend` is the ring's end, `rb` its start. -/
def splitElem (rb rend near far len : Nat) : Nat → List MemReq
  | 0 => []
  | fuel + 1 =>
    let near := if near = rend then rb else near
    let a := min len (min (rend - near) (min (256 - near % 256) (256 - far % 256)))
    if a = len then [{ near, far, len }]
    else { near, far, len := a } :: splitElem rb rend (near + a) (far + a) (len - a) fuel

/-- Join one more piece to the requests so far (latest first) when both sides follow on, no aligned
256-byte block is crossed, and tile and segment stay the same (R151, R154, R196). -/
def joinReq (acc : List MemReq) (r : MemReq) : List MemReq :=
  match acc with
  | p :: t =>
    if p.near + p.len = r.near ∧ p.far + p.len = r.far ∧ r.near % 256 ≠ 0 ∧ r.far % 256 ≠ 0 ∧ p.tile = r.tile
        ∧ p.seg = r.seg then
      { p with len := p.len + r.len, segEnd := r.segEnd } :: t
    else r :: acc
  | [] => [r]

/-- Mark the last request. -/
def markLast (f : MemReq → MemReq) : List MemReq → List MemReq
  | [] => []
  | [r] => [f r]
  | r :: t => r :: markLast f t

/-- The requests of elements `i … i + n − 1` of `len` bytes: near and far address of each element, the ring of
the near walk, and the elements per tile and per segment. -/
def buildReqs (rb rend : Nat) (near far : Nat → Nat) (len tileElems segElems : Nat) (i : Nat) :
    Nat → List MemReq → List MemReq
  | 0, acc => acc.reverse
  | n + 1, acc =>
    let ps := (splitElem rb rend (near i) (far i) len 8).map fun r =>
      { r with tile := i / tileElems, seg := i / segElems }
    let ps := markLast (fun r => { r with segEnd := (i + 1) % segElems == 0 }) ps
    buildReqs rb rend near far len tileElems segElems (i + 1) n (ps.foldl joinReq acc)

end Sys2Proof.Machine
end

