-- ==== Sys2Proof/Machine/Slots.lean ====
section
/-! DEFINITION. Credit pools and their slots (R225, R226, R231), and the slots that a collective engine holds (R363,
R364). -/

namespace Sys2Proof

/-- POOL of a collective request (Table 12-6). -/
def Card.cPool (c : Card) : Nat := c.get 19 1

end Sys2Proof

namespace Sys2Proof.Machine

def State.pool (s : State) (i : Nat) : Pool := s.smem.pools.get {} i
def State.poolEn (s : State) (i : Nat) : Bool := s.bit (R.poolPoolCfg i) 0
def State.poolCtx (s : State) (i : Nat) : Nat := s.fld (R.poolPoolCfg i) 14 6
def State.poolSlice (s : State) (i : Nat) : Nat := s.fld (R.poolPoolCfg i) 27 16
def State.slotSize (s : State) (i : Nat) : Nat := 2 ^ s.fld (R.poolPoolCfg i) 5 1
def State.poolSlots (s : State) (i : Nat) : Nat := s.fld (R.poolPoolSlots i) 12 0
def State.poolBase (s : State) (i : Nat) : Nat := s.fld (R.poolPoolBase i) 33 12 * 4096
def State.poolNext (s : State) (i : Nat) : Nat := s.fld (R.poolPoolState i) 11 0
def State.poolFree (s : State) (i : Nat) : Nat := s.fld (R.poolPoolState i) 24 12
/-- The open grants of a pool. -/
def State.openGrants (s : State) (i : Nat) : List Grant := (s.pool i).grants.filter fun g => !g.closed

/-- Set a pool beyond its registers, and show its counts (Table 8-10). -/
def State.setPool (s : State) (i : Nat) (p : Pool) : State :=
  let s := { s with smem := { s.smem with pools := s.smem.pools.set {} i p } }
  let s := s.setFld (R.poolPoolState i) 31 25 (p.grants.filter fun g => !g.closed).length
  s.setFld (R.poolPoolWait i) 6 0 p.waiting.length

/-- The slots of a run, in ring order. -/
def slotRun (slots first count : Nat) : List Nat := (List.range count).map fun j => (first + j) % slots

/-- Mark slots with a state (0 FREE, 1 GRANTED, 2 CLOSED, 3 RELEASED-PENDING). -/
def Pool.mark (p : Pool) (ks : List Nat) (v : Nat) : Pool :=
  { p with slots := ks.foldl (fun t k => t.set 0 k v) p.slots }

/-- FREE grows over every released slot that follows on from its run (R231). -/
def growFree (slots next : Nat) : Nat → Nat → Tab Nat → Nat × Tab Nat
  | 0, free, t => (free, t)
  | n + 1, free, t =>
    if free < slots ∧ t.get 0 ((next + free) % slots) = 3 then
      growFree slots next n (free + 1) (t.set 0 ((next + free) % slots) 0)
    else (free, t)

/-- Release slots of a pool and let FREE grow; a closed cut-through record that names one of them goes. -/
def State.releaseSlots (s : State) (i : Nat) (ks : List Nat) : State :=
  let p := (s.pool i).mark ks 3
  let n := s.poolSlots i
  let (free, t) := growFree n (s.poolNext i) n (s.poolFree i) p.slots
  let p := { p with
    slots := t
    grants := p.grants.filter fun g => !(g.closed && (slotRun n g.first g.count).any ks.contains) }
  (s.setPool i p).setFld (R.poolPoolState i) 24 12 free

/-- A grant ends and its slots are released. -/
def State.freeGrant (s : State) (i : Nat) (g : Grant) : State :=
  (s.setPool i { s.pool i with grants := (s.pool i).grants.erase g }).releaseSlots i
    (slotRun (s.poolSlots i) g.first g.count)

/-! ### The engines' requests -/

def CollRun.n (r : CollRun) : Nat := r.members.length
def CollRun.next (r : CollRun) : Nat := r.members.getD ((r.rank + 1) % r.n) 0
def CollRun.prev (r : CollRun) : Nat := r.members.getD ((r.rank + r.n - 1) % r.n) 0

/-- An engine that abandons its request releases the slots it holds: those granted to the previous member for chunks. -/
def State.collFree (s : State) (r : CollRun) : State :=
  ((s.openGrants r.card.cPool).filter fun g => g.chip == r.prev && g.count == 1 && g.lead.isNone).foldl
    (fun (st : State) g => st.freeGrant r.card.cPool g) s

/-- Requester `r` of R353 no longer waits for a tag. -/
def FabState.dropWait (f : FabState) (r : Nat) : FabState :=
  { f with tagWait := f.tagWait.set 0 r 0, tagRaised := f.tagRaised.erase r }

end Sys2Proof.Machine
end

