-- ==== Sys2Proof/Machine/Faults.lean ====
section
/-! DEFINITION. Raising a fault, advisory or event: the record (R388, R389, R566), the page log (R557), the
EVENT card (R248) and what its containment boundary ends (R386, R391, R392, R398). -/

namespace Sys2Proof.Machine

/-- What a raiser says of a fault: its code, the context, unit and core concerned, accession, layer and
operator IDs, the detail fields in order as (bytes, value), the index that selects its log page (core, tier,
pool, port, bus, sequencer or half), and whether a collective engine or a SYSTEM program raised it. -/
structure FaultRec where
  code : Nat
  ctx : Option Nat := none
  unit : Nat := 0xFF
  core : Nat := 0xFF
  accession : Nat := 0xFFFFFFFF
  layer : Nat := 0
  oper : Nat := 0
  detail : List (Nat × Nat) := []
  loc : Nat := 0
  alt : Bool := false
  deriving DecidableEq, Repr

/-- Containment boundaries (Table 14-1, Tables 15-8, 17-13, 18-13): 0 event, 1 advisory, 2 job, 3 context,
4 collective, 5 port, 6 chip, 7 device. -/
def boundary (code : Nat) (alt : Bool) : Nat :=
  if code / 0x1000 = 1 then (if alt then 4 else 3)
  else if code / 0x1000 = 2 then 3
  else if code = 0x3009 ∨ code = 0x300B then 0
  else if code = 0x3007 ∨ code = 0x3008 then 2
  else if code = 0x300C then 6
  else if code / 0x1000 = 3 then 3
  else if code = 0x4006 then 2
  else if code = 0x4003 ∨ code = 0x4008 ∨ (0x400B ≤ code ∧ code ≤ 0x400F) then 3
  else if code / 0x1000 = 4 then 0
  else if code = 0x5002 ∨ code = 0x5003 ∨ code = 0x500D then 0
  else if code = 0x5004 ∨ code = 0x5007 ∨ code = 0x500A then 1
  else if code / 0x1000 = 5 then 5
  else if code = 0x6001 ∨ code = 0x6003 ∨ code = 0x6004 then 0
  else if code = 0x6005 ∨ code = 0x6006 then 1
  else if code = 0x6008 ∨ code = 0x6009 ∨ code = 0x600A then 4
  else if code = 0x6002 then 5
  else if code / 0x1000 = 6 then 6
  else if code = 0x7005 then 0
  else if code = 0x7007 ∨ code = 0x7008 then 1
  else if code = 0x7004 then (if alt then 4 else 3)
  else if code / 0x1000 = 7 then 3
  else if code = 0x8003 ∨ code = 0x8005 ∨ code = 0x800B then 7
  else if code = 0x800A then 3
  else if code / 0x1000 = 8 then 1
  else if code = 0x9002 ∨ code = 0x900B then 7
  else if code = 0x9007 then 5
  else if code = 0x9001 ∨ code = 0x9003 ∨ code = 0x9008 then 1
  else if code / 0x1000 = 9 then 0
  else if code = 0xA001 ∨ code = 0xA007 ∨ code = 0xA008 then 1
  else if code / 0x1000 = 0xA then 0
  else if code = 0xF108 ∨ code = 0xF109 then 0
  else if code = 0xF107 then 4
  else if 0xF001 ≤ code ∧ code ≤ 0xF005 then 7
  else if code / 0x1000 = 0xF then 1
  else 1

/-- The fabric time (R357), in ticks. -/
def State.now (s : State) : Nat := (s.rd R.fabTime).toNat

/-- KIND of a record (Table 14-3). -/
def recKind (b : Nat) : Nat := if b = 0 then 2 else if b = 1 then 1 else 0

/-- The page whose ERR_LOG logs a code (Table 21-5). -/
def logPage (f : FaultRec) : Nat :=
  let c := f.code
  if c / 0x1000 = 1 then (if f.alt then 416 + f.loc else f.core)
  else if c / 0x1000 = 2 ∨ (0x3001 ≤ c ∧ c ≤ 0x3003) ∨ c = 0x3005 then f.core
  else if c = 0x3004 then 256 + f.core
  else if (0x3006 ≤ c ∧ c ≤ 0x3008) ∨ c = 0x300C then 384 + f.loc
  else if c = 0x3009 then 392
  else if c = 0x300A then 393 + f.loc / 64
  else if c = 0x300B ∨ c / 0x1000 = 4 then 400
  else if c = 0x500D then 480 + f.loc
  else if c / 0x1000 = 5 then 448 + f.loc
  else if 0x6008 ≤ c ∧ c ≤ 0x600A then 416 + f.loc
  else if c / 0x1000 = 6 then 496
  else if c = 0x7004 then 408 + f.loc
  else if c / 0x1000 = 7 then 497
  else if c / 0x1000 = 8 then 498
  else if c / 0x1000 = 9 then 502
  else if c / 0x1000 = 0xA then 503
  else if c = 0xF107 ∨ c = 0xF108 then 168 + f.loc
  else 170

/-- The detail bytes, in order (R566), as a number from byte 16. -/
def detailBits : List (Nat × Nat) → Nat
  | [] => 0
  | (n, v) :: t => v % 2 ^ (8 * n) + 2 ^ (8 * n) * detailBits t

/-- The 64-byte fault record (Table 14-3). -/
def mkRecord (f : FaultRec) (b : Nat) (esc : Bool) (ftime seq chip : Nat) : Card :=
  let c : Card := Card.put 0 0 2 f.code
  let c := c.put 2 1 (recKind b)
  let c := c.put 3 1 (b + if esc then 8 else 0)
  let c := c.put 4 2 (match f.ctx with | some x => x + 0x8000 | none => 0)
  let c := c.put 6 1 f.unit
  let c := c.put 7 1 f.core
  let c := c.put 8 4 f.accession
  let c := c.put 12 2 f.layer
  let c := c.put 14 2 f.oper
  let c := c.put 16 28 (detailBits f.detail)
  let c := c.put 44 8 ftime
  let c := c.put 52 4 seq
  c.put 56 4 chip

/-- Log a record on its page (R557). -/
def State.logErr (s : State) (pg code seq ftime : Nat) : State :=
  if s.bit (R.hdrErrLog0 pg) 16 then s.setBit (R.hdrErrLog0 pg) 17 true
  else
    let s := s.wr (R.hdrErrLog0 pg) (BitVec.ofNat 64 (code + 65536))
    let s := s.wr (R.hdrErrLog1 pg) (BitVec.ofNat 64 seq)
    s.wr (R.hdrErrLog2 pg) (BitVec.ofNat 64 ftime)

/-- Add to the discard counters (R272): a card discarded or refused under an event code. -/
def State.discard (s : State) (q : Option Nat) : State :=
  let s := (s.count R.qmDiscardCnt 1).globalEvent 40 6 1
  match q with | some q => s.count (R.qselQdropCnt q) 1 | none => s

/-- The unit whose EVENT queue takes a context's events (R248): the one that runs or ran its job, which the half of a
collective engine is not. -/
def State.eventUnit (s : State) (f : FaultRec) : Nat :=
  if f.code = 0x7007 then 170 else if f.unit ≤ 170 ∧ ¬ f.alt then f.unit
  else match f.ctx with | some x => s.qm.lastUnit.get 170 x | none => 170

/-- Write an EVENT card; a full queue discards it (R248, Table 9-3). -/
def State.eventCard (s : State) (u : Nat) (f : FaultRec) (b : Nat) (record : Card) : State :=
  let q := 4 * u + 2
  let c := mkHeader 3 (f.ctx.getD 0) (if f.accession = 0xFFFFFFFF then 0 else f.accession) f.layer f.oper 0 0
  let c := c.put 16 2 f.code
  let c := c.put 18 1 f.unit
  let c := c.put 19 1 (recKind b)
  let c := c.put 20 44 (record.get 0 44)
  match s.qOffer q c with
  | some s' => s'
  | none => (s.count R.qmEventLostCnt 1).intEvent 400 2

/-- Write one record: fault log (the latest 1,024, R389), page log, MGT.INT_STATUS.FLOG, and the EVENT card. -/
def State.record (s : State) (f : FaultRec) (b : Nat) (esc : Bool) : State :=
  let seq := s.fld R.mgtFlogHead 31 0 + 1
  let r := mkRecord f b esc s.now seq (s.fld R.fabChipId 19 0)
  let s := { s with flog := (s.flog.clearRange 0 (seq - 1023)).set 0 seq r }
  let s := s.wr R.mgtFlogHead (BitVec.ofNat 64 seq)
  let s := s.logErr (logPage f) f.code seq s.now
  let s := s.intEvent 170 0
  let s := s.faultRecord (if f.core < 128 then f.core else if f.unit ≤ 170 then 0x100 + f.unit else 0x3FF)
    f.unit f.ctx r
  let s := if b = 6 ∨ b = 7 then s.ledgerFault r else s
  s.eventCard (s.eventUnit f) f b r

/-! ### Context states (Table 13-1) and tear-down (R378) -/

def State.ctxState (s : State) (x : Nat) : Nat := s.fld (R.ctxselCState x) 2 0
def State.setCtxState (s : State) (x v : Nat) : State :=
  let s := s.setFld (R.ctxselCState x) 2 0 v
  if v = 1 then s.intEvent 497 1 else s

/-- REC_STATE.STATE changes: INT_STATUS.REC_CHG (Table 21-4). -/
def State.setRecState (s : State) (v code : Nat) : State :=
  if s.fld R.mgtRecState 1 0 = v then s
  else ((s.setFld R.mgtRecState 1 0 v).wr R.mgtRecCause (BitVec.ofNat 64 code)).intEvent 170 1

def State.showRepairs (s : State) : State := s.setFld R.mgtRecState 9 2 (min s.recov.repairs.length 255)

/-- A repair starts (R397): kinds 0 slot, 1 array, 2 bank rebuild, 3 queue manager, 4 tear-down. -/
def State.repairStart (s : State) (kind code : Nat) : State :=
  let s := { s with recov := { s.recov with repairs := s.recov.repairs ++ [kind] } }
  (if s.fld R.mgtRecState 1 0 = 0 then s.setRecState 1 code else s).showRepairs

/-- A repair ends; the last one returns the machine to SERVING (Table 14-7). -/
def State.repairEnd (s : State) (kind : Nat) : State :=
  let s := { s with recov := { s.recov with repairs := s.recov.repairs.erase kind } }
  (if s.fld R.mgtRecState 1 0 = 1 ∧ s.recov.repairs = [] then
    let s := { s with recov := { s.recov with torn := [], left := [] } }
    s.setRecState 0 0
  else s).showRepairs

/-- The units whose job belongs to context `x`. -/
def State.ctxUnits (s : State) (x : Nat) : List Nat :=
  (List.range 171).filter fun u => s.hasJob u && s.fld (R.udState u) 24 16 = x

/-- A park request reaches every core of a unit (R129, R132): merged with those in force. -/
def State.parkReq (s : State) (reason u : Nat) : State :=
  if s.hasJob u then
    let j := s.job u
    if j.parkReqs.contains reason then s else s.setJob u { j with parkReqs := reason :: j.parkReqs }
  else s

/-- Clear RUN on every sequencer that runs a CONTEXT program of context `x` (R378 step 3): SEQ_STATUS.LEVEL
0.  Each stops at its instruction boundary, a wait in progress being abandoned (R299). -/
def State.stopSeqs (s : State) (x : Nat) : State :=
  (List.range 4).foldl (fun st q =>
    if st.bit (R.stgSeqCtrl q) 0 && !(st.bit (R.stgSeqStatus q) 3) && st.fld (R.stgSeqStatus q) 12 4 = x
    then
      let st := st.setBit (R.stgSeqCtrl q) 0 false
      let st := { st with seqs := st.seqs.set {} q { st.seqs.get {} q with xdone := none } }
      if st.fld (R.stgSeqStatus q) 2 0 = 2 ∨ st.fld (R.stgSeqStatus q) 2 0 = 3 then st.setFld (R.stgSeqStatus q) 2 0 1
      else st
    else st) s

/-- A completion card of an engine of the torn-down context (R378 step 6, R406): pushed, or waiting for room. -/
def State.tornCard (s : State) (q : Nat) (c : Card) : State :=
  match s.qOffer q c with
  | some s => s
  | none => if s.qEn q then { s with qm := { s.qm with replayWait := s.qm.replayWait ++ [(q, c)] } } else s

/-- The collective requests and checkpoint requests of context `x` end, and the slots they hold are released at once (R378
step 6, R364, R406). -/
def State.endEngines (s : State) (x : Nat) : State :=
  let chip := s.fld R.fabChipId 19 0
  let slice := s.fld (R.ctxselCCfg x) 11 0
  let s := [0, 1].foldl (fun (st : State) h =>
    match if h = 0 then st.fab.coll0 else st.fab.coll1 with
    | some r =>
      if r.ctx = x then
        let st := st.collFree r
        let st := { st with fab := (if h = 0 then { st.fab with coll0 := none } else { st.fab with coll1 := none }).dropWait (5 + h) }
        let st := ((st.setFld (R.colColStatus h) 3 0 0).count (R.colColFailCnt h) 1).intEvent (416 + h) 1
        let c := ((mkHeader 0xF9 x 0 0 0 chip slice).put 16 8 (r.card.get 56 8)).put 24 2 0x7006
        st.tornCard (r.card.get 52 2) c
      else st
    | none => st) s
  [0, 1].foldl (fun (st : State) h =>
    match if h = 0 then st.recov.ckpt0 else st.recov.ckpt1 with
    | some r =>
      if r.ctx = x then
        let st := { st with recov := if h = 0 then { st.recov with ckpt0 := none } else { st.recov with ckpt1 := none } }
        let st := { st with fab := st.fab.dropWait (7 + h) }
        let st := ((st.setFld (R.halfCkptStatus h) 1 0 0).count (R.halfCkptFailCnt h) 1).intEvent (168 + h) 1
        let c := ((mkHeader 0xFE x 0 0 0 chip slice).put 16 8 (r.card.get 32 8)).put 24 2 0xF107
        let c := ((c.put 26 1 4).put 28 4 r.shards).put 32 8 r.bytes
        (st.tornCard (r.card.get 16 2) c).record { code := 0xF107, ctx := some x, loc := h } 4 false
      else st
    | none => st) s

/-- A tear-down of context `x` begins (R378, Table 13-4: the steps marked "at once"). -/
def State.tearDown (s : State) (x code : Nat) : State :=
  if s.ctxState x = 2 ∨ s.ctxState x = 3 then
    let s := s.setCtxState x 4
    let s := s.setFld (R.ctxselCCause x) 15 0 code
    let s := { s with recov := { s.recov with torn := s.recov.torn ++ [x] } }
    let s := s.repairStart 4 code
    let s := (s.ctxUnits x).foldl (fun st u => st.parkReq 4 u) s
    (s.endEngines x).stopSeqs x
  else s

/-- The job of unit `u` ends with a fault (R60, R142, R203): its cores stop, the first fault stands. -/
def State.endJobWith (s : State) (u code : Nat) : State :=
  if s.hasJob u then
    let j := s.job u
    let s := s.setJob u { j with fault := some (j.fault.getD code) }
    (unitCores u).foldl (fun st c => st.modCore c fun x =>
      if x.phase = .ended then x else { x with phase := .stopped }) s
  else s

/-- The contexts named by LEFT_JOB at an escalation (R398). -/
def State.escalate (s : State) : State :=
  let xs := (List.range 512).filter fun x => s.recov.torn.contains x && !(s.recov.left.contains x)
  xs.foldl (fun st x =>
    let st := st.record { code := 0xF10A, ctx := some x } 1 true
    { st with recov := { st.recov with left := st.recov.left ++ [x] } }) s

/-- No epoch swap has taken place since the fault (R399). -/
def State.noSwap (s : State) : State := { s with recov := { s.recov with swapped := false } }

/-- A Chip-boundary fault acts (R391). -/
def State.chipFault (s : State) (code : Nat) : State :=
  let s := (List.range 512).foldl (fun st x => st.tearDown x code) s
  if s.fld R.mgtRecState 1 0 = 3 then s else s.noSwap.setRecState 2 code

/-- START_STATUS.PHASE changes: INT_STATUS.PHASE_CHG (Tables 19-4, 21-4). -/
def State.setPhase (s : State) (v : Nat) : State :=
  if s.fld R.mgtStartStatus 3 0 = v then s else (s.setFld R.mgtStartStatus 3 0 v).intEvent 170 2

/-- A Device-boundary fault acts (R392): cores, sequencers and engines stop, every ACTIVE port drains and
fails, its neighbour record ends (R342), the machine is FATAL, and the host port and management report it. -/
def State.deviceFault (s : State) (code : Nat) : State :=
  let s := (List.range 128).foldl (fun st c =>
    if (st.core c).phase = .idle then st else st.modCore c fun x => { x with phase := .stopped }) s
  let s := (List.range 4).foldl (fun st q => st.setBit (R.stgSeqCtrl q) 0 false) s
  let s := (List.range 32).foldl (fun st p =>
    if st.fld (R.lnkStatus p) 3 0 = 5 then
      let x := st.ports.get {} p
      let st := { st with ports := st.ports.set {} p { x with linkOut := x.linkOut ++ [[8, 3]], since := st.now } }
      let n : Nbr := st.fab.nbr.get {} p
      let st := { st with fab := { st.fab with nbr := st.fab.nbr.set {} p { n with valid := false } } }
      let st := (st.setFld (R.lnkStatus p) 3 0 8).intEvent (448 + p) 0
      st.record { code := 0x5001, loc := p, detail := [(1, p), (1, 0xFF), (1, 8), (8, (st.rd (R.lnkPeerKey p)).toNat)] } 5 false
    else st) s
  let s := (s.setBit R.hostStatus 11 true).msixSend 0
  let s := { s with host := { s.host with aerInternal := true } }
  let s := s.intEvent 170 3
  (s.setPhase 10).setRecState 3 code

/-- Raise a fault, advisory or event: its record, its escalation and what its boundary ends. -/
def State.raise (s : State) (f : FaultRec) : State :=
  let b := boundary f.code f.alt
  let inTear : Bool := match f.ctx with | some x => s.ctxState x == 4 | none => false
  let esc : Bool := (b == 3 || b == 2) && s.fld R.mgtRecState 1 0 == 1 && !inTear && f.code != 0x7006
  let s := s.record f b esc
  let s := if f.unit ≤ 170 ∧ (b = 2 ∨ b = 3) then s.endJobWith f.unit f.code else s
  let s := if b = 3 then (match f.ctx with | some x => s.tearDown x f.code | none => s)
    else if b = 6 then s.chipFault f.code
    else if b = 7 then s.deviceFault f.code else s
  if esc then s.escalate else s

/-- Checkpoint engine `h` is armed (R407), and the context of its request queue. -/
def State.ckptArmed (s : State) (h : Nat) : Option Nat :=
  let q := s.fld (R.halfCkptReqQ h) 11 0
  if s.bit (R.halfCkptArm h) 0 ∧ q ≠ 0xFFF then some (s.fld (R.qselQcfg q) 13 5) else none

/-- A checkpoint trigger of kind `kind` occurs (R400): CHECKPOINT_ADVISE, unless its hold-off runs: then it is
counted in the ledger only.  Kinds:
0 FEC_DEGRADED, 1 CART_WEAR_WARN, 2 TIME_HOLDOVER, 3 CE_RATE, 4 margin alarm, 5 spare slot or POD_OUT,
6 bank rebuild or SPARE_LOW. -/
def State.advise (s : State) (kind : Nat) : State :=
  let last := s.recov.holdoff.get 0 kind
  if last ≠ 0 ∧ s.now < last - 1 + s.fld R.mgtCkptHoldoff 15 0 * 1600000000 then
    s.modLedger fun l => { l with life := bump l.life (16 + kind) 1 }
  else
    let s := { s with recov := { s.recov with holdoff := s.recov.holdoff.set 0 kind (s.now + 1) } }
    let f : FaultRec := { code := 0xF101 }
    let s := s.raise f
    let r := s.flog.get 0 (s.fld R.mgtFlogHead 31 0)
    [0, 1].foldl (fun (st : State) h =>
      match st.ckptArmed h with
      | some x => (st.setBit (R.halfCkptStatus h) 2 true).eventCard (st.qm.lastUnit.get 170 x) { f with ctx := some x } 1 r
      | none => st) s

/-- A fault of the job that core `c` runs: the record names context, unit, core, accession and call. -/
def State.coreFault (s : State) (c code : Nat) (detail : List (Nat × Nat)) : State :=
  match s.unitOf c with
  | some u =>
    let j := s.job u
    let s := if code = 0x3004 then s.observe 1 (s.slotOf c) else if code = 0x2003 then s.observe 2 (s.slotOf c) else s
    s.raise { code, ctx := some j.ctx, unit := u, core := c, accession := j.card.accession,
              layer := j.card.layer, oper := j.card.oper, detail, loc := c }
  | none => s

/-- The detail of a memory fault (R232, R566): tier, bank, row, word, requester index, granule and class of
the access, then, for a job fault, the engine and its ISEQ or PC, then the owning chapter's further fields. -/
def memDetail (tier bank row word req granule cls : Nat) (job : List (Nat × Nat)) : List (Nat × Nat) :=
  [(1, tier), (2, bank), (2, row), (1, word), (1, req), (2, granule), (1, cls)] ++ job

/-- SPAD_ECC at scratchpad address `a` (R204, R566): class 0xFE; port after the engine and its ISEQ or PC. -/
def eccDetail (a port eng iseq : Nat) : List (Nat × Nat) :=
  memDetail 0xFF (a / 32768 % 16) (a / 512 % 64) (a % 512 / 8) 0xFF 0xFFFF 0xFE [(1, eng), (4, iseq), (1, port)]

/-- An address fault (R152, R155): engine, ISEQ or PC, descriptor, role, value that failed. -/
def addrDetail (eng iseq desc role : Nat) (v : Int) : List (Nat × Nat) :=
  memDetail 0xFF 0xFFFF 0xFFFF 0xFF 0xFF 0xFFFF 0xFF [(1, eng), (4, iseq), (1, desc), (1, role), (8, pat 64 v)]

/-- Detail of a memory fault at word `w` of stage memory by requester `req` (R232). -/
def smDetail (s : State) (w req : Nat) (job : List (Nat × Nat)) : List (Nat × Nat) :=
  memDetail (smTier w) (s.physBank (smTier w) (smBank w) (smRow w)) (smRow w) (smWord w) req (smGranule w) (s.memClass w) job

/-- The code of Table 8-5 for a job that reads an undeliverable word. -/
def lostCode (cls : Nat) : Nat := if cls = 0 then 0x3006 else if cls = 1 then 0x3007 else 0x3008

end Sys2Proof.Machine
end

