-- ==== Sys2Proof/Machine/Fabric.lean ====
section
/-! DEFINITION. Packets, routing, slices and tags (R315, R340–R356). -/

namespace Sys2Proof.Machine

/-! ### Time -/

/-- What one tick of the root PLL adds to the fabric-time counter, in units of 2^-32 (R358). -/
def tickInc (r : Rat) : Nat :=
  let v : Rat := (1 + r) * 4294967296
  (if Config.rateUp r then v.ceil else v.floor).toNat

/-- The fabric-time counter with its 32-bit fraction (R358). -/
def State.timeFrac (s : State) : Nat := s.now * 2 ^ 32 + s.fab.sync.frac

/-- `n` ticks of the root PLL pass: OBS.LTIME counts them, and FAB.TIME gains 1 + r in each. -/
def State.tick (s : State) (n : Nat) : State :=
  let t := s.wr R.obsLtime (s.rd R.obsLtime + BitVec.ofNat 64 n)
  if s.fab.sync.r = 0 then t.wr R.fabTime (BitVec.ofNat 64 (s.now + n))
  else
    let v := s.timeFrac + n * tickInc s.fab.sync.r
    { t with fab := { t.fab with sync := { t.fab.sync with frac := v % 2 ^ 32 } } }.wr R.fabTime (BitVec.ofNat 64 (v / 2 ^ 32))

/-- Ticks until the counter reaches `t`, which is ahead of it. -/
def State.ticksTo (s : State) (t : Nat) : Nat :=
  if s.fab.sync.r = 0 then t - s.now
  else (t * 2 ^ 32 - s.timeFrac + tickInc s.fab.sync.r - 1) / tickInc s.fab.sync.r

/-- An event of fabric time `t` occurs: FAB.TIME has reached it. -/
def State.advanceTo (s : State) (t : Nat) : State := if t ≤ s.now then s else s.tick (s.ticksTo t)

/-- An event of local time `t` occurs. -/
def State.localTo (s : State) (t : Nat) : State := if t ≤ s.ltime then s else s.tick (t - s.ltime)

/-- Ticks of `n` UCLK cycles (Table 15-1: UCLK is 800 MHz, a tick 0.625 ns). -/
def uclk (n : Nat) : Nat := 2 * n

/-! ### Packets (Tables 11-5, 11-6, 12-1) -/

def ptWrite : Nat := 0x01
def ptWack : Nat := 0x02
def ptCard : Nat := 0x03
def ptCreditReq : Nat := 0x04
def ptCreditReply : Nat := 0x05
def ptRollcall : Nat := 0x10
def ptTsyncReq : Nat := 0x11
def ptTsyncRsp : Nat := 0x12
def ptRreq : Nat := 0x13
def ptRcpl : Nat := 0x14

/-- The class of a packet type: 0 bulk, 1 control, 2 response; none where the type is reserved. -/
def ptClass (t : Nat) : Option Nat :=
  if t = ptWrite then some 0
  else if t = ptCard ∨ t = ptCreditReq ∨ t = ptRollcall ∨ t = ptRreq then some 1
  else if t = ptWack ∨ t = ptCreditReply ∨ t = ptTsyncReq ∨ t = ptTsyncRsp ∨ t = ptRcpl then some 2
  else none

/-- Field [hi:lo] of BODY, bit 0 being packet bit 64. -/
def Pkt.b (p : Pkt) (hi lo : Nat) : Nat := p.body / 2 ^ lo % 2 ^ (hi - lo + 1)

def mkWrite (dst src slice off tag : Nat) (bs : List Byte) : Pkt :=
  { ptype := ptWrite, cls := 0, dst, src, slice,
    body := off % 2 ^ 38 + (bs.length - 1) % 256 * 2 ^ 38 + tag * 2 ^ 46,
    data := bs ++ List.replicate ((16 - bs.length % 16) % 16) 0 }
def Pkt.wOff (p : Pkt) : Nat := p.b 37 0
def Pkt.wLen (p : Pkt) : Nat := p.b 45 38 + 1
def Pkt.wTag (p : Pkt) : Nat := p.b 61 46
def Pkt.wBytes (p : Pkt) : List Byte := p.data.take p.wLen
def mkWack (dst src slice tag : Nat) (discarded : Bool) : Pkt :=
  { ptype := ptWack, cls := 2, dst, src, slice, body := tag + if discarded then 65536 else 0 }
def mkCard (dst src slice : Nat) (c : Card) : Pkt :=
  { ptype := ptCard, cls := 1, dst, src, slice, data := natLE 64 c.toNat }
def Pkt.card (p : Pkt) : Card := BitVec.ofNat 512 (leNat p.data)
def mkCreditReq (dst src slice pool count tag : Nat) : Pkt :=
  { ptype := ptCreditReq, cls := 1, dst, src, slice, body := pool + count * 128 + tag * 2 ^ 14 }
def mkCreditReply (dst src slice pool count tag status first : Nat) : Pkt :=
  { ptype := ptCreditReply, cls := 2, dst, src, slice,
    body := pool + count * 128 + tag * 2 ^ 14 + status * 2 ^ 22 + first * 2 ^ 24 }
def mkRreq (dst src slice off size tag : Nat) : Pkt :=
  { ptype := ptRreq, cls := 1, dst, src, slice, body := off % 2 ^ 38 + size * 2 ^ 38 + tag * 2 ^ 46 }
def mkRcpl (dst src slice tag status value : Nat) : Pkt :=
  { ptype := ptRcpl, cls := 2, dst, src, slice, body := tag + status * 65536, data := natLE 16 (value % 2 ^ 64) }

/-! ### State accessors -/

def State.chip (s : State) : Nat := s.fld R.fabChipId 19 0
def State.rollDone (s : State) : Bool := s.bit R.fabCtrl 0
def State.port (s : State) (p : Nat) : Port := s.ports.get {} p
def State.setPort (s : State) (p : Nat) (x : Port) : State := { s with ports := s.ports.set {} p x }
def State.modPort (s : State) (p : Nat) (f : Port → Port) : State := s.setPort p (f (s.port p))
/-- STATE of a port (Table 11-7). -/
def State.portState (s : State) (p : Nat) : Nat := s.fld (R.lnkStatus p) 3 0
def State.portGroup (s : State) (p : Nat) : Nat := s.fld (R.lnkPortCfg p) 3 1
/-- This chip's NODE_KEY (R325). -/
def State.nodeKey (s : State) : Nat :=
  if s.fab.assigned then s.chip else 2 ^ 63 + (s.rd R.trustSerial).toNat % 2 ^ 63
/-- The slice of a context (C_CFG.SLICE). -/
def State.ctxSlice (s : State) (x : Nat) : Nat := s.fld (R.ctxselCCfg x) 11 0

def State.modFab (s : State) (f : FabState → FabState) : State := { s with fab := f s.fab }
/-- A packet enters the chip: from a port, or from an agent of this chip: 32 to 37 as in R228, or 32 where the agent does
not matter. -/
def State.toChip (s : State) (port : Nat) (p : Pkt) : State := s.modFab fun x => { x with chipIn := x.chipIn ++ [(port, p)] }
/-- The first waiting packet of a type, taken out. -/
def State.takeIn (s : State) (t : Nat) : Option (Nat × Pkt × State) :=
  match s.fab.chipIn.find? fun e => e.2.ptype == t with
  | some e => some (e.1, e.2, s.modFab fun x => { x with chipIn := x.chipIn.erase e })
  | none => none

/-! ### Routing (R345–R349, R351) -/

def parityOdd : Nat → Nat → Bool
  | 0, _ => false
  | n + 1, v => (v % 2 == 1) != parityOdd n (v / 2)

/-- The active bank of the tables. -/
def State.activeBank (s : State) : Nat := s.fld R.fabStatus 0 0

/-- A neighbour record that shows this chip's number (R344). -/
def State.dupPort (s : State) (p : Nat) : Bool :=
  let n := s.fab.nbr.get {} p
  n.valid && bits n.bytes 40 40 = 1 && bits n.bytes 211 192 = s.chip && s.fab.assigned

/-- The permit entry of a slice: PORTS, LOCAL and whether its parity was bad (R351). -/
def State.permit (s : State) (slice : Nat) : Nat × Bool × Bool :=
  let e := s.fab.permits.get 0 (4096 * s.activeBank + slice)
  if parityOdd 36 e then (0, false, true) else (e % 2 ^ 32, e / 2 ^ 32 % 2 = 1, false)

inductive Route where
  | local
  | port (p : Nat)
  | none
  deriving DecidableEq, Repr

/-- The ports a packet of slice `slice` may take (R347). -/
def State.candidates (s : State) (slice : Nat) (pin : Option Nat) (group : Nat) : List Nat :=
  let (ports, _, _) := s.permit slice
  (List.range 32).filter fun p =>
    (match pin with | some q => p == q | none => s.portGroup p == group)
      && s.portState p == 5 && !s.dupPort p && ports / 2 ^ p % 2 == 1

/-- The lookup of R345 to R347 for one packet: where it goes, and whether an entry had bad parity. -/
def State.route (s : State) (p : Pkt) : Route × Bool :=
  let c := s.chip
  let d := p.dst
  let b := s.activeBank
  let e := if d / 1024 = c / 1024 then s.fab.routes.get 0 (2048 * b + 1024 + d % 1024)
    else s.fab.routes.get 0 (2048 * b + d / 1024)
  let bad := parityOdd 32 e
  let pbad := (s.permit p.slice).2.2
  if bad ∨ e % 2 = 0 then (.none, bad)
  else if e / 2 % 2 = 1 then (if d = c then .local else .none, false)
  else
    let pin := if e / 32 % 2 = 1 then some (e / 64 % 32) else none
    let cs := s.candidates p.slice pin (e / 4 % 8)
    if cs = [] then (.none, pbad)
    else
      let k := if p.ptype = ptWrite then d ^^^ (p.wOff / 256) else d ^^^ (p.slice * 2 ^ 20)
      let h := k * 0x9E3779B1 % 2 ^ 32
      (.port (cs.getD (h / 65536 * cs.length / 65536) 0), pbad)

/-- A table entry with bad parity raises 0x600B (R346, R351). -/
def State.tableParity (s : State) (bad : Bool) : State := if bad then s.raise { code := 0x600B } else s

/-- Send a packet that agent `agent` of this chip originates: routed to a port's queue, or delivered locally when the
slice may be and dropped where it may not (R351); false where it had no route (R345) or was not sent because roll call
has not completed (R343), or because an isolated chip originates only in MGMT_SLICE (R391). -/
def State.sendFrom (s : State) (agent : Nat) (p : Pkt) (ctx : Option Nat) : State × Bool :=
  if ¬ s.rollDone ∨ (s.fld R.mgtRecState 1 0 = 2 ∧ p.slice ≠ s.fld R.fabMgmtSlice 11 0) then (s, false)
  else
    let (r, bad) := s.route p
    let s := s.tableParity bad
    match r with
    | .port q => ((s.globalEvent 50 1 1).modPort q fun x => { x with txq := x.txq ++ [p] }, true)
    | .local =>
      let (_, loc, pbad) := s.permit p.slice
      let s := s.tableParity pbad
      (if loc then s.toChip agent p else s, true)
    | .none =>
      let s := (s.count R.fabNoRouteCnt 1).globalEvent 50 2 1
      (s.raise { code := 0x6001, ctx }, false)

/-- Send a packet of an agent that has no requester index of its own. -/
def State.sendPkt (s : State) (p : Pkt) (ctx : Option Nat) : State × Bool := s.sendFrom 32 p ctx

/-- A packet as it is sent on: the BODY of a time packet, which is zero (Table 12-1), held its arrival time here. -/
def Pkt.forwarded (p : Pkt) : Pkt := if p.ptype = ptTsyncReq ∨ p.ptype = ptTsyncRsp then { p with body := 0 } else p

/-- A received routed packet (R341, R343, R349): delivered, forwarded or dropped. -/
def State.receivePkt (s : State) (port : Nat) (p : Pkt) : State :=
  if p.ptype = ptRollcall then s.toChip port p
  else if ¬ s.rollDone then s.count R.fabPreRcDropCnt 1
  else if p.dst = s.chip then
    let (r, bad) := s.route p
    let s := s.tableParity bad
    if r = .local then
      let (_, loc, pbad) := s.permit p.slice
      let s := s.tableParity pbad
      if loc then s.toChip port p else s.count (R.fabSliceDropCnt port) 1
    else (s.count R.fabNoRouteCnt 1).globalEvent 50 2 1
  else if s.bit R.fabCtrl 1 then
    let (r, bad) := s.route p
    let s := s.tableParity bad
    match r with
    | .port q => if q = port then s.count R.fabFwdDropCnt 1 else (s.globalEvent 50 1 1).modPort q fun x => { x with txq := x.txq ++ [p.forwarded] }
    | _ => (s.count R.fabNoRouteCnt 1).globalEvent 50 2 1
  else s.count R.fabFwdDropCnt 1

/-! ### Tags (R353–R356) -/

def State.tagsInFlight (s : State) : Nat := (s.fab.tags.filter fun t => !t.2.quarantined).length

/-- Keep FAB.TAG_STATE equal to the counts. -/
def State.showTags (s : State) : State :=
  let q := (s.fab.tags.filter fun t => t.2.quarantined).length
  s.wr R.fabTagState (BitVec.ofNat 64 (s.tagsInFlight + q * 32768))

/-- The first FREE tag after `t`. -/
def nextFree (tags : Tab TagRec) (t : Nat) : Nat → Option Nat
  | 0 => none
  | n + 1 =>
    let t := (t + 1) % 65536
    if (Tab.get { dest := 0xFFFFFFFF } tags t).dest = 0xFFFFFFFF then some t else nextFree tags t n

/-- The fabric epoch number. -/
def State.epoch (s : State) : Nat := s.now / 2 ^ (s.fld R.fabEpochCfg 5 0)

/-- REQ_TIMEOUT in ticks: 1,600 to the microsecond; 0 is taken as 10. -/
def State.reqTimeout (s : State) : Nat :=
  let us := s.fld R.fabReqTimeout 15 0
  1600 * (if us = 0 then 10 else us)

/-- Allocate a tag for a requester (R353). -/
def State.allocTag (s : State) (dest requester info : Nat) : Option (Nat × State) :=
  if 16384 ≤ s.tagsInFlight then none
  else
    (nextFree s.fab.tags s.fab.lastTag 65536).map fun t =>
      let r : TagRec := { dest, requester, info, deadline := s.now + s.reqTimeout }
      (t, ((s.modFab fun x => { x with tags := x.tags.put t r, lastTag := t,
                                        tagWait := x.tagWait.set 0 requester 0,
                                        tagRaised := x.tagRaised.erase requester }).globalEvent 50 5 1).showTags)

/-- A requester no longer waits for a tag. -/
def State.dropTagWait (s : State) (requester : Nat) : State :=
  s.modFab fun x => x.dropWait requester

/-- A requester finds no tag: since when it waits (R353). -/
def State.noteTagWait (s : State) (requester : Nat) : State :=
  if s.fab.tagWait.get 0 requester = 0 then s.modFab fun x => { x with tagWait := x.tagWait.set 0 requester (s.now + 1) } else s

def State.freeTag (s : State) (t : Nat) : State := (s.modFab fun x => { x with tags := x.tags.erase t }).showTags

/-- A WACK or RCPL meets its tag (R354): the record when it is delivered to the requester. -/
def State.closeTag (s : State) (t src : Nat) : State × Option TagRec :=
  let r := s.fab.tags.get { dest := 0xFFFFFFFF } t
  if r.dest = 0xFFFFFFFF then (s.count R.fabStrayCplCnt 1, none)
  else if r.quarantined then ((s.count R.fabLateCplCnt 1).globalEvent 50 4 1, none)
  else if r.dest ≠ src then (s.count R.fabStrayCplCnt 1, none)
  else (s.freeTag t, some r)

/-- Send a WRITE with a tag: `none` where no tag is free; else the state and whether it was routed (R345,
R353). -/
def State.sendWrite (s : State) (dst slice off requester info : Nat) (bs : List Byte) (ctx : Option Nat) :
    Option (State × Bool) :=
  (s.allocTag dst requester info).map fun (t, s) =>
    let (s, ok) := s.sendPkt (mkWrite dst s.chip slice off t bs) ctx
    if ok then (s, true) else (s.freeTag t, false)

end Sys2Proof.Machine
end

