-- ==== Sys2Proof/Machine/Flags.lean ====
section
/-! DEFINITION. Sync flags and the flag computations (R113–R118), and the head waits of engines (R111, R115). -/

namespace Sys2Proof.Machine

/-- An update of a flag from `v` by grants `take` and signals `give`: the new value, or `none` on overflow
(R117 step 3, R118). -/
def flagUpdate (v take give : Nat) : Option Nat :=
  if v - take + give ≤ 65535 then some (v - take + give) else none

/-- Raise 0x2002 FLAG_OVERFLOW: flag, start-of-cycle value, sum of signals (Table 4-16). -/
def State.flagOverflow (s : State) (c f v sum : Nat) : State :=
  s.coreFault c 0x2002 [(1, f), (2, v), (4, sum)]

/-- Signal flag `f` of core `c` with `n` (R114, R118). -/
def State.signal (s : State) (c f n : Nat) : State :=
  match flagUpdate (s.flag c f) 0 n with
  | some v => s.setFlag c f v
  | none => s.flagOverflow c f (s.flag c f) n

/-- Two flag names of two cores have one home (R113). -/
def sameFlag (c f d g : Nat) : Bool := f == g && (if f < 64 then c == d else c / 4 == d / 4)

/-- The signals of one cycle, each of a core, a flag and a count: those of one flag join one sum (R117, R118). -/
def State.signals (s : State) (l : List (Nat × Nat × Nat)) : State :=
  l.zipIdx.foldl (fun (st : State) (x, k) =>
    if (l.take k).any fun y => sameFlag y.1 y.2.1 x.1 x.2.1 then st
    else st.signal x.1 x.2.1 ((l.filter fun y => sameFlag y.1 y.2.1 x.1 x.2.1).map (·.2.2)).sum) s

/-- The synchronisation fields of a queued operation. -/
def slotSync : SlotOp → SyncF
  | .mx o => o.sync
  | .ve o => o.sync
  | .ld (.ld _ _ _ _ y) => y
  | .ld (.scnt _ _ _ _ _ _ y) => y
  | .ld (.scas _ _ _ _ _ _ y) => y
  | .ld (.smcnt _ _ _ _ _ _ _ _ y) => y
  | .ld (.smcas _ _ _ _ _ _ _ y) => y
  | .st (.st _ _ _ _ y) => y
  | .st (.stLink _ _ _ y) => y
  | .st (.stSignal _ _ _ y) => y
  | _ => {}

/-- The engine's head operation and its wait, when the wait is met (R111, R115): a consuming wait on a pod
flag is met once the pod arbiter has granted it (R117). -/
def State.headReady (s : State) (c : Nat) (e : EngId) : Option QOp :=
  match ((s.core c).eng e).queue with
  | [] => none
  | q :: _ =>
    let y := slotSync q.op
    match y.wflag with
    | none => some q
    | some f =>
      if 64 ≤ f ∧ ¬ y.keep then (if ((s.core c).eng e).granted then some q else none)
      else if y.wcount ≤ s.flag c f then some q else none

/-- The number of a waiter (R117): SY, then the engines. -/
def engWaiter : EngId → Nat | .mx => 1 | .ve => 2 | .ld => 3 | .st => 4

/-- The head leaves the queue as it begins: a consuming wait on a core flag takes its count, and the wait-watchdog count
of the waiter clears (R122). -/
def State.takeHead (s : State) (c : Nat) (e : EngId) : State :=
  match ((s.core c).eng e).queue with
  | [] => s
  | q :: rest =>
    let y := slotSync q.op
    let s := match y.wflag with
      | some f => if f < 64 ∧ ¬ y.keep then s.setFlag c f (s.flag c f - y.wcount) else s
      | none => s
    (s.modEng c e fun x => { x with queue := rest, granted := false }).modCore c fun x =>
      { x with waits := x.waits.erase (engWaiter e) }

/-- The core's engines may act: its unit runs a job that is neither parking nor ended by a fault. -/
def State.coreRuns (s : State) (c : Nat) : Bool :=
  match s.unitOf c with
  | some u => s.unitState u = 1 && (s.job u).fault.isNone && (s.job u).parkReqs.isEmpty
  | none => false

/-- The first event of an operation's signal: owed at the completion point (R116). -/
def Engine.owe (x : Engine) (y : SyncF) : Engine :=
  match y.sflag with
  | some f => { x with sigs := x.sigs ++ [⟨f, y.scount⟩] }
  | none => x

/-- Everything an engine still has to do: queue, operation, signals and deliveries (R126, Table 4-2). -/
def Engine.quiet (x : Engine) : Bool :=
  x.queue.isEmpty && x.cur.isEmpty && x.sigs.isEmpty && x.delivs.isEmpty

end Sys2Proof.Machine
end

