-- ==== Sys2Proof/Machine/Pools.lean ====
section
/-! DEFINITION. Credit pools, grants and slots (R225–R231), and readiness of cut-through grants (R262–R264). -/

namespace Sys2Proof.Machine

/-- The open grant of a pool that starts at `first`. -/
def State.grantAt (s : State) (i first : Nat) : Option Grant := (s.openGrants i).find? fun g => g.first == first

/-- The grant, open or completed, that a readiness binding names (R263): it has an accepted lead card. -/
def State.leadGrant (s : State) (i first : Nat) : Option Grant :=
  (s.pool i).grants.find? fun g => g.first == first && g.lead.isSome

/-- READY of a cut-through grant (R262). -/
def Grant.ready (g : Grant) : Nat :=
  match g.lead with
  | some (rows, rb) => if g.closed then rows else if rb = 0 then 0 else min rows (g.pfx / rb)
  | none => 0

def Grant.rows (g : Grant) : Nat := match g.lead with | some (r, _) => r | none => 0

/-- The signals due for READY under PACE, in all (R263). -/
def Grant.due (g : Grant) (pace : Nat) : Nat :=
  g.ready / pace + if g.ready = g.rows ∧ g.rows % pace ≠ 0 then 1 else 0

/-! ### Closing grants (R264, R265, R410) -/

/-- Every job bound to the grant ends with 0x4006; the queue manager asks for a replay at its job end (R257). -/
def State.cutAbort (s : State) (i first : Nat) : State :=
  (List.range 171).foldl (fun st u =>
    let j := st.job u
    if st.hasJob u && j.fault.isNone && (match j.bound with | some (p, f, _) => p == i && f == first | none => false)
    then st.raise { code := 0x4006, ctx := some j.ctx, unit := u, accession := j.card.accession,
                    layer := j.card.layer, oper := j.card.oper }
    else st) s

/-- A grant closes without its XFER: its lead card goes and bound jobs end (R264). -/
def State.dropGrant (s : State) (i : Nat) (g : Grant) : State :=
  let p := s.pool i
  let s := s.setPool i { p with grants := p.grants.erase g }
  let s := { s with qm := { s.qm with leads := s.qm.leads.filter fun l => !(l.pool == i && l.first == g.first) } }
  if g.lead.isSome then s.cutAbort i g.first else s

/-- As `dropGrant`, and its slots are released (R265 step 3, R410). -/
def State.reclaimGrant (s : State) (i : Nat) (g : Grant) : State :=
  (s.dropGrant i g).releaseSlots i (slotRun (s.poolSlots i) g.first g.count)

/-- Setting EN to 0: the waiting list and every open grant are cleared (R235, R264). -/
def State.poolOff (s : State) (i : Nat) : State :=
  let s := s.setBit (R.poolPoolCfg i) 0 false
  let s := (s.openGrants i).foldl (fun st g => st.dropGrant i g) s
  s.setPool i { s.pool i with waiting := [], grants := [] }

/-- The conditions of an enable (R225). -/
def State.poolEnableOk (s : State) (i : Nat) : Bool :=
  let n := s.poolSlots i * s.slotSize i
  let b := s.poolBase i
  b % s.slotSize i == 0 && b + n ≤ smSize &&
    (granulesOf b n).all fun g => s.granValid g && s.granOwner g == s.poolCtx i && s.granClass g == 2

/-- NEXT is 0 and FREE is SLOTS. -/
def State.startFree (s : State) (i : Nat) : State := s.setFld (R.poolPoolState i) 24 0 (s.poolSlots i * 4096)

/-- FREE falls by `n`. -/
def State.takeFree (s : State) (i n : Nat) : State := s.setFld (R.poolPoolState i) 24 12 (s.poolFree i - n)

/-- EN goes to 1: FREE is SLOTS and every slot is FREE. -/
def State.poolOn (s : State) (i : Nat) : State :=
  if s.poolEn i then s
  else if s.poolEnableOk i then
    ((s.setBit (R.poolPoolCfg i) 0 true).startFree i).setPool i {}
  else s.setBit R.smemcStatus 1 true

/-! ### The arbiter (R228) -/

/-- An answer to a request (Table 8-6): a reply to another chip goes back as a packet; one to an agent of this
chip reaches it through the chip. -/
def State.creditAnswer (s : State) (i : Nat) (w : CreditWait) (status first : Nat) : State :=
  let p := mkCreditReply w.chip s.chip w.slice i (if status = 0 then w.count else 0) w.tag status first
  let s := if status = 0 then s else s.count (R.poolPoolBusyCnt i) 1
  if w.requester < 32 then (s.sendPkt p none).1 else s.toChip 32 p

/-- A new request is refused, answered BUSY, or joins the waiting list. -/
def State.creditRequest (s : State) (i : Nat) (w : CreditWait) : State :=
  if ¬ s.poolEn i ∨ w.slice ≠ s.poolSlice i ∨ w.count = 0 ∨ 64 < w.count ∨ s.poolSlots i < w.count then
    s.creditAnswer i w 2 0
  else if 64 ≤ (s.pool i).waiting.length then s.creditAnswer i w 1 0
  else s.setPool i { s.pool i with waiting := (s.pool i).waiting ++ [w] }

/-- The head request is granted when FREE covers it and fewer than 64 grants are open. -/
def State.creditGrant (s : State) (i : Nat) : State :=
  match (s.pool i).waiting with
  | w :: rest =>
    if s.poolEn i ∧ w.count ≤ s.poolFree i ∧ (s.openGrants i).length < 64 then
      let first := s.poolNext i
      let p := (s.pool i).mark (slotRun (s.poolSlots i) first w.count) 1
      let g : Grant := { first, count := w.count, chip := w.chip, time := s.now }
      let s := s.setPool i { p with waiting := rest, grants := p.grants ++ [g] }
      let s := s.setFld (R.poolPoolState i) 11 0 ((first + w.count) % s.poolSlots i)
      (s.takeFree i w.count).creditAnswer i w 0 first
    else s
  | [] => s

/-! ### Landing writes (R229, R262) -/

/-- The enabled pool whose window holds local address `a`. -/
def State.poolOfAddr (s : State) (a : Nat) : Option Nat :=
  (List.range 128).find? fun i => s.poolEn i && s.poolBase i ≤ a && a < s.poolBase i + s.poolSlots i * s.slotSize i

/-- The open grant to `chip` whose slots hold bytes [a, a + n). -/
def State.grantOf (s : State) (i chip a n : Nat) : Option Grant :=
  let z := s.slotSize i
  let k (x : Nat) : Nat := (x - s.poolBase i) / z
  (s.openGrants i).find? fun g => g.chip == chip && s.poolBase i + s.poolSlots i * s.slotSize i ≥ a + n &&
    (List.range ((n + z - 1) / z + 1)).all fun j =>
      (slotRun (s.poolSlots i) g.first g.count).contains (k (min (a + j * z) (a + n - 1)))

/-- Signal the readiness flags of the jobs bound to a grant (R263). -/
def State.signalReady (s : State) (i first : Nat) : State :=
  match s.leadGrant i first with
  | none => s
  | some g =>
    (List.range 171).foldl (fun st u =>
      let j := st.job u
      match j.bound with
      | some (p, f, n) =>
        let c := j.card
        let due := g.due (c.get 58 2)
        if st.hasJob u ∧ p = i ∧ f = first ∧ n < due then
          (st.setJob u { j with bound := some (p, f, due) }).signal (unitFirst u + c.get 56 1) (c.get 57 1) (due - n)
        else st
      | none => st) s

end Sys2Proof.Machine
end

