-- ==== Sys2Proof/Machine/Cards.lean ====
section
/-! DEFINITION. The queue manager's operations: roles and owners (R238), enqueue and dequeue (R240–R244), XFER
and XLEAD acceptance (R249, R261), replay windows (R254, R255), inline packets (R259), flush (R265). -/

namespace Sys2Proof.Machine

/-- The kinds of requester of Table 9-4. -/
inductive Agent where | link | seq | host | mc | asm | jobend | dispatch
  deriving DecidableEq, Repr

/-- The requester of an index of Table 9-4. -/
def agentOf (i : Nat) : Agent :=
  if i < 32 then .link else if i < 36 then .seq else if i = 36 then .host else if i = 37 then .mc
  else if i < 54 then .asm else if i = 54 then .jobend else .dispatch

/-- Producers by class (Table 9-2). -/
def produces (cls : Nat) (a : Agent) : Bool :=
  match cls with
  | 0 => a == .seq || a == .mc
  | 1 => a == .jobend
  | 2 => a == .jobend
  | 3 | 4 | 8 => a == .link || a == .host || a == .mc
  | 5 | 6 => a == .seq || a == .mc
  | 7 => a == .host || a == .mc || a == .seq || a == .asm
  | _ => false

/-- Consumers by class (Table 9-2). -/
def consumes (cls : Nat) (a : Agent) : Bool :=
  match cls with
  | 0 => a == .dispatch
  | 1 => a == .seq || a == .host
  | 2 => a == .seq || a == .host || a == .mc
  | 3 | 4 | 5 | 6 | 7 => a == .seq || a == .mc
  | 8 => a == .asm || a == .seq || a == .mc
  | _ => false

/-- A card of tag `t` that a link port enqueues on a CTX_JOB queue: no class 7 queue has a link port as a producer (Table
9-2), but a software tag names its queue there (R258), as the notices of R363 and R403 do. -/
def linkTag (cls t : Nat) : Bool := cls == 7 && decide (0xF0 ≤ t)

/-- The requester acts for the queue's owner: for context `ctx`, or (none) for every context (R238, R276). -/
def State.owns (s : State) (q : Nat) (a : Agent) (ctx : Option Nat) : Bool :=
  s.qClass q < 3 || a == .mc || (match ctx with | some x => x == s.qCtx q | none => true)

def State.mayEnq (s : State) (q : Nat) (a : Agent) (ctx : Option Nat) : Bool :=
  s.qEn q && produces (s.qClass q) a && s.owns q a ctx
def State.mayDeq (s : State) (q : Nat) (a : Agent) (ctx : Option Nat) : Bool :=
  s.qEn q && consumes (s.qClass q) a && s.owns q a ctx

/-- A card is discarded or refused under an event code (R272); the event names the card's numbers (R248). -/
def State.cardEvent (s : State) (code : Nat) (ctx : Option Nat) (q : Option Nat) (c : Card) : State :=
  (s.discard q).raise { code, ctx, accession := c.accession, layer := c.layer, oper := c.oper }

/-- Add to account `n` of context `x` (R382). -/
def State.account (s : State) (x n v : Nat) : State := s.count64 (R.ctxselAcc x n) v

/-! ### Replay windows (R254, R255) -/

def State.replayOf (s : State) (q : Nat) : List Card := s.qm.replay.get [] q
def State.setReplay (s : State) (q : Nat) (l : List Card) : State :=
  ({ s with qm := { s.qm with replay := s.qm.replay.set [] q l } }).setFld (R.qselQreplayUsed q) 6 0 l.length

/-- Entries of accession `a` of queue `q` retire. -/
def State.retireEntries (s : State) (q a : Nat) : State :=
  s.setReplay q ((s.replayOf q).filter fun c => c.accession ≠ a)

/-- A card accepted on queue `p` retires the entries of its accession in every queue paired with it. -/
def State.pairedRetire (s : State) (p a : Nat) : State :=
  (s.qm.replay.map (·.1)).foldl (fun st q =>
    if st.fld (R.qselQreplay q) 18 7 = p ∧ ¬ st.bit (R.qselQcfg q) 14 then st.retireEntries q a else st) s

/-- A card enters a queue (R240, R255). -/
def State.accept (s : State) (q : Nat) (c : Card) : State :=
  ((s.qPush q c).globalEvent 40 1 1).pairedRetire q c.accession

/-- Cards held for a queue enter it as room appears: held DONE cards and replayed cards (Table 9-3). -/
def State.drainHeld (s : State) (q : Nat) : Nat → State
  | 0 => s
  | n + 1 =>
    if s.qEn q ∧ ¬ s.qFull q then
      match s.qm.doneHeld.find? fun p => 4 * p.1 + 1 == q with
      | some p =>
        let s := { s with qm := { s.qm with doneHeld := s.qm.doneHeld.erase p } }
        (s.qPush q p.2).drainHeld q n
      | none =>
        match s.qm.replayWait.find? fun p => p.1 == q with
        | some p =>
          let s := { s with qm := { s.qm with replayWait := s.qm.replayWait.erase p } }
          (s.accept q p.2).drainHeld q n
        | none => s
    else s

/-- The head leaves the queue. -/
def State.takeCard (s : State) (q : Nat) : State := ((s.qPop q).globalEvent 40 2 1).drainHeld q 65

/-- Record a SEND card in the window of its ORIGIN when its XFER is sent: `none` when the window is full. -/
def State.recordSend (s : State) (q : Nat) (c : Card) : Option State :=
  let w := s.fld (R.qselQreplay q) 6 0
  if q = 0xFFF ∨ w = 0 ∨ (s.qClass q ≠ 5 ∧ s.qClass q ≠ 6) then some s
  else if c.replay ∧ (s.replayOf q).any fun e => e.accession == c.accession then some s
  else if w ≤ (s.replayOf q).length then none
  else some (s.setReplay q (s.replayOf q ++ [c]))

/-! ### Enqueue and dequeue by an agent -/

inductive EnqStatus where | ok | full | refused | tag
  deriving DecidableEq, Repr

def EnqStatus.code : EnqStatus → Nat | .ok => 0 | .full => 1 | .refused => 2 | .tag => 2

/-- The grant that an XFER or XLEAD names, when every condition of R249 holds. -/
def State.xferGrant (s : State) (q : Nat) (c : Card) : Option Grant :=
  let i := c.xPool
  if s.poolEn i && c.slice == s.poolSlice i && c.xBytes ≤ c.xCount * s.slotSize i
      && c.xRows * c.xRowBytes ≤ c.xBytes && c.tqueue == q && s.qEn q
      && [3, 4, 7, 8].contains (s.qClass q) && s.qCtx q == s.poolCtx i then
    (s.openGrants i).find? fun g => g.first == c.xFirst && g.count == c.xCount && g.chip == c.srcChip
  else none

def State.setGrant (s : State) (i : Nat) (g g' : Grant) : State :=
  s.setPool i { s.pool i with grants := (s.pool i).grants.map fun x => if x = g then g' else x }

/-- An XFER or XLEAD is offered to queue `q` (R249, R261, R262, R265): `none` while the queue is full. -/
def State.offerXfer (s : State) (q : Nat) (c : Card) : Option State :=
  let i := c.xPool
  if c.tag = 0x10 ∧ s.qm.flushedXfers.contains (i, c.xFirst) then
    let s := { s with qm := { s.qm with flushedXfers := s.qm.flushedXfers.erase (i, c.xFirst) } }
    some (s.cardEvent 0x4013 (some c.ctx) (some q) c)
  else
    match s.xferGrant q c with
    | none => some (s.cardEvent 0x4004 (some c.ctx) (some q) c)
    | some g =>
      if c.tag = 0x11 then
        if s.fld (R.qselQcut q) 15 0 = 0 then some (s.cardEvent 0x4005 (some c.ctx) (some q) c)
        else if g.lead.isSome then some (s.cardEvent 0x4004 (some c.ctx) (some q) c)
        else
          let l : LeadCard := { card := c, queue := q, pool := i, first := g.first }
          let s := s.setGrant i g { g with lead := some (c.xRows, c.xRowBytes) }
          some { s with qm := { s.qm with leads := s.qm.leads ++ [l] } }
      else
        let close (s : State) : State :=
          s.setPool i ((s.pool i).mark (slotRun (s.poolSlots i) g.first g.count) 2)
        if g.lead.isSome then
          let s := close (s.setGrant i g { g with closed := true })
          some (s.signalReady i g.first)
        else if s.qFull q then none
        else
          let s := close (s.setPool i { s.pool i with grants := (s.pool i).grants.erase g })
          some (s.accept q c)

/-- A card is offered to a queue by an agent acting for `ctx` (R238, R240, R244). -/
def State.offer (s : State) (a : Agent) (ctx : Option Nat) (q : Nat) (c : Card) : State × EnqStatus :=
  if ¬ tagKnown c.tag then (s.cardEvent 0x4001 (some c.ctx) (some q) c, .tag)
  else if c.tag = 0x10 ∨ c.tag = 0x11 then
    if a ≠ .link ∧ ¬ s.mayEnq q a ctx then (s.cardEvent 0x4002 (ctx.or (some c.ctx)) (some q) c, .refused)
    else match s.offerXfer q c with
      | some s => (s, .ok)
      | none => (s, .full)
  else if ¬ (s.mayEnq q a ctx || (a == .link && s.qEn q && linkTag (s.qClass q) c.tag && s.owns q a ctx)) then
    (s.cardEvent 0x4002 (ctx.or (some c.ctx)) (some q) c, .refused)
  else if s.qFull q then (s, .full)
  else (s.accept q c, .ok)

/-- What a dequeue gives: the state, the card, and whether it was refused. -/
inductive DeqRes where
  | card (c : Card)
  | empty
  | refused
  | other
  deriving DecidableEq, Repr

/-- A dequeue by an agent (R240, R243); `other` says of a head card that it is another context's (R282). -/
def State.dequeue (s : State) (a : Agent) (ctx : Option Nat) (q : Nat) (other : Card → Bool) : State × DeqRes :=
  if ¬ s.mayDeq q a ctx then (s.raise { code := 0x4002, ctx }, .refused)
  else match s.qHead q with
    | none => (s.globalEvent 40 3 1, .empty)
    | some c =>
      let k := s.qSlot q (s.qRd q)
      let s := if s.cardBad k 1 = 0 then s else (s.count R.qmCeCnt (s.cardBad k 1)).intEvent 400 0
      if s.cardBad k 2 ≠ 0 then
        let s := (((s.count R.qmUeCnt 1).intEvent 400 1).observe 9 0).takeCard q
        (s.cardEvent 0x4010 (some c.ctx) (some q) c, .empty)
      else if other c then (s, .other)
      else (s.takeCard q, .card c)

/-! ### DONE cards (R247, Table 9-3) -/

/-- Enqueue a DONE card, or hold it until the queue has room. -/
def State.postDone (s : State) (u : Nat) (c : Card) : State :=
  let q := 4 * u + 1
  if s.qEn q ∧ ¬ s.qFull q ∧ ¬ s.qm.doneHeld.any (fun p => p.1 == u) then s.qPush q c
  else ({ s with qm := { s.qm with doneHeld := s.qm.doneHeld ++ [(u, c)] } }).intEvent 400 3

/-! ### Cards sent by the queue manager (R256, R257) -/

/-- A card of context `x` to chip `dst`, in the context's slice. -/
def State.sendCtxCard (s : State) (dst x : Nat) (c : Card) : State :=
  (s.sendPkt (mkCard dst s.chip (s.ctxSlice x) c) (some x)).1

/-- A header card with a tag, for TQUEUE `tq`. -/
def State.mkCtl (s : State) (tag x acc tq slice : Nat) : Card :=
  (mkHeader tag x acc 0 0 s.chip slice).put 16 2 tq

/-- A received REPLAY_REQ (R257). -/
def State.replayReq (s : State) (c : Card) : State :=
  let q := c.tqueue
  let es := (s.replayOf q).filter fun e => e.accession == c.accession
  if s.qEn q ∧ (s.qClass q = 5 ∨ s.qClass q = 6) ∧ es ≠ [] then
    es.foldl (fun (st : State) e =>
      if st.qFull q ∨ st.qm.replayWait.any (fun p => p.1 == q) then
        { st with qm := { st.qm with replayWait := st.qm.replayWait ++ [(q, e.setReplay)] } }
      else st.accept q e.setReplay) s
  else
    let nak := s.mkCtl 0x16 c.ctx c.accession 0xFFF c.slice
    ((s.discard none).sendPkt (mkCard c.srcChip s.chip c.slice nak) none).1

/-- A received REPLAY_NAK (R257). -/
def State.replayNak (s : State) (c : Card) : State :=
  if s.ctxState c.ctx = 2 ∨ s.ctxState c.ctx = 3 then
    s.raise { code := 0x4008, ctx := some c.ctx, accession := c.accession }
  else s.discard none

/-- A RETIRE card for a queue (R255). -/
def State.retireCard (s : State) (c : Card) : State :=
  let q := c.tqueue
  if s.bit (R.qselQcfg q) 14 ∧ (s.replayOf q).any (fun e => e.accession == c.accession) then
    s.retireEntries q c.accession
  else s.cardEvent 0x4009 (some c.ctx) none c

/-! ### Receive FIFOs and inline packets (R258–R260) -/

def State.rx (s : State) (p : Nat) : RxPort := s.qm.rx.get {} p
def State.setRx (s : State) (p : Nat) (x : RxPort) : State :=
  ({ s with qm := { s.qm with rx := s.qm.rx.set {} p x } }).setFld (R.qmPortRx p) 11 3 x.fifo.length

/-- An INLINE card in routed mode (R259, R265): `none` while its queue is full. -/
def State.inlineCard (s : State) (p : Nat) (c : Card) : Option State :=
  let x := s.rx p
  let i := x.inline
  let setI (s : State) (i : InlinePkt) : State := s.setRx p { s.rx p with inline := i }
  let orphan (s : State) : State := s.cardEvent 0x4007 (some c.ctx) (some c.tqueue) c
  if c.first ∧ i.isOpen then some (orphan (setI s {}))
  else if ¬ c.first ∧ ¬ i.isOpen then some (orphan s)
  else if ¬ c.first ∧ i.flushed then
    some ((setI s (if c.last then {} else i)).cardEvent 0x4013 (some c.ctx) (some c.tqueue) c)
  else if ¬ c.first ∧ 64 ≤ i.count then some (orphan (setI s {}))
  else
    match s.offer .link (some c.ctx) c.tqueue c with
    | (_, .full) => none
    | (s, r) =>
      let q := c.tqueue
      let was : InlinePkt := if c.first then {} else i
      let i' : InlinePkt := { isOpen := true, count := was.count + 1,
                              latest := if r = .ok then was.latest.set 0 q (s.qm.entered.get 0 q) else was.latest }
      some (setI s (if c.last then {} else i'))

/-- The queue manager acts on a routed card by its tag (R258): `none` while its queue is full. -/
def State.routeCard (s : State) (p : Nat) (c : Card) : Option State :=
  let t := c.tag
  if t = 0x12 then s.inlineCard p c
  else if t = 0x13 then some (s.replayReq c)
  else if t = 0x16 then some (s.replayNak c)
  else if t = 0x14 then some (s.retireCard c)
  else if t = 0x10 ∨ t = 0x11 ∨ t = 0x20 ∨ 0xF0 ≤ t then
    match s.offer .link (some c.ctx) c.tqueue c with
    | (_, .full) => none
    | (s', .ok) => some (s'.account c.ctx 8 64)
    | (s', _) => some s'
  else some (s.cardEvent 0x4001 (some c.ctx) none c)

/-- The queue manager serves a routed FIFO's head while it can. -/
def State.serveRx (s : State) (p : Nat) : Nat → State
  | 0 => s
  | n + 1 =>
    match (s.rx p).fifo with
    | [] => s
    | c :: rest =>
      if s.bit (R.qmPortRx p) 0 then s
      else match s.routeCard p c with
        | none => s
        | some s => (s.setRx p { s.rx p with fifo := rest }).serveRx p n

/-- A card arrives at a port's FIFO (R258, R260); `none` while it is full.  One with a reserved tag is discarded on arrival
where no queue manager acts on it (R244). -/
def State.arriveRx (s : State) (p : Nat) (c : Card) : Option State :=
  let drop := s.bit (R.qmPortRx p) 12 && c.tag == 0x12
  if ¬ tagKnown c.tag ∧ s.bit (R.qmPortRx p) 0 then some (s.cardEvent 0x4001 (some c.ctx) none c)
  else if drop ∧ ¬ c.first then
    let s := s.count R.qmDiscardCnt 1
    some (if c.last then s.setBit (R.qmPortRx p) 12 false else s)
  else if 256 ≤ (s.rx p).fifo.length then none
  else
    let s := if drop then s.setBit (R.qmPortRx p) 12 false else s
    some (s.setRx p { s.rx p with fifo := (s.rx p).fifo ++ [c] })

/-- RXDROP (R260): the cards of the current packet in the FIFO go, and DROPPING is set while its LAST card is to
come. -/
def dropCurrent : List Card → List Card × Nat × Bool
  | [] => ([], 0, false)
  | c :: t =>
    if c.tag = 0x12 ∧ c.first then (c :: t, 0, true)
    else if c.tag = 0x12 then
      if c.last then (t, 1, true)
      else let (l, n, d) := dropCurrent t; (l, n + 1, d)
    else let (l, n, d) := dropCurrent t; (c :: l, n, d)

def State.rxDrop (s : State) (p : Nat) : State :=
  let x := s.rx p
  if x.current then
    let (l, n, ended) := dropCurrent x.fifo
    let s := s.setRx p { x with fifo := l, current := false }
    let s := s.count R.qmDiscardCnt n
    if ended then s else s.setBit (R.qmPortRx p) 12 true
  else s

/-! ### Flush (R265) -/

/-- Release the slots of a transfer that are CLOSED. -/
def State.releaseClosed (s : State) (i first count : Nat) : State :=
  s.releaseSlots i ((slotRun (s.poolSlots i) first count).filter fun k => (s.pool i).slots.get 0 k = 2)

/-- A lead card is removed: its grant closes and its slots are released; the XFER still to come is remembered. -/
def State.flushLead (s : State) (i first count : Nat) : State :=
  match s.grantAt i first with
  | some g =>
    let s := s.reclaimGrant i g
    { s with qm := { s.qm with flushedXfers := s.qm.flushedXfers ++ [(i, first)] } }
  | none => s.releaseClosed i first count

def State.flushQueue (s : State) (q : Nat) : State :=
  let cs := s.qCards q
  let gone := s.qm.entered.get 0 q - s.qLen q
  let s := s.qClear q
  let s := (s.count R.qmFlushCnt cs.length).count (R.qselQdropCnt q) cs.length
  let s := cs.foldl (fun (st : State) c =>
    if c.tag = 0x10 then st.releaseClosed c.xPool c.xFirst c.xCount
    else if c.tag = 0x11 then st.flushLead c.xPool c.xFirst c.xCount else st) s
  let s := (s.qm.leads.filter fun l => l.queue == q).foldl (fun (st : State) l =>
    let st := { st with qm := { st.qm with leads := st.qm.leads.erase l } }
    st.flushLead l.pool l.first l.card.xCount) s
  let s := (List.range 32).foldl (fun (st : State) p =>
    let x := st.rx p
    if x.inline.isOpen ∧ gone < x.inline.latest.get 0 q then st.setRx p { x with inline := { x.inline with flushed := true } }
    else st) s
  s.drainHeld q 65

/-- EN goes to 0: the queue empties as by a flush (R238). -/
def State.queueOff (s : State) (q : Nat) : State :=
  if s.qEn q then (s.setBit (R.qselQcfg q) 0 false).flushQueue q else s

/-- The conditions of an enable (R238). -/
def State.queueEnableOk (s : State) (q : Nat) : Bool :=
  let d := s.qDepth q
  (if q < 684 then q % 4 != 3 else 1024 ≤ q && q ≤ 4094 && 3 ≤ s.qClass q && s.qClass q ≤ 8)
    && 4 ≤ s.qLog q && s.qLog q ≤ 12 && s.qBase q % d == 0 && s.qBase q + d ≤ 65536 &&
    (List.range 4095).all fun o => o == q || !s.qEn o ||
      s.qBase o + s.qDepth o ≤ s.qBase q || s.qBase q + d ≤ s.qBase o

def State.queueOn (s : State) (q : Nat) : State :=
  if s.qEn q then s
  else if s.queueEnableOk q then
    let s := (s.setFld (R.qselQptr q) 12 0 0).setFld (R.qselQptr q) 28 16 0
    s.setBit (R.qselQcfg q) 0 true
  else s.setBit R.qmStatus 0 true

/-! ### Lead cards and readiness (R261, R263) -/

/-- A lead card's readiness has reached its queue's CUT, and its queue has room (R261). -/
def State.leadDue (s : State) (l : LeadCard) : Bool :=
  (match s.leadGrant l.pool l.first with
   | some g => min (s.fld (R.qselQcut l.queue) 15 0) g.rows ≤ g.ready
   | none => false) && s.qEn l.queue && !s.qFull l.queue

/-- The first lead card whose READY has reached min(THRESH, ROWS) enters its queue, when it has room. -/
def State.leadEnqueue (s : State) : State :=
  match s.qm.leads.find? s.leadDue with
  | some l =>
    let s := { s with qm := { s.qm with leads := s.qm.leads.erase l } }
    s.accept l.queue l.card
  | none => s

end Sys2Proof.Machine
end

