-- ==== Sys2Proof/Machine/Transfer.lean ====
section
/-! DEFINITION. Stage sequencers' shared operations and transfer slots (R274–R276, R289–R295, R300, R356). -/

namespace Sys2Proof

/-! ### SEND card fields (Table 10-6) -/

def Card.sPool (c : Card) : Nat := bits c 150 144
def Card.sCount (c : Card) : Nat := bits c 158 152
def Card.sShift (c : Card) : Nat := bits c 164 160
def Card.sLead (c : Card) : Bool := bits c 168 168 = 1
def Card.sTensor (c : Card) : Nat := c.get 22 2
def Card.sDest (c : Card) : Nat := bits c 211 192
def Card.sBytes (c : Card) : Nat := c.get 28 4
def Card.sRows (c : Card) : Nat := c.get 32 4
def Card.sRowBytes (c : Card) : Nat := c.get 36 4
def Card.sSrc (c : Card) : Nat := bits c 353 320
def Card.sBase (c : Card) : Nat := bits c 417 384

/-- A SEND card whose fields follow Table 10-6. -/
def Card.sendOk (c : Card) : Bool :=
  c.tag == 0x15 && 1 ≤ c.sCount && c.sCount ≤ 64 && 12 ≤ c.sShift && c.sShift ≤ 25 && 1 ≤ c.sBytes
    && c.sBytes ≤ c.sCount * 2 ^ c.sShift && c.sRows * c.sRowBytes ≤ c.sBytes && c.sBase % 2 ^ c.sShift == 0

end Sys2Proof

namespace Sys2Proof.Machine

/-! ### Sequencer state -/

def State.seq (s : State) (q : Nat) : Seqr := s.seqs.get {} q
def State.setSeq (s : State) (q : Nat) (x : Seqr) : State := { s with seqs := s.seqs.set {} q x }
def State.modSeq (s : State) (q : Nat) (f : Seqr → Seqr) : State := s.setSeq q (f (s.seq q))
/-- SEQ_STATUS.STATE (Table 10-11). -/
def State.seqState (s : State) (q : Nat) : Nat := s.fld (R.stgSeqStatus q) 2 0
def State.setSeqState (s : State) (q v : Nat) : State := s.setFld (R.stgSeqStatus q) 2 0 v
def State.seqPc (s : State) (q : Nat) : Nat := s.fld (R.stgSeqPc q) 13 0
def State.setSeqPc (s : State) (q v : Nat) : State := s.setFld (R.stgSeqPc q) 13 0 v
/-- The word at the sequencer's PC. -/
def State.seqWord (s : State) (q : Nat) : BitVec 32 := ((s.seq q).code[s.seqPc q]?).getD 0
/-- General registers: G0 reads as 0 and discards writes (Table 10-1). -/
def State.g (s : State) (q n : Nat) : Word := if n = 0 then 0 else s.rd (R.stgGreg q n)
def State.setG (s : State) (q n : Nat) (v : Word) : State := if n = 0 then s else s.wr (R.stgGreg q n) v
/-- A SYSTEM program. -/
def State.seqSystem (s : State) (q : Nat) : Bool := (s.seq q).level == 1
/-- The context for which a sequencer acts: none for a SYSTEM program, which acts for many. -/
def State.seqCtx (s : State) (q : Nat) : Option Nat := if s.seqSystem q then none else some (s.seq q).ctx

/-- STAGE_PROGRAM (R300): the sequencer stops faulted; a CONTEXT program's context is torn down, a SYSTEM
program's fault is an event. -/
def State.stageFault (s : State) (q reason : Nat) : State :=
  let pc := s.seqPc q
  let w := s.seqWord q
  let s := s.wr (R.stgSeqFault q) (BitVec.ofNat 64 (reason + 16 * pc))
  let s := (s.setSeqState q 5).intEvent (408 + q) 1
  s.raise { code := 0x7004, ctx := s.seqCtx q, detail := [(1, q), (2, pc), (4, w.toNat), (1, reason)],
            loc := q, alt := s.seqSystem q }

/-- A card forced under Table 10-3: CTX and SLICE of a CONTEXT program. -/
def State.forced (s : State) (q : Nat) (c : Card) : Card :=
  match s.seqCtx q with
  | some x => setBits (setBits c 24 16 x) 127 116 (s.ctxSlice x)
  | none => c

/-! ### Transfer slots (Table 10-7) -/

def State.slot (s : State) (q k : Nat) : XSlot := (s.seq q).slots.get {} k
def State.setSlot (s : State) (q k : Nat) (x : XSlot) : State :=
  s.modSeq q fun z => { z with slots := z.slots.set {} k x }
def State.slotState (s : State) (q k : Nat) : Nat := s.fld (R.stgXslot q k) 3 0
def State.slotFirst (s : State) (q k : Nat) : Nat := s.fld (R.stgXslot q k) 15 4
def State.slotCount (s : State) (q k : Nat) : Nat := s.fld (R.stgXslot q k) 22 16
def State.slotGen (s : State) (q k : Nat) : Nat := s.fld (R.stgXslot q k) 24 23
/-- A slot changes state: event bit 8 (R290). -/
def State.setSlotState (s : State) (q k v : Nat) : State :=
  (s.setFld (R.stgXslot q k) 3 0 v).modSeq q fun z => { z with events := z.events ||| 256 }

/-- The context of a slot's transfer. -/
def State.slotCtx (s : State) (q k : Nat) : Nat := (s.forced q (s.slot q k).card).ctx

/-- An XFER or XLEAD of slot `k` (R294): the SEND card's header with its tag, the chip's number and slice. -/
def State.xferCard (s : State) (q k tag : Nat) : Card :=
  let x := s.slot q k
  let c := s.forced q x.card
  let h : Card := BitVec.ofNat 512 (c.toNat % 2 ^ 128)
  let h : Card := setBits (Card.put h 0 1 tag) 115 96 s.chip
  let h := h.put 16 2 c.tqueue
  let h := h.put 18 1 c.sPool
  let h := h.put 20 2 (s.slotFirst q k)
  let h := h.put 22 1 c.sCount
  let h := h.put 24 4 c.sBytes
  let h := h.put 28 4 c.sRows
  let h := h.put 32 4 c.sRowBytes
  let h := h.put 36 2 c.sTensor
  let h := h.put 38 2 x.origin
  h.put 40 8 (c.get 56 8)

/-- A closing XFER (R379): BYTES, ROWS and ROW_BYTES are 0. -/
def State.closingCard (s : State) (q k : Nat) : Card :=
  (((s.xferCard q k 0x10).put 24 4 0).put 28 4 0).put 32 4 0

/-- Send a card of a transfer to DEST_CHIP. -/
def State.sendXfer (s : State) (q k : Nat) (c : Card) : State :=
  let x := s.slot q k
  (s.sendPkt (mkCard x.card.sDest s.chip c.slice c) (some (s.slotCtx q k))).1

/-- The instruction in progress ends: Gd is written and the next word follows. -/
def State.seqFinish (s : State) (q d : Nat) (v : Word) : State :=
  let s := s.setG q d v
  let s := s.setSeqPc q (s.seqPc q + 1)
  if s.seqState q = 3 then s.setSeqState q 2 else s

/-- The XDONE that waits on slot `k` ends with `v` in Gd. -/
def State.xdoneEnd (s : State) (q k v : Nat) : State :=
  if (s.seq q).xdone = some k ∧ s.seqState q = 3 then
    let s := s.modSeq q fun z => { z with xdone := none }
    s.seqFinish q (bits (s.seqWord q) 25 22) (BitVec.ofNat 64 v)
  else s

/-- Some transfer has a WRITE to send as requester `r` of R353: sequencer `r`, or the send-buffer path. -/
def State.slotWants (s : State) (r : Nat) : Bool :=
  if r < 4 then (List.range 16).any fun k =>
    let x := s.slot r k
    s.slotState r k == 6 && x.moving && !x.closing && decide (x.sent < x.card.sBytes)
  else (List.range 64).any fun k => s.slotState (k / 16) (k % 16) == 7 && !(s.slot (k / 16) (k % 16)).staging.isEmpty

/-- A transfer's WRITEs are given up: the waits for a tag that nothing needs any more end (R353). -/
def State.settleWaits (s : State) (q : Nat) : State :=
  let s := if s.slotWants q then s else s.dropTagWait q
  if s.slotWants 4 then s else s.dropTagWait 4

/-- A transfer fails (R356): its slot enters TIMEOUT and an XDONE that waits ends with 1; a slot that a
tear-down is closing waits for its epoch (R379). -/
def State.failSlot (s : State) (q k : Nat) : State :=
  let x := s.slot q k
  let s := s.setSlot q k { x with accepting := false, staging := [], failed := true, freeing := x.closing,
                                  epoch := if x.closing then s.epoch + 2 else x.epoch }
  ((s.setSlotState q k 5).settleWaits q).xdoneEnd q k 1

/-- A transfer fails under a code, which its context receives. -/
def State.failTransfer (s : State) (q k code : Nat) : State :=
  let x := s.slot q k
  (s.failSlot q k).raise { code, ctx := some (s.slotCtx q k), accession := x.card.accession, layer := x.card.layer,
                           oper := x.card.oper }

/-- The destination offset of byte `off` of the transfer. -/
def State.xferAddr (s : State) (q k off : Nat) : Nat :=
  let c := (s.slot q k).card
  c.sBase + s.slotFirst q k * 2 ^ c.sShift + off

/-- Send one WRITE of a transfer: `none` while no tag is free. -/
def State.slotWrite (s : State) (q k off : Nat) (bs : List Byte) (viaBuffer : Bool) : Option State :=
  let c := s.forced q (s.slot q k).card
  let info := if viaBuffer then 16 * q + k + 64 * s.slotGen q k else k + 16 * s.slotGen q k
  let r := if viaBuffer then 4 else q
  match s.sendWrite c.sDest c.slice (s.xferAddr q k off) r info bs (some c.ctx) with
  | none => none
  | some (s, true) =>
    let x := s.slot q k
    some ((s.setSlot q k { x with unacked := x.unacked + 1 }).account c.ctx 7 (16 + bs.length))
  | some (s, false) => some (s.failTransfer q k 0x6003)

/-- The bytes from `off` that one WRITE may carry: at most `n`, within one aligned 256-byte block. -/
def blockLen (a n : Nat) : Nat := min n (256 - a % 256)

/-- Send the writes of a transfer while tags are free (R292, R293): XMOVE's next blocks, or staged stores. -/
def State.pump (s : State) (q k : Nat) : Nat → State
  | 0 => s
  | n + 1 =>
    let x := s.slot q k
    let c := x.card
    if s.slotState q k = 6 ∧ x.moving ∧ ¬ x.closing ∧ x.sent < c.sBytes then
      let len := blockLen (s.xferAddr q k x.sent) (c.sBytes - x.sent)
      let (s', bs, lost) := s.memRead (c.sSrc + x.sent) len
      match lost with
      | some w =>
        let s' := s'.raise { code := lostCode (s.memClass w), ctx := some (s.slotCtx q k),
                             detail := smDetail s w (128 + q) [], loc := smTier w }
        s'.failSlot q k
      | none =>
        match s'.slotWrite q k x.sent bs false with
        | none => s.noteTagWait q
        | some s => ((s.setSlot q k { s.slot q k with sent := x.sent + len }).account (s.slotCtx q k) 6 len).pump q k n
    else match x.staging with
    | (off, bs) :: rest =>
      if s.slotState q k = 7 then
        let len := blockLen (s.xferAddr q k off) bs.length
        match s.slotWrite q k off (bs.take len) true with
        | none => s.noteTagWait 4
        | some s =>
          if s.slotState q k = 7 then
            let more := if len < bs.length then (off + len, bs.drop len) :: rest else rest
            (s.setSlot q k { s.slot q k with staging := more }).pump q k n
          else s
      else s
    | [] => s

/-- How many writes a slot may issue at a time: no more than there are tags. -/
def pumpFuel : Nat := 16385

/-- The slot's data has all gone and been acknowledged. -/
def XSlot.quiet (x : XSlot) : Bool := x.unacked == 0 && x.staging.isEmpty

/-- XDONE's end (R294): the window check, then the XFER; or HELD. -/
def State.xdoneTry (s : State) (q k : Nat) : State :=
  let x := s.slot q k
  let st := s.slotState q k
  if st = 8 ∨ st = 10 ∨ (st = 7 ∧ ¬ x.accepting ∧ x.quiet) then
    match s.recordSend x.origin x.card with
    | none =>
      let s := s.cardEvent 0x400A (some (s.slotCtx q k)) none x.card
      (s.setSlotState q k 10).xdoneEnd q k 2
    | some s =>
      let s := ((s.sendXfer q k (s.xferCard q k 0x10)).count (R.stgXferCnt q) 1).globalEvent (41 + q) 3 1
      (s.setSlotState q k 9).xdoneEnd q k 0
  else s

/-- A slot that a tear-down closes (R379): once its writes are settled the closing XFER goes and it is IDLE. -/
def State.closeTry (s : State) (q k : Nat) : State :=
  let x := s.slot q k
  let st := s.slotState q k
  if x.closing ∧ (st = 2 ∨ st = 6 ∨ st = 7 ∨ st = 8 ∨ st = 10) ∧ x.unacked = 0 then
    let s := s.sendXfer q k (s.closingCard q k)
    (s.setSlot q k {}).setSlotState q k 0
  else s

/-- A write of slot `k` was acknowledged. -/
def State.slotAcked (s : State) (q k : Nat) : State :=
  let x := s.slot q k
  let s := s.setSlot q k { x with unacked := x.unacked - 1 }
  let s := s.pump q k pumpFuel
  let x := s.slot q k
  let s := if s.slotState q k = 6 ∧ x.moving ∧ ¬ x.closing ∧ x.sent = x.card.sBytes ∧ x.unacked = 0 then
      s.setSlotState q k 8 else s
  let s := if (s.seq q).xdone = some k then s.xdoneTry q k else s
  s.closeTry q k

/-- The slot that a tag of requester `r` with `info` belongs to, when its request is still the slot's. -/
def State.tagSlot (s : State) (r info : Nat) : Option (Nat × Nat) :=
  let (q, k, g) := if r = 4 then (info % 64 / 16, info % 16, info / 64) else (r, info % 16, info / 16)
  let st := s.slotState q k
  if r ≤ 4 ∧ s.slotGen q k = g ∧ (st = 6 ∨ st = 7) then some (q, k) else none

/-- The outcome of a WRITE of a transfer (R356): acknowledged, or failed with a code. -/
def State.transferOutcome (s : State) (r info : Nat) (code : Option Nat) : State :=
  match s.tagSlot r info with
  | none => s
  | some (q, k) => match code with
    | none => s.slotAcked q k
    | some code => s.failTransfer q k code

/-- The slots of TIMEOUT whose epoch has come and whose XFREE was given become IDLE (R295). -/
def State.retireSlots (s : State) : State :=
  (List.range 4).foldl (fun st q => (List.range 16).foldl (fun (st : State) k =>
    let x := st.slot q k
    if st.slotState q k = 5 ∧ x.freeing ∧ x.epoch ≤ st.epoch then (st.setSlot q k {}).setSlotState q k 0 else st) st) s

/-- A credit reply meets its slot (R291, R379): GRANTED, BUSY or REFUSED, or it is late. -/
def State.creditReplySlot (s : State) (tag status first count : Nat) : State :=
  let k := tag % 16
  let q := tag / 16 % 4
  let x := s.slot q k
  if s.slotState q k = 1 ∧ s.slotGen q k = tag / 64 % 4 then
    if status = 0 then
      let s := (s.setFld (R.stgXslot q k) 15 4 first).setFld (R.stgXslot q k) 22 16 count
      (s.setSlotState q k 2).closeTry q k
    else
      let s := s.setSlot q k { x with since := s.now }
      let s := if status = 1 then s.globalEvent (41 + q) 4 1 else s
      if x.closing then (s.setSlot q k {}).setSlotState q k 0
      else s.setSlotState q k (if status = 1 then 3 else 4)
  else s.count (R.stgLateReplyCnt q) 1

end Sys2Proof.Machine
end

