-- ==== Sys2Proof/Machine/Engines.lean ====
section
/-! DEFINITION. What the collective and checkpoint engines share: their cards and when they stand still (R392, R510),
and what an END of a schedule table means to an armed checkpoint engine (R407). -/

namespace Sys2Proof.Machine

/-- The engines stand still: the device is FATAL (R392) or an orderly quiesce is in force (R510). -/
def State.enginesHeld (s : State) : Bool := s.fld R.mgtRecState 1 0 == 3 || s.bit R.hostQstopStatus 2

/-- A card of an engine enters a configurable queue of its context (R238), or waits for room (a choice of this model: R364,
R402). -/
def State.postCard (s : State) (q : Nat) (c : Card) : State :=
  if ¬ s.qEn q ∨ s.qClass q < 3 ∨ s.qCtx q ≠ c.ctx then s.cardEvent 0x4002 (some c.ctx) (some q) c
  else if s.qFull q ∨ s.qm.replayWait.any (fun p => p.1 == q) then
    { s with qm := { s.qm with replayWait := s.qm.replayWait ++ [(q, c)] } }
  else s.accept q c

/-- The gate card of a checkpoint (Table 14-10): 0 read done, 1 no checkpoint. -/
def State.gateCard (s : State) (x id status : Nat) : Card :=
  ((mkHeader 0xFD x 0 0 0 s.chip (s.ctxSlice x)).put 16 8 id).put 24 1 status

/-- A stored card that cannot be read is dropped (R217, Table 8-5); a TNEXT of a CONTEXT program of context `x` has returned END (R407). -/
def State.scheduleEnd (s : State) (x : Nat) : State :=
  [0, 1].foldl (fun (st : State) h =>
    let a := st.fld (R.halfCkptArm h) 33 6 * 64
    if st.ckptArmed h ≠ some x ∨ ¬ st.inPartition x a 64 then st
    else
      let (st, bs, lost) := st.memRead a 64
      match lost with
      | some w => (st.discard none).raise { code := 0x300B, ctx := some x, detail := smDetail st w 134 [], loc := smTier w }
      | none =>
        let c : Card := BitVec.ofNat 512 (leNat bs)
        if st.bit (R.halfCkptStatus h) 2 then
          (st.setBit (R.halfCkptStatus h) 2 false).postCard (st.fld (R.halfCkptReqQ h) 11 0) c
        else st.postCard (c.get 16 2) (st.gateCard x (c.get 32 8) 1)) s

end Sys2Proof.Machine
end

