-- ==== Sys2Proof/Machine/Scalar.lean ====
section
/-! DEFINITION. The scalar slot (R108, R123–R126, R155–R169). -/

namespace Sys2Proof.Machine

/-- Scalar register `n`: S0 reads as zero (R108). -/
def Core.sreg (x : Core) (n : Nat) : Word := if n = 0 then 0 else x.sregs.get 0 n
/-- Write a scalar register: writes to S0 are discarded (R108). -/
def Core.setSreg (x : Core) (n : Nat) (v : Word) : Core :=
  if n = 0 then x else { x with sregs := x.sregs.set 0 n v }

/-- The results due within `dt` cycles are written, the earliest first and, in one cycle, the later-issued last (R166). -/
def Core.settleSc (x : Core) (dt : Nat) : Core :=
  let due := x.scPend.filter (fun p => p.left ≤ dt)
  let x := { x with scPend := x.scPend.filter (fun p => dt < p.left) }
  (due.mergeSort (fun a b => a.left ≤ b.left)).foldl (fun y p => y.setSreg p.reg p.val) x

/-- `dt` cycles pass: what is due is written, and the other results move closer. -/
def Core.land (x : Core) (dt : Nat) : Core :=
  let y := x.settleSc dt
  { y with scPend := y.scPend.map fun p => { p with left := p.left - dt } }

/-- An integer operation of Table 6-1, modulo 2⁶⁴. -/
def aluEval (f : AluF) (a b : Word) : Word :=
  match f with
  | .add => a + b
  | .sub => a - b
  | .and => a &&& b
  | .or => a ||| b
  | .xor => a ^^^ b
  | .shl => a <<< (b.toNat % 64)
  | .shr => a >>> (b.toNat % 64)
  | .sra => a.sshiftRight (b.toNat % 64)
  | .min => if a.toInt ≤ b.toInt then a else b
  | .max => if a.toInt ≤ b.toInt then b else a
  | .minu => if a.toNat ≤ b.toNat then a else b
  | .maxu => if a.toNat ≤ b.toNat then b else a
  | .seq => if a = b then 1 else 0
  | .slt => if a.toInt < b.toInt then 1 else 0
  | .sltu => if a.toNat < b.toNat then 1 else 0
  | .mul => a * b

/-- The FP32 value of bits [31:0] (R167). -/
def fp (w : Word) : FVal := of32 (w.toNat % 2 ^ 32)
def fpW (v : FVal) : Word := BitVec.ofNat 64 (to32 v)

def fopEval (f : FopF) (a b : FVal) : Word :=
  match f with
  | .fadd => fpW (a.add b)
  | .fsub => fpW (a.add b.neg)
  | .fmul => fpW (a.mul b)
  | .fmin => fpW (a.minStep b)
  | .fmax => fpW (a.maxStep b)
  | .feq => if a.feq b then 1 else 0
  | .flt => if a.lt b then 1 else 0
  | .fle => if a.lt b || a.feq b then 1 else 0

/-- FCVT.I: toward zero; NaN gives 0; beyond range clamps (Table 6-1). -/
def fcvtI (v : FVal) : Word :=
  match v with
  | .nan => 0
  | .inf s => if s then 0x8000000000000000 else 0x7FFFFFFFFFFFFFFF
  | .fin s m e =>
    let k := if 0 ≤ e then m * 2 ^ e.toNat else m / 2 ^ (-e).toNat
    if s then (if k ≤ 2 ^ 63 then BitVec.ofInt 64 (-(k : Int)) else 0x8000000000000000)
    else (if k < 2 ^ 63 then BitVec.ofNat 64 k else 0x7FFFFFFFFFFFFFFF)

def fopLat : FopF → Nat
  | .fadd | .fsub | .fmul => 4
  | _ => 2

def condEval (c : Cond) (a b : Word) : Bool :=
  match c with
  | .eq => a = b
  | .ne => a ≠ b
  | .lt => a.toInt < b.toInt
  | .ge => b.toInt ≤ a.toInt
  | .ltu => a.toNat < b.toNat
  | .geu => b.toNat ≤ a.toNat

def Core.opnd (x : Core) : Opnd → Word
  | .reg n => x.sreg n
  | .imm v => BitVec.ofInt 64 v

/-! ### Narrow accesses (R155, R168) -/

/-- The address of a narrow access: Sa + imm over 64 bits. -/
def narrowAddr (a : Word) (imm : Int) : Nat := (a + BitVec.ofInt 64 imm).toNat

/-- The fault of a narrow access (R155): misalignment first. -/
def narrowFault (addr size : Nat) : Option Nat :=
  if addr % size ≠ 0 then some addrAlign else if 0x80000 ≤ addr then some spadBound else none

/-- The narrow access of an SC operation: its address and size. -/
def scNarrow (o : ScOp) (x : Core) : Option (Nat × Nat) :=
  match o with
  | .ldn sz _ _ a imm => some (narrowAddr (x.sreg a) imm, sz)
  | .stn sz a imm _ => some (narrowAddr (x.sreg a) imm, sz)
  | _ => none

/-- The value of a narrow load: sign-extended unless .U. -/
def narrowValue (size : Nat) (uns : Bool) (v : Nat) : Word :=
  if uns then BitVec.ofNat 64 v else BitVec.ofInt 64 (signed (8 * size) v)

/-! ### Control flow (R123–R126) -/

/-- The bundle that follows bundle `pc` in program flow, back edges included, and the loops then open (R124); while a
call is open, the loops that were open at the CALL stay as they are (R125). -/
def flowNext (called : Bool) (pc : Nat) : List LoopF → Nat × List LoopF
  | [] => (pc + 1, [])
  | l :: t =>
    if l.last = pc ∧ (l.inCall ∨ ¬ called) then
      (if 1 < l.remain then (l.first, { l with remain := l.remain - 1 } :: t) else flowNext called pc t)
    else (pc + 1, l :: t)

/-- Loops that a taken branch to `target` leaves are ended (R123); while a call is open, no loop that was open at the CALL
is (R125). -/
def leaveLoops (called : Bool) (target : Nat) (ls : List LoopF) : List LoopF :=
  ls.dropWhile fun l => !(l.first ≤ target && target ≤ l.last) && (!called || l.inCall)

/-- The status values of SREAD (Table 6-2) at the end of the cycle before the issue of core `x`. -/
def State.sread (s : State) (c : Nat) (x : Core) (sel : Nat) : Word :=
  match sel with
  | 0 => s.rd (R.coreNumStatus c)
  | 1 => s.rd (R.coreNumUflowCnt c)
  | 2 => s.rd (R.coreNumSatCnt c)
  | 3 => s.rd (R.coreNumNanCnt c)
  | 4 => BitVec.ofNat 64 (x.cycles - 1)
  | 5 => s.rd (R.coreSregCollideCnt c)
  | 6 => s.rd (R.coreAgStatus c)
  | _ => 0

/-- A result to be written L − 1 cycles after the issue cycle (R166). -/
def Core.result (x : Core) (d : Nat) (v : Word) (lat : Nat) : Core :=
  { x with scPend := x.scPend ++ [⟨d, v, lat⟩] }

/-- The descriptor whose BASE an SC operation writes (R159). -/
def scWritesBase : ScOp → Option Nat
  | .dset d .base _ => some d
  | .dadd d _ => some d
  | .dcopy d _ => some d
  | _ => none

/-- A DSET value: a register's value is a signed number for STEP and the strides and an unsigned one for the other fields
(R157, R158). -/
def Core.dsetVal (x : Core) (f : DField) : Opnd → Int
  | .reg n => match f with
    | .step => (x.sreg n).toInt
    | .stride _ => (x.sreg n).toInt
    | _ => (x.sreg n).toNat
  | .imm v => v

/-- The value that DADD adds: signed (Table 5-4). -/
def Core.daddVal (x : Core) : Opnd → Int
  | .reg n => (x.sreg n).toInt
  | .imm v => v

/-- The effect of an SC operation on the registers, the descriptors and the sequencer; `old` is the core as
operands were read (R106).  The narrow store and the count in AG_STATUS are performed by the bundle. -/
def scCore (o : ScOp) (old x : Core) (status : Nat → Word) (loaded : Word) : Core :=
  let fall := let (pc, ls) := flowNext old.link.isSome old.pc old.loops; { x with pc := pc, loops := ls, gap := 1 }
  let taken (y : Core) (t : Nat) (ls : List LoopF) : Core := { y with pc := t, loops := ls, gap := 3 }
  match o with
  | .alu f d a b => fall.result d (aluEval f (old.sreg a) (old.opnd b)) (if f = .mul then 3 else 1)
  | .li d imm => fall.result d (BitVec.ofInt 64 (signed 32 (pat 32 imm))) 1
  | .lih d imm => fall.result d (setBits (old.sreg d) 63 32 (pat 32 imm)) 1
  | .fop f d a b => fall.result d (fopEval f (fp (old.sreg a)) (fp (old.sreg b))) (fopLat f)
  | .fma d a b c => fall.result d (fpW (((fp (old.sreg a)).mul (fp (old.sreg b))).add (fp (old.sreg c)))) 4
  | .fcvtF d a => fall.result d (fpW (ofInt (old.sreg a).toInt 0)) 4
  | .fcvtI d a => fall.result d (fcvtI (fp (old.sreg a))) 4
  | .ldn sz uns d _ _ => fall.result d (narrowValue sz uns loaded.toNat) 3
  | .stn _ _ _ _ => fall
  | .sread d sel => fall.result d (status sel) 2
  | .br t => taken x t (leaveLoops old.link.isSome t old.loops)
  | .brc c a b t =>
    if condEval c (old.sreg a) (old.sreg b) then taken x t (leaveLoops old.link.isSome t old.loops) else fall
  | .loop cnt last =>
    let n := min (old.opnd cnt).toNat 65536
    if n = 0 then let (pc, ls) := flowNext old.link.isSome last old.loops; taken x pc ls
    else { x with pc := old.pc + 1, loops := ⟨old.pc + 1, last, n, old.link.isSome⟩ :: old.loops, gap := 1 }
  | .call t => let (pc, ls) := flowNext old.link.isSome old.pc old.loops; { taken x t ls with link := some pc }
  | .ret => { taken x (old.link.getD 0) (old.loops.filter fun l => !l.inCall) with link := none }
  | .endp => { x with phase := .ended, gap := 1 }
  | .dset d f v => { fall with descs := x.descs.set 0 d (Desc.write (x.descs.get 0 d) f (old.dsetVal f v)).1 }
  | .dadd d v => { fall with descs := x.descs.set 0 d (Desc.dadd (old.descs.get 0 d) (old.daddVal v)) }
  | .dcopy d e => { fall with descs := x.descs.set 0 d (old.descs.get 0 e) }

/-- A DSET from a register that R158 adjusts, and a LOOP count that R124 clamps. -/
def scAdjusts (o : ScOp) (old : Core) : Bool :=
  match o with
  | .dset d f (.reg n) => (Desc.write (old.descs.get 0 d) f (old.dsetVal f (.reg n))).2
  | _ => false
def scClamps (o : ScOp) (old : Core) : Bool :=
  match o with
  | .loop (.reg n) _ => 65536 < (old.sreg n).toNat
  | _ => false

end Sys2Proof.Machine
end

