-- ==== Sys2Proof/Machine/Waits.lean ====
section
/-! DEFINITION. What the sequencers and engine heads of a job wait for (R105, R111, R117), and how its cycles pass: wait
counts and the two watchdogs (R122, R134, R169, R264, R377, R440).  A job's cycles are numbered from its start; `clock` is
the latest that a command has reached. -/

namespace Sys2Proof.Machine

/-! ### The bundle at the head of issue -/

/-- The bundle a core would issue next. -/
def State.bundleAt (s : State) (c : Nat) : Option Bundle :=
  match s.unitOf c with
  | some u => (s.progs.get {} (s.job u).handle).code[(s.core c).pc]?
  | none => none

/-- The consuming or plain wait of an SY operation: flag, count, consuming. -/
def syWait : SyOp → Option (Nat × Nat × Bool)
  | .wait f n => some (f, n, true)
  | .waitNc f n => some (f, n, false)
  | .waitSignal f n _ _ => some (f, n, true)
  | _ => none

/-- An IDLE condition holds: every named engine has an empty queue, nothing in progress and no pending
signal (Table 4-2). -/
def Core.idleMet (x : Core) (mask : Nat) : Bool :=
  (mask % 2 = 0 || (x.mx.quiet && x.mxRun.isNone && x.drains.isEmpty))
    && (mask / 2 % 2 = 0 || (x.ve.quiet && x.veRun.isNone))
    && (mask / 4 % 2 = 0 || x.ld.quiet) && (mask / 8 % 2 = 0 || (x.st.quiet && x.stSignals.isEmpty))

/-- The SY wait condition of a bundle is met (R105): a consuming wait on a pod flag is met once granted. -/
def State.syMet (s : State) (c : Nat) (o : Option SyOp) : Bool :=
  match o with
  | none => true
  | some (.idle m) => (s.core c).idleMet m
  | some o => match syWait o with
    | none => true
    | some (f, n, consume) =>
      if 64 ≤ f && consume then (s.core c).syGranted else n ≤ s.flag c f

/-- The queues that hold the bundle: a queued slot whose engine's queue is full (R105), as HELD_Q. -/
def Core.fullMask (x : Core) (b : Bundle) : Nat :=
  (if b.mx.isSome && x.mx.queue.length ≥ 16 then 1 else 0)
    + (if b.ve.isSome && x.ve.queue.length ≥ 32 then 2 else 0)
    + (if b.ld.isSome && x.ld.queue.length ≥ 32 then 4 else 0)
    + (if b.st.isSome && x.st.queue.length ≥ 32 then 8 else 0)

/-- The core has issued its limit of bundles (R134). -/
def State.pastLimit (s : State) (c : Nat) : Bool :=
  let lim := (s.rd (R.coreDbgBundleLimit c)).toNat
  lim != 0 && lim ≤ (s.rd (R.coreDbgBundleCount c)).toNat

/-- The bundle that the sequencer holds or issues: it has neither ended nor stopped (R126, R134). -/
def State.bundleNext (s : State) (c : Nat) : Option Bundle :=
  let x := s.core c
  if x.phase = .ended ∨ x.phase = .limit ∨ x.phase = .stopped ∨ x.phase = .idle ∨ s.pastLimit c then none
  else s.bundleAt c

/-- The bundle that only its SY wait can hold: no queue it needs is full (R105). -/
def State.issuesNext (s : State) (c : Nat) : Option Bundle :=
  (s.bundleNext c).filter fun b => (s.core c).fullMask b == 0

/-! ### Waiters (R117, R122) -/

/-- The waiters of a core, in the order of R117. -/
def waiters : List (Fin 5) := [0, 1, 2, 3, 4]

def waiterEng : Fin 5 → Option EngId
  | 0 => none | 1 => some .mx | 2 => some .ve | 3 => some .ld | 4 => some .st

/-- The unmet wait of an engine's head: its flag. -/
def State.headFlag (s : State) (c : Nat) (e : EngId) : Option Nat :=
  match ((s.core c).eng e).queue with
  | q :: _ => if (s.headReady c e).isNone then (slotSync q.op).wflag else none
  | [] => none

/-- What a waiter awaits, as Table 14-17 records it: its flag (0xFF, count and value 0 for IDLE), count, the flag's value,
and its PC or ISEQ; none where it does not wait, or its bundle is also held on a full queue (R122). -/
def State.waiting (s : State) (c : Nat) (w : Fin 5) : Option (Nat × Nat × Nat × Nat) :=
  match waiterEng w with
  | none => match (s.issuesNext c).bind (·.sy) with
    | some (.idle m) => if (s.core c).idleMet m then none else some (0xFF, 0, 0, (s.core c).pc)
    | some o => (syWait o).bind fun (f, n, _) =>
        if s.syMet c (some o) then none else some (f, n, s.flag c f, (s.core c).pc)
    | none => none
  | some e => match ((s.core c).eng e).queue with
    | q :: _ => (s.headFlag c e).map fun f => (f, (slotSync q.op).wcount, s.flag c f, q.iseq)
    | [] => none

/-- The consuming wait on a pod flag that a waiter has outstanding: flag and count (R117).  A bundle held on a
full queue, or that will not issue, takes nothing (R105, R134). -/
def State.podRequest (s : State) (c : Nat) (w : Fin 5) : Option (Nat × Nat) :=
  match waiterEng w with
  | none =>
    if (s.core c).syGranted then none
    else match (s.issuesNext c).bind (·.sy) with
    | some o => match syWait o with
      | some (f, n, true) => if 64 ≤ f then some (f, n) else none
      | _ => none
    | none => none
  | some e =>
    let g := (s.core c).eng e
    if g.granted then none
    else match g.queue with
    | q :: _ => match (slotSync q.op).wflag with
      | some f => if 64 ≤ f ∧ ¬ (slotSync q.op).keep then some (f, (slotSync q.op).wcount) else none
      | none => none
    | [] => none

/-! ### The passing of cycles -/

/-- The last cycle up to which a waiter's evaluations are counted: an engine's head evaluates in every cycle (R111), the
SY slot from the first in which its bundle can issue (Table 4-6). -/
def State.waitFrom (s : State) (j : Job) (c : Nat) (w : Fin 5) : Nat :=
  match waiterEng w with
  | none => max j.clock ((s.core c).cycles + (s.core c).gap - 1)
  | some _ => j.clock

/-- The SY wait is unmet while a queue that its bundle needs is full: its count neither runs nor clears (R122). -/
def State.syHeldFull (s : State) (c : Nat) : Bool :=
  match s.bundleNext c with
  | some b => (s.core c).fullMask b != 0 && !s.syMet c b.sy
  | none => false

/-- The wait limit of the program that runs on a core (R122). -/
def State.waitLimit (s : State) (c : Nat) : Nat := 2 ^ s.fld (R.coreWaitCfg c) 4 0

/-- No core of the unit is past its bundle limit, so that the wait watchdog counts (R134). -/
def State.waitsCount (s : State) (u : Nat) : Bool := !(unitCores u).any fun c => s.pastLimit c

/-- The wait counts of core `c` once cycle `t` has passed. -/
def State.waitCounts (s : State) (j : Job) (c t : Nat) : Tab Nat :=
  waiters.foldl (fun n w =>
    match s.waiting c w with
    | some _ => n.set 0 w (min (s.waitLimit c) (n.get 0 w + (t - s.waitFrom j c w)))
    | none => if w = 0 ∧ s.syHeldFull c then n else n.erase w) (s.core c).waits

/-- The cycles up to `t` pass for one core of the job: its counters (events 0x01, 0x03–0x05 of Table 16-1) and its wait
counts. -/
def State.coreCyclesTo (s : State) (u : Nat) (j : Job) (t c : Nat) : State :=
  let span := t - s.waitFrom j c 0
  let unmet : Bool := match s.bundleNext c with | some b => !s.syMet c b.sy | none => false
  let full : Bool := match s.bundleNext c with | some b => (s.core c).fullMask b != 0 | none => false
  let heads := ([EngId.mx, .ve, .ld, .st].filter fun e => (s.headFlag c e).isSome).length
  let waits := if s.waitsCount u then s.waitCounts j c t else (s.core c).waits
  let s := (s.add64 (R.coreCycles c) (t - j.clock)).coreEvent c 1 (t - j.clock) none none
  let s := s.coreEvent c 3 (if unmet then span else 0) none none
  let s := s.coreEvent c 4 (if full then span else 0) none none
  let s := s.coreEvent c 5 (heads * (t - j.clock)) none none
  s.modCore c fun x => { x with waits }

/-- The job watchdog does not count: the bound grant has READY < ROWS and a waiter of the job waits on RDY_FLAG of RDY_CORE
(R264). -/
def State.wdExempt (s : State) (u : Nat) : Bool :=
  let j := s.job u
  let c := unitFirst u + j.card.jRdyCore
  match j.bound.bind fun b => s.leadGrant b.1 b.2.1 with
  | some g => decide (g.ready < g.rows) && waiters.any fun w => (s.waiting c w).any fun x => x.1 == j.card.jRdyFlag
  | none => false

/-- The cycles of unit `u`'s job up to `t` pass (R122, R169, R377). -/
def State.elapse (s : State) (u t : Nat) : State :=
  let j := s.job u
  let counted := if j.begun && !s.wdExempt u then t - j.clock else 0
  let s := (unitCores u).foldl (fun (st : State) c => st.coreCyclesTo u j t c) s
  let s := s.wr (R.wdselWdCount u) (s.rd (R.wdselWdCount u) + BitVec.ofNat 64 counted)
  s.setJob u { s.job u with clock := max j.clock t }

/-! ### Watchdogs (R122, R377) -/

/-- The cycle in which the job watchdog fires unless something changes before. -/
def State.wdFires (s : State) (u : Nat) : Option Nat :=
  let j := s.job u
  if j.begun && !s.wdExempt u then
    some (j.clock + ((s.rd (R.wdselWdLimit u)).toNat + 1 - (s.rd (R.wdselWdCount u)).toNat))
  else none

/-- The cycle in which the wait watchdog fires on a waiter unless something changes before. -/
def State.waitFires (s : State) (u c : Nat) (w : Fin 5) : Option Nat :=
  if s.waitsCount u then
    (s.waiting c w).map fun _ => s.waitFrom (s.job u) c w + (s.waitLimit c - (s.core c).waits.get 0 w) + 1
  else none

/-- The waiter whose count reaches the limit first, with the cycle in which the wait watchdog fires on it: ties go to the
lowest core, and within a core to the order SY, MX, VE, LD, ST (R122). -/
def State.firstWaiter (s : State) (u : Nat) : Option (Nat × Nat × Fin 5) :=
  ((unitCores u).flatMap fun c => waiters.filterMap fun w => (s.waitFires u c w).map fun t => (t, c, w)).foldl
    (fun b x => match b with
      | some y => if x.1 < y.1 then some x else b
      | none => some x) none

/-- No watchdog of the unit fires in cycle `t` or before. -/
def State.beforeWatchdogs (s : State) (u t : Nat) : Bool :=
  (s.wdFires u).all (t < ·) && (s.firstWaiter u).all (t < ·.1)

/-- `dt` cycles pass for a running unit's job, where no watchdog fires in them. -/
def State.pass (s : State) (u dt : Nat) : State :=
  let t := (s.job u).clock + dt
  if s.hasJob u ∧ s.unitState u = 1 ∧ s.beforeWatchdogs u t then s.elapse u t else s

end Sys2Proof.Machine
end

