-- ==== Sys2Proof/Machine/Bundle.lean ====
section
/-! DEFINITION. Bundle issue (R104–R110, R114, R117, R159), pod-flag arbitration (R117, R194), completion
points and deliveries (R108, R109, R116, R184). -/

namespace Sys2Proof.Machine

/-! ### Capture (R107) -/

def opt (o : Option Nat) : List Nat := o.toList

/-- Scalar registers that a queued operation names. -/
def slotRegs : SlotOp → List Nat
  | .ve o => opt o.sa ++ opt o.sb
  | .ld (.ld _ off _ _ _) => [off]
  | .ld (.scnt _ _ _ sv _ _ _) => [sv]
  | .ld (.scas a _ se sn _ _ _) => [a, se, sn]
  | .ld (.smcnt _ off _ _ _ sv _ _ _) => [off, sv]
  | .ld (.smcas _ off _ se sn _ _ _) => [off, se, sn]
  | .st (.st _ off _ _ _) => [off]
  | _ => []

def tgtDescs : CntTgt → List Nat
  | .dm d => [d]
  | _ => []

/-- Descriptors named outside the far role (R159). -/
def slotNear : SlotOp → List Nat
  | .mx o => opt o.da ++ opt o.da2 ++ opt o.db ++ opt o.dmeta ++ opt o.dsa ++ opt o.dsb ++ opt o.dc ++ opt o.dsc
      ++ opt o.dl
  | .ve o => opt o.dx ++ opt o.dy ++ opt o.dw ++ opt o.dg ++ opt o.dh ++ opt o.dz ++ opt o.dzs ++ opt o.dr
  | .ld (.ld _ _ near _ _) => [near]
  | .ld (.scnt ds _ _ _ _ t _) => ds :: tgtDescs t
  | .ld (.smcnt _ _ _ _ _ _ _ t _) => tgtDescs t
  | .st (.st _ _ near _ _) => [near]
  | .st (.stLink _ near _ _) => [near]
  | _ => []

/-- Descriptors named in the far role (R148, R222). -/
def slotFar : SlotOp → List Nat
  | .ld (.ld _ _ _ far _) => [far]
  | .ld (.smcnt _ _ ds _ _ _ _ _ _) => [ds]
  | .st (.st _ _ _ far _) => [far]
  | .st (.stLink _ _ far _) => [far]
  | _ => []

/-- Enter one operation into its engine's queue with what it captures (R106 step 3, R107). -/
def Core.enqueue (x old : Core) (e : EngId) (op : SlotOp) : Core :=
  let g := x.eng e
  let q : QOp := {
    op, iseq := g.nextIseq, pc := old.pc
    regs := (slotRegs op).foldl (fun t n => t.set 0 n (old.sreg n)) []
    descs := (slotNear op ++ slotFar op).foldl (fun t n => t.set 0 n (old.descs.get 0 n)) [] }
  x.setEng e { g with queue := g.queue ++ [q], nextIseq := g.nextIseq + 1 }

/-- The queued operations of a bundle with their engines. -/
def bundleQueued (b : Bundle) : List (EngId × SlotOp) :=
  (b.mx.toList.map fun o => (.mx, .mx o)) ++ (b.ve.toList.map fun o => (.ve, .ve o))
    ++ (b.ld.toList.map fun o => (.ld, .ld o)) ++ (b.st.toList.map fun o => (.st, .st o))

/-- The descriptor step at the end of a bundle (R159): once per descriptor named outside the far role,
unless the bundle's SC operation writes its BASE. -/
def Core.stepDescs (x : Core) (b : Bundle) : Core :=
  let named := ((bundleQueued b).flatMap fun p => slotNear p.2).eraseDups
  let skip := match b.sc with | some o => scWritesBase o | none => none
  let stepped := (named.filter (fun d => skip ≠ some d)).foldl
    (fun (t : Tab Desc) d => t.set 0 d (Desc.stepped (t.get 0 d))) x.descs
  { x with descs := stepped }

/-- The SY slot's grant and signal on the flags (R106 steps 1 and 5, R117): `none` when an update overflows the core
flag whose wait this bundle needs, so that the bundle does not issue (R118).  A pod flag's grant stands: the arbiter
gave it in an earlier cycle. -/
def State.syApply (s : State) (c : Nat) (o : Option SyOp) : Option State :=
  match o with
  | none | some (.idle _) | some (.waitNc _ _) => some s
  | some (.wait f n) => some (if f < 64 then s.setFlag c f (s.flag c f - n) else s)
  | some (.signal f n) => some (s.signal c f n)
  | some (.set f v) => some (s.setFlag c f v)
  | some (.waitSignal f n g m) =>
    if f = g ∧ f < 64 then (flagUpdate (s.flag c f) n m).map fun v => s.setFlag c f v
    else some ((if f < 64 then s.setFlag c f (s.flag c f - n) else s).signal c g m)

/-- A bundle issues (R106): its operations enter their queues, the SC operation executes, the descriptors
step and the SY signal is applied; `x` is the core as its operands are read. -/
def State.issue (s : State) (c : Nat) (x : Core) (b : Bundle) : State :=
  match s.syApply c b.sy with
  | none =>
    match b.sy with
    | some (.waitSignal f _ _ m) => s.flagOverflow c f (s.flag c f) m
    | _ => s
  | some s =>
    let y := (bundleQueued b).foldl (fun y p => y.enqueue x p.1 p.2) { x with syGranted := false }
    let y := y.stepDescs b
    let nar := b.sc.bind fun o => scNarrow o x
    let loaded : Word := match nar with | some (a, n) => BitVec.ofNat 64 (s.spadRead c a n) | none => 0
    let y := match b.sc with
      | some o => scCore o x y (s.sread c x) loaded
      | none => let (pc, ls) := flowNext x.link.isSome x.pc x.loops; { y with pc := pc, loops := ls, gap := 1 }
    let y := { y with phase := if y.phase = .ended then .ended else .issuing }
    let s := s.setCore c y
    let s := s.wr (R.coreDbgBundleCount c) (s.rd (R.coreDbgBundleCount c) + 1)
    let s := (s.add64 (R.coreBundles c) 1).coreEvent c 2 1 none none
    let s := match s.unitOf c with
      | some u => if (s.job u).begun then s else s.setJob u { s.job u with begun := true, j0 := s.ltime }
      | none => s
    let s := match b.sc with
      | some o =>
        let s := if scAdjusts o x then s.setBit (R.coreAgStatus c) 0 true else s
        if scClamps o x then s.setBit (R.coreSeqStatus c) 7 true else s
      | none => s
    match b.sc, nar with
    | some (.stn n a imm r), _ => s.spadWrite c (narrowAddr (x.sreg a) imm) (natLE n (x.sreg r).toNat)
    | some (.ldn _ _ d _ _), some (a, n) =>
      let (s, bad) := s.spadCheck c a n
      if bad then
        let s := s.modCore c fun z => { z with scPend := z.scPend.filter fun p => p.reg ≠ d }
        s.coreFault c 0x3004 (eccDetail a 4 5 x.pc)
      else s
    | _, _ => s

/-- The core as it meets the bundle at the head of issue, `dt` cycles on. -/
def Core.meets (x : Core) (dt : Nat) : Core := { x.land dt with cycles := x.cycles + dt, gap := 1 }

/-- The address of the bundle's narrow access and the code of its fault, where it has one (R155). -/
def narrowFaults (b : Bundle) (x : Core) : Option (Nat × Nat) :=
  b.sc.bind fun o => (scNarrow o x).bind fun (a, n) => (narrowFault a n).map fun code => (a, code)

/-- The cycle of an attempt, `dt` cycles after the core's last: at least the gap that Table 4-6 sets, and no earlier than
what the job's other cores have done. -/
def State.attemptAt (s : State) (u c dt : Nat) : Nat :=
  max ((s.core c).cycles + max dt (s.core c).gap) (s.job u).clock

/-- The attempt at its cycle `t`: the bundle is held, or issued whole (R105). -/
def State.attempt (s : State) (u c t : Nat) (b : Bundle) : State :=
  let s := s.elapse u t
  let x := (s.core c).meets (t - (s.core c).cycles)
  if ¬ s.syMet c b.sy then s.setCore c { x with phase := .syWait }
  else if x.fullMask b ≠ 0 then s.setCore c { x with phase := .heldFull }
  else match narrowFaults b x with
    | some (a, code) => (s.setCore c x).coreFault c code (addrDetail 5 x.pc 0xFF 0xFF a)
    | none => s.issue c x b

/-- One attempt to issue the bundle at the head of issue, `dt` cycles after the core's last.  From the cycle in which a
watchdog fires no bundle issues (R122, R377). -/
def State.bundleIssue (s : State) (c dt : Nat) (us : List Upset) : State :=
  let s := s.upset c us
  match s.unitOf c, s.bundleNext c with
  | some u, some b =>
    let t := s.attemptAt u c dt
    if s.coreRuns c && s.beforeWatchdogs u t then s.attempt u c t b else s
  | _, _ => s

/-- `BUNDLE_ISSUE`. -/
def execBundleIssue (core : Fin 128) (dt : Nat) (upsets : List Upset) (s : State) : Res :=
  .next (s.bundleIssue core dt upsets)

/-! ### Pod-flag waits -/

/-- The requests for pod flag `f` that the arbiter of core `c`'s pod judges together, in its order (R194): core, waiter
and count. -/
def State.podRequests (s : State) (c f : Nat) : List (Nat × Fin 5 × Nat) :=
  (List.range 4).flatMap fun i =>
    let d := c / 4 * 4 + (s.now + i) % 4
    if s.coreRuns d then
      waiters.filterMap fun w => (s.podRequest d w).bind fun r => if r.1 = f then some (d, w, r.2) else none
    else []

/-- The arbiter judges one request: granted if what remains of the flag is at least its count (R117). -/
def State.podJudge (s : State) (f : Nat) (r : Nat × Fin 5 × Nat) : State :=
  let (c, w, n) := r
  if n ≤ s.flag c f then
    let s := s.setFlag c f (s.flag c f - n)
    match waiterEng w with
    | none => s.modCore c fun x => { x with syGranted := true }
    | some e => s.modEng c e fun g => { g with granted := true }
  else s

/-- `POD_FLAG_WAIT_REQUEST`: the arbiter judges the request together with every other outstanding on the flag (R117,
R194). -/
def execPodFlagWaitRequest (core : Fin 128) (waiter : Fin 5) (s : State) : Res :=
  .next (if s.coreRuns core then
    match s.podRequest core waiter with
    | some (f, _) => (s.podRequests core f).foldl (fun (st : State) r => st.podJudge f r) s
    | none => s
  else s)

/-! ### Completion points and deliveries -/

/-- `COMPLETION_POINT`: the engine's oldest owed signal updates its flag (R116); while the unit is parked it
is owed until resume (R131). -/
def execCompletionPoint (core : Fin 128) (eng : EngId) (s : State) : Res :=
  .next (if s.coreRuns core then
    match ((s.core core).eng eng).sigs with
    | g :: rest => (s.modEng core eng fun x => { x with sigs := rest }).signal core g.flag g.n
    | [] => s
  else s)

/-- What a delivery adds to flags: 1 to its own flag, and the END signal of its operation (Table 4-4, R108). -/
def Deliv.signals (d : Deliv) (c : Nat) : List (Nat × Nat × Nat) :=
  (c, d.flag, 1) :: (d.own.map fun g => (c, g.flag, g.n)).toList

/-- The registers that the deliveries of one cycle write: of those to one register the last stands (R108, R184). -/
def State.writeDelivs (s : State) (c : Nat) (ds : List Deliv) : State :=
  (s.coreEvent c 0x23 ds.length none none).modCore c fun x => ds.foldl (fun (y : Core) d => y.setSreg d.reg d.val) x

/-- The deliveries of one cycle: registers and flags (R108). -/
def State.deliver (s : State) (c : Nat) (ds : List Deliv) : State :=
  (s.writeDelivs c ds).signals (ds.flatMap fun d => d.signals c)

/-- The core in whose cycle `dt`, counted from its last attempt, a delivery to `reg` lands: what the SC slot wrote before
has landed, an SC result due in this very cycle is discarded (R109), and the next bundle reads the new value (R110). -/
def Core.delivered (x : Core) (reg dt : Nat) : Core :=
  let y := x.settleSc dt
  { y with scPend := y.scPend.filter fun p => !(p.reg == reg && p.left == dt + 1), gap := max x.gap (dt + 1) }

/-- An SC result to `reg` is due in that cycle. -/
def Core.collides (x : Core) (reg dt : Nat) : Bool := x.scPend.any fun p => p.reg == reg && p.left == dt + 1

/-- The VE delivery to the same register that lands in the cycle of an LD delivery (R184). -/
def State.veRival (s : State) (c : Nat) (eng : EngId) (reg : Nat) : Option Deliv :=
  match eng, (s.core c).ve.delivs with
  | .ld, v :: _ => if v.reg = reg then some v else none
  | _, _ => none

/-- `DELIVERY`: the engine's oldest owed delivery lands, `dt` cycles after the core's last attempt to issue.  `withVe`: a VE
delivery to the same register lands in this cycle too, and its value is written (R184). -/
def execDelivery (core : Fin 128) (eng : EngId) (dt : Nat) (withVe : Bool) (s : State) : Res :=
  .next (if s.coreRuns core then
    match ((s.core core).eng eng).delivs with
    | d :: rest =>
      let rival := if withVe then s.veRival core eng d.reg else none
      let hit := rival.isSome || (s.core core).collides d.reg dt
      let s := s.modEng core eng fun x => { x with delivs := rest }
      let s := if rival.isSome then s.modEng core .ve fun x => { x with delivs := x.delivs.tail } else s
      let s := s.modCore core fun x => x.delivered d.reg dt
      let s := if hit then s.count (R.coreSregCollideCnt core) 1 else s
      s.deliver core (d :: rival.toList)
    | [] => s
  else s)

end Sys2Proof.Machine
end

