-- ==== Sys2Proof/Machine/NumStatus.lean ====
section
/-! DEFINITION. Numeric status, counts, traps and the output conversion shared by the arrays and the vector
unit (R44–R48, R59–R63). -/

namespace Sys2Proof.Machine

/-- The format of a code; reserved codes do not reach an operation (R34, R71, R185). -/
def fmtOf (c : Nat) : Fmt := (Fmt.ofCode c).getD .fp32

/-- What a unit counts while it produces one tile, row or strip (R47, R63). -/
structure NumEv where
  uflow : Nat := 0
  nanIn : Nat := 0
  nanOut : Nat := 0
  infOut : Nat := 0
  sat : Nat := 0
  nanDrop : Nat := 0
  scaleClamp : Nat := 0
  deriving DecidableEq, Repr, Inhabited

def NumEv.add (a b : NumEv) : NumEv :=
  ⟨a.uflow + b.uflow, a.nanIn + b.nanIn, a.nanOut + b.nanOut, a.infOut + b.infOut, a.sat + b.sat,
   a.nanDrop + b.nanDrop, a.scaleClamp + b.scaleClamp⟩

def NumEv.ofConv : ConvEv → NumEv
  | .plain => {}
  | .sat => { sat := 1 }
  | .infOut => { infOut := 1 }
  | .nanOut => { nanOut := 1 }
  | .nanDrop => { nanDrop := 1 }

def NumEv.ofBlock (b : BlockEv) : NumEv := { nanOut := b.nanOut, scaleClamp := b.scaleClamp, sat := b.sat }

/-- Record events in the core's numeric status and counts (Table 2-9). -/
def State.numEvents (s : State) (c : Nat) (e : NumEv) : State :=
  let put (s : State) (i n : Nat) : State := if n = 0 then s else s.setBit (R.coreNumStatus c) i true
  let s := put (put (put (put (put (put (put s 0 e.uflow) 1 e.nanIn) 2 e.nanOut) 3 e.infOut) 4 e.sat) 5 e.nanDrop)
    6 e.scaleClamp
  let s := s.count (R.coreNumUflowCnt c) e.uflow
  let s := s.count (R.coreNumSatCnt c) e.sat
  s.count (R.coreNumNanCnt c) (e.nanOut + e.nanDrop)

/-- NUMCTL of the job that core `c` runs (R59). -/
def State.numctl (s : State) (c : Nat) : Nat :=
  match s.unitOf c with | some u => (s.job u).card.get 20 2 | none => 0

/-- The trap that events raise under NUMCTL: the lowest code (R59, R61). -/
def trapOf (numctl : Nat) (e : NumEv) : Option Nat :=
  if numctl % 2 = 1 ∧ e.nanOut + e.nanDrop ≠ 0 then some 0x1004
  else if numctl / 2 % 2 = 1 ∧ e.infOut ≠ 0 then some 0x1005
  else if numctl / 4 % 2 = 1 ∧ e.sat ≠ 0 then some 0x1006 else none

/-- The call number of an operation: layer, operator, tensor; where it names none, the job card's with
tensor 0 (R46). -/
def State.callOf (s : State) (c : Nat) (call : Option Nat) : Nat × Nat × Nat :=
  match s.unitOf c with
  | none => (0, 0, 0)
  | some u =>
    let j := s.job u
    match call.bind fun i => (s.progs.get {} j.handle).callnums[i]? with
    | some x => x
    | none => (j.card.layer, j.card.oper, 0)

def State.jobAccession (s : State) (c : Nat) : Nat :=
  match s.unitOf c with | some u => (s.job u).card.accession | none => 0

/-- A numeric fault of core `c` (R60, R62, Table 2-8): unit 0–3 array, 4 vector unit. -/
def State.numFault (s : State) (c code unit : Nat) (call : Option Nat) (row col : Nat) (ew : Int) : State :=
  match s.unitOf c with
  | none => s
  | some u =>
    let (l, o, t) := s.callOf c call
    let j := s.job u
    s.raise { code, ctx := some j.ctx, unit := u, core := c, accession := j.card.accession, layer := l, oper := o,
              detail := [(1, unit), (2, t), (4, row), (4, col), (2, if code ≤ 0x1003 then pat 16 ew else 0)], loc := c }

/-- How the element with linear index `index` rounds (R46). -/
def State.rounding (s : State) (c : Nat) (rnd : Rnd) (call : Option Nat) (index : Int) : RndBy :=
  match rnd with
  | .rne => .rne
  | .sr => let (l, o, t) := s.callOf c call; .sr (srDraw l o t (s.jobAccession c) index)

/-- Element patterns of at most eight bits packed densely, little-endian (R35). -/
def packBits (w : Nat) : List Nat → Nat
  | [] => 0
  | v :: t => v % 2 ^ w + 2 ^ w * packBits w t

/-- Bytes that `n` elements of `w` bits take. -/
def packedBytes (w n : Nat) : Nat := (w * n + 7) / 8

/-- Clamp of R178 for a conversion to E8M0. -/
def toE8m0 (v : FVal) : Nat × NumEv :=
  match v with
  | .nan | .inf _ => (0xFF, { nanOut := 1 })
  | .fin _ 0 _ => (0, {})
  | v => ((max 0 (min (v.ilog + 127) 254)).toNat, {})

/-- Convert a run of values, each with its rounding, to `f`: element patterns, block scales (one per 32
values of an MX target, R48), and what it counts as. -/
def convertRun (f : Fmt) (ov : Ovf) (vs : List (FVal × RndBy)) :
    List Nat × List Nat × NumEv :=
  if f.isMx then
    (chunks 32 vs (vs.length + 1)).foldl (fun (es, ss, ev) b =>
      let (sc, el, e) := mxBlock f ov b
      (es ++ el, ss ++ [sc], ev.add (NumEv.ofBlock e))) ([], [], {})
  else
    vs.foldl (fun (es, ss, ev) (v, r) =>
      let (p, e) := if f = .e8m0 then toE8m0 v else let (p, e) := convert f r ov v; (p, NumEv.ofConv e)
      (es ++ [p], ss, ev.add e)) ([], [], {})

/-- The tag of an operation's events (R441): its call number's layer and operator, when it carries one. -/
def State.opTag (s : State) (c : Nat) (call : Option Nat) : Option (Nat × Nat) :=
  call.map fun i => let x := s.callOf c (some i); (x.1, x.2.1)

/-- An output operation has completed: it is matched against the armed dump (R453). -/
def State.outputDone (s : State) (c : Nat) (q : QOp) (call : Option Nat) (d : Option Nat) (len : Nat) : State :=
  let (l, o, t) := s.callOf c call
  s.dumpMatch c q.iseq (l + 2 ^ 16 * o + 2 ^ 32 * t) (q.descs.get 0 (d.getD 0)) len

end Sys2Proof.Machine
end

