-- ==== Sys2Proof/Machine/Collective.lean ====
section
/-! DEFINITION. The collective engines (R361–R364, Table 12-6). -/

namespace Sys2Proof

/-! ### Fields of a collective request (Table 12-6) and of a chunk notice (R363) -/

def Card.cOp (c : Card) : Nat := c.get 16 1
def Card.cFin (c : Card) : Nat := c.get 17 1
def Card.cFout (c : Card) : Nat := c.get 18 1
def Card.cEw (c : Card) : Nat := bits c 169 160
def Card.cRxq (c : Card) : Nat := c.get 22 2
def Card.cGroup (c : Card) : Nat := c.get 24 8
def Card.cSrc (c : Card) : Nat := c.get 32 8
def Card.cDst (c : Card) : Nat := c.get 40 8
def Card.cElems (c : Card) : Nat := c.get 48 4
def Card.cDoneq (c : Card) : Nat := c.get 52 2
def Card.cLog2 (c : Card) : Nat := c.get 54 1
def Card.cSeq (c : Card) : Nat := c.get 56 8

/-- Bytes of an element in a code of FIN or FOUT. -/
def collElem (f : Nat) : Nat := if f = 0x11 then 32 else if f = 0 then 4 else 2

end Sys2Proof

namespace Sys2Proof.Machine

def State.coll (s : State) (h : Nat) : Option CollRun := if h = 0 then s.fab.coll0 else s.fab.coll1

/-- Set an engine's run and show it (Table 12-9). -/
def State.setColl (s : State) (h : Nat) (r : Option CollRun) : State :=
  let s := s.modFab fun x => if h = 0 then { x with coll0 := r } else { x with coll1 := r }
  let s := s.setBit (R.colColStatus h) 0 r.isSome
  s.setFld (R.colColStatus h) 3 1 (match r with | some r => min 7 (r.asked.length + r.flying.length) | none => 0)

/-! ### Sizes -/

/-- Elements of a shard. -/
def CollRun.shard (r : CollRun) : Nat := r.card.cElems / r.n
/-- Steps of the reduce-scatter phase; all-gather steps are numbered after them. -/
def CollRun.rsSteps (r : CollRun) : Nat := if r.card.cOp = 1 then 0 else r.n - 1
/-- Every step. -/
def CollRun.steps (r : CollRun) : Nat := if r.card.cOp = 2 then 2 * (r.n - 1) else r.n - 1
/-- The element format that step `k` carries: all-gather carries finalised shards. -/
def CollRun.fmt (r : CollRun) (k : Nat) : Nat := if k < r.rsSteps then r.card.cFin else r.card.cFout
/-- Elements of a chunk at step `k`, and chunks of a shard. -/
def CollRun.perChunk (r : CollRun) (k : Nat) : Nat := 2 ^ r.card.cLog2 / collElem (r.fmt k)
def CollRun.chunks (r : CollRun) (k : Nat) : Nat := (r.shard + r.perChunk k - 1) / r.perChunk k
/-- Elements of chunk `c` at step `k`. -/
def CollRun.elems (r : CollRun) (k c : Nat) : Nat := min (r.perChunk k) (r.shard - c * r.perChunk k)
/-- Notices to come in all. -/
def CollRun.expected (r : CollRun) : Nat :=
  r.rsSteps * r.chunks 0 + (r.steps - r.rsSteps) * r.chunks r.rsSteps
/-- The shard that arrives at this member at step `k` (R362). -/
def CollRun.shardIn (r : CollRun) (k : Nat) : Nat :=
  if k < r.rsSteps then (r.rank + 2 * r.n - k - 2) % r.n
  else (r.rank + 2 * r.n - (k - r.rsSteps) - 1) % r.n

/-! ### Ending a collective (R364) -/

def State.collEnd (s : State) (h : Nat) (card : Card) (status : Nat) : State :=
  let s := (s.setColl h none).dropTagWait (5 + h)
  let c := (mkHeader 0xF9 card.ctx 0 0 0 s.chip (s.ctxSlice card.ctx)).put 16 8 card.cSeq
  let s := s.postCard card.cDoneq (c.put 24 2 status)
  if status = 0 then ((s.count (R.colColDoneCnt h) 1).intEvent (416 + h) 0).globalEvent (45 + h) 3 1
  else (s.count (R.colColFailCnt h) 1).intEvent (416 + h) 1

/-- An engine that abandons its request releases the slots it holds. -/
def State.collRelease (s : State) (h : Nat) : State := match s.coll h with | some r => s.collFree r | none => s

/-- A collective ends with a fault, reported to the context's EVENT queue; a numeric fault's record names the half as its
unit (R62). -/
def State.collFail (s : State) (h : Nat) (card : Card) (code : Nat) (detail : List (Nat × Nat)) : State :=
  ((s.collRelease h).collEnd h card code).raise
    { code, ctx := some card.ctx, unit := if code / 0x1000 = 1 then 168 + h else 0xFF, detail, loc := h, alt := true }

/-- A read of class W, A or Q by an engine meets a lost word (Table 8-5): 0x3006 to the context where the class
is W. -/
def State.engineLost (s : State) (ctx req w : Nat) : State :=
  if s.memClass w = 0 then
    s.raise { code := 0x3006, ctx := some ctx, detail := smDetail s w req [], loc := smTier w }
  else s

/-- A request ends because its engine read a lost word: under 0x3006, which then goes to the context, where the word is of
class W; under `code` else (Table 8-5, R364; the codes of the classes A and Q are this model's choice, log 120). -/
def State.collLost (s : State) (h : Nat) (card : Card) (code w : Nat) : State :=
  if s.memClass w = 0 then ((s.collRelease h).collEnd h card 0x3006).engineLost card.ctx (132 + h) w
  else s.collFail h card code []

/-! ### Element arithmetic (R362, R57, R58) -/

/-- Combine one element: incoming and own patterns; none where the window exponents differ. -/
def collCombine (fin a b : Nat) : Option Nat :=
  if fin = 0x11 then
    let (ea, x) := ExactAcc.ofRecord a
    let (eb, y) := ExactAcc.ofRecord b
    if ea = eb then some ((x.combine y).record ea) else none
  else some (to32 ((of32 a).add (of32 b)))

/-- Convert one element of the final shard to FOUT, or the fault of its finalisation.  The spec gives the rounding alone;
that an overflow gives no saturated value is this model's choice (log 120). -/
def collFinal (fin fout v : Nat) : Except Nat Nat :=
  if fin = fout then .ok v
  else
    let (ew, x) := ExactAcc.ofRecord v
    match x.finalise ew with
    | .error e => .error e
    | .ok y => .ok (convert (fmtOf fout) .rne .nonsat y).1

/-- Apply `f` to each element of a run of bytes. -/
def mapElems {ε : Type} (n m : Nat) (f : Nat → Except ε Nat) (bs : List Byte) : Except ε (List Byte) :=
  (Sys2Proof.Machine.chunks n bs (bs.length + 1)).foldl (fun acc u =>
    match acc, f (leNat u) with
    | .ok l, .ok v => .ok (l ++ natLE m v)
    | .error e, _ => .error e
    | _, .error e => .error e) (.ok [])

/-! ### Sending chunks (R363) -/

/-- Ask for a slot for each chunk while fewer than eight are in flight; the request's TAG names the half, the chunk's place
among the eight and the request (a choice of this model, log 120). -/
def State.collAsk (s : State) (h : Nat) : Nat → State
  | 0 => s
  | f + 1 =>
    match s.coll h with
    | none => s
    | some r => match r.todo with
      | [] => s
      | x :: rest =>
        if 8 ≤ r.asked.length + r.flying.length then s
        else
          let used := (r.asked ++ r.flying).map (·.id)
          let id := ((List.range 8).find? fun i => !used.contains i).getD 0
          let s := s.setColl h (some { r with todo := rest, asked := r.asked ++ [{ x with id }] })
          let p := mkCreditReq r.next s.chip (s.ctxSlice r.ctx) r.card.cPool 1 (8 * h + id + 16 * (r.no % 16))
          let (s, ok) := s.sendFrom (36 + h) p (some r.ctx)
          if ok then s.collAsk h f else s.collFail h r.card 0x600A []

/-- The notice of a sent chunk. -/
def State.collNotice (s : State) (r : CollRun) (x : CollSend) : Card :=
  let c := (mkHeader 0xFA r.ctx 0 0 0 s.chip (s.ctxSlice r.ctx)).put 16 2 r.card.cRxq
  let c := ((c.put 18 1 r.card.cOp).put 19 1 r.card.cFin).put 20 2 r.card.cEw
  let c := ((c.put 24 8 r.card.cSeq).put 32 4 x.step).put 36 4 x.chunk
  c.put 40 4 r.card.cElems

/-- The collective is complete when every notice has come and every chunk has gone. -/
def State.collDone (s : State) (h : Nat) : State :=
  match s.coll h with
  | some r => if r.got = r.expected ∧ r.todo = [] ∧ r.asked = [] ∧ r.flying = [] then s.collEnd h r.card 0 else s
  | none => s

/-- Send the WRITEs of granted chunks while tags are free, and the notices of those wholly acknowledged, in the
order of their grants. -/
def State.collPump (s : State) (h : Nat) : Nat → State
  | 0 => s
  | f + 1 =>
    match s.coll h with
    | none => s
    | some r =>
      match r.flying with
      | x :: rest =>
        if x.sent = x.bytes.length ∧ x.unacked = 0 then
          let s := s.setColl h (some { r with flying := rest })
          let s := s.globalEvent (45 + h) 2 1
          let s := s.sendCtxCard r.next r.ctx (s.collNotice r x)
          ((s.collAsk h 8).collPump h f)
        else match r.flying.find? fun y => y.sent < y.bytes.length with
        | none => s
        | some y =>
          let a := s.poolBase r.card.cPool + (y.first.getD 0) * 2 ^ r.card.cLog2 + y.sent
          let len := min (y.bytes.length - y.sent) (256 - a % 256)
          match s.sendWrite r.next (s.ctxSlice r.ctx) a (5 + h) (y.id + 8 * r.no) ((y.bytes.drop y.sent).take len) (some r.ctx) with
          | none => s.noteTagWait (5 + h)
          | some (s, false) => s.collFail h r.card 0x600A []
          | some (s, true) =>
            let s := s.account r.ctx 7 (16 + len)
            let g (z : CollSend) : CollSend := if z.id = y.id then { z with sent := z.sent + len, unacked := z.unacked + 1 } else z
            (s.setColl h (some { r with flying := r.flying.map g })).collPump h f
      | [] => s

/-- How many sends and notices an engine may make at a time: no more than there are tags and chunks in flight. -/
def collFuel : Nat := 16400

def State.collGo (s : State) (h : Nat) : State :=
  if s.enginesHeld then s else ((s.collAsk h 8).collPump h collFuel).collDone h

/-- A WRITE of the engine's running request was acknowledged, or its tag failed (R356); one of an earlier request changes
nothing. -/
def State.collOutcome (s : State) (h info : Nat) (ok : Bool) : State :=
  let id := info % 8
  match s.coll h with
  | none => s
  | some r =>
    if r.no ≠ info / 8 ∨ ¬ r.flying.any (fun y => y.id == id) then s
    else if ok then
      let g (z : CollSend) : CollSend := if z.id = id then { z with unacked := z.unacked - 1 } else z
      (s.setColl h (some { r with flying := r.flying.map g })).collGo h
    else s.collFail h r.card 0x600A []

/-- A credit reply of pool `pool` of chip `src` that an engine asked for. -/
def State.collReplyFor (s : State) (src pool tag : Nat) : Option Nat :=
  [0, 1].find? fun h => match s.coll h with
    | some r => r.next == src && r.card.cPool == pool && tag / 8 % 2 == h && tag / 16 == r.no % 16 && r.asked.any (fun y => y.id == tag % 8)
    | none => false

/-- The reply: a slot, BUSY (asked again), or REFUSED (the collective ends). -/
def State.collReply (s : State) (h tag status first : Nat) : State :=
  match s.coll h with
  | none => s
  | some r =>
    match r.asked.find? fun y => y.id == tag % 8 with
    | none => s
    | some y =>
      let asked := r.asked.filter fun z => z.id ≠ y.id
      if status = 0 then
        (s.setColl h (some { r with asked, flying := r.flying ++ [{ y with first := some first }] })).collGo h
      else if status = 1 then (s.setColl h (some { r with asked, todo := y :: r.todo })).collGo h
      else s.collFail h r.card 0x600A []

/-! ### Starting a request (R361) -/

/-- The checks of R361 that need no table. -/
def State.collOk (s : State) (q : Nat) (c : Card) : Bool :=
  let x := s.qCtx q
  let myQ (k : Nat) : Bool := s.qEn k && decide (3 ≤ s.qClass k) && s.qCtx k == x
  c.tag == 0xF8 && c.ctx == x && c.cOp ≤ 2 && (c.cFin == 0 || c.cFin == 0x11)
    && (c.cFout == c.cFin || (c.cFin == 0x11 && c.cFout ≤ 2)) && c.cPool < 128
    && s.poolEn c.cPool && s.poolCtx c.cPool == x && 14 ≤ c.cLog2 && c.cLog2 ≤ 22
    && s.slotSize c.cPool == 2 ^ c.cLog2 && myQ c.cRxq && s.qClass c.cRxq == 7 && myQ c.cDoneq && s.inPartition x c.cGroup 4

/-- Bytes of a region in an engine's reads. -/
def State.collRegions (s : State) (x n : Nat) (c : Card) : Bool :=
  let el := collElem c.cFin
  let inB := (if c.cOp = 1 then c.cElems / n else c.cElems) * el
  let outB := (if c.cOp = 0 then c.cElems / n else c.cElems) * collElem c.cFout
  s.inPartition x c.cSrc (max 1 inB) && s.inPartition x c.cDst (max 1 outB)

/-- The chunks of a shard's bytes, to be sent at step `k`. -/
def CollRun.sends (r : CollRun) (k : Nat) (bs : List Byte) : List CollSend :=
  let n := r.perChunk k * collElem (r.fmt k)
  (Sys2Proof.Machine.chunks n bs (bs.length + 1)).zipIdx.map fun (b, i) => { step := k, chunk := i, bytes := b }

/-- The detail of a numeric fault under `code` of chunk `c` at step `k` (R62, R362): Unit 5, the tile origin the index in
the tensor of the chunk's first element, and the EW of codes 0x1001 to 0x1003.  The spec does not say what the call and
accession numbers are, which are zero and none, nor which of two EWs a 0x1003 reports, which is the request's: choices of
this model (log 120). -/
def collFinDetail (r : CollRun) (k c code : Nat) : List (Nat × Nat) :=
  [(1, 5), (2, 0), (8, (if k < r.rsSteps then r.shardIn k else r.rank) * r.shard + c * r.perChunk k),
    (2, if 0x1001 ≤ code ∧ code ≤ 0x1003 then pat 16 (signed 10 r.card.cEw) else 0)]

/-- The first of a run of elements that `f` refuses. -/
def firstElem {ε : Type} (n : Nat) (f : Nat → Except ε Nat) (bs : List Byte) : Nat :=
  (Sys2Proof.Machine.chunks n bs (bs.length + 1)).findIdx fun u => !(f (leNat u)).toBool

/-- A collective starts with its first shard's chunks to send (R362). -/
def State.collStart (s : State) (h : Nat) (r : CollRun) : State :=
  let c := r.card
  let x := r.ctx
  let s := s.wr (R.colColSeq h) (BitVec.ofNat 64 c.cSeq)
  let el := collElem c.cFin
  let base := c.cSrc + (if c.cOp = 1 then 0 else (r.rank + r.n - 1) % r.n * r.shard * el)
  let (s, bs, lost) := s.memRead base (r.shard * el)
  match lost with
  | some w => s.collLost h c 0x600A w
  | none =>
    let s := s.account x 6 bs.length
    let r := { r with last := s.now }
    if c.cOp = 1 then
      match mapElems el (collElem c.cFout) (collFinal c.cFin c.cFout) bs with
      | .error e => s.collFail h c e (collFinDetail r 0 (firstElem el (collFinal c.cFin c.cFout) bs / r.perChunk 0) e)
      | .ok out =>
        let s := (s.memWrite (c.cDst + r.rank * r.shard * collElem c.cFout) out).account x 6 out.length
        (s.setColl h (some { r with todo := r.sends 0 out })).collGo h
    else (s.setColl h (some { r with todo := r.sends 0 bs })).collGo h

/-- The engines number their requests. -/
def State.newRequest (s : State) : State := s.modFab fun f => { f with engSeq := f.engSeq + 1 }

/-- The group of a request: its regions fit, its members are read and this chip is one of them. -/
def State.collGroup (s : State) (h x : Nat) (c : Card) : State :=
  let (s, nb, lost) := s.memRead c.cGroup 4
  let n := leNat nb
  if lost.isSome then s.collLost h c 0x6008 (lost.getD 0)
  else if n < 2 ∨ 65536 < n ∨ c.cElems % n ≠ 0 ∨ ¬ s.inPartition x c.cGroup (4 + 4 * n) ∨ ¬ s.collRegions x n c then
    s.collFail h c 0x6008 []
  else
    let (s, mb, lost) := s.memRead (c.cGroup + 4) (4 * n)
    let ms := (Sys2Proof.Machine.chunks 4 mb (n + 1)).map leNat
    match ms.findIdx? (· == s.chip) with
    | none => s.collFail h c 0x6008 []
    | some rank =>
      if lost.isSome then s.collLost h c 0x6008 (lost.getD 0)
      else s.newRequest.collStart h { card := c, no := s.fab.engSeq, ctx := x, members := ms, rank }

/-- The engine takes the request at the head of its queue (R361). -/
def execCollectiveRequest (h : Fin 2) (upsets : List Upset) (s : State) : Res :=
  let s := s.memUpset upsets
  let q := s.fld (R.colReqQ h) 11 0
  if q = 0xFFF ∨ (s.coll h).isSome ∨ ¬ s.qEn q ∨ s.qClass q ≠ 7 ∨ s.enginesHeld then .next s
  else match s.qHead q with
  | none => .next s
  | some c =>
    let x := s.qCtx q
    let s := s.takeCard q
    if ¬ s.collOk q c then .next (s.collFail h c 0x6008 [])
    else .next (s.collGroup h x c)

/-! ### Taking a chunk (R363) -/

/-- An arrived chunk goes on: to the next reduce step; finalised and stored, with the all-gather's first sends; or stored
and passed on (R362). -/
def State.collForward (s : State) (h : Nat) (r : CollRun) (k c : Nat) (bs : List Byte) : State :=
  let r := { r with got := r.got + 1, last := s.now }
  let next (k' : Nat) (b : List Byte) : List CollSend := [{ step := k', chunk := c, bytes := b }]
  let fo := collElem r.card.cFout
  let place (s : State) (j : Nat) (i : Nat) (out : List Byte) : State :=
    (s.memWrite (r.card.cDst + (j * r.shard + i) * fo) out).account r.ctx 6 out.length
  if k + 1 < r.rsSteps then (s.setColl h (some { r with todo := r.todo ++ next (k + 1) bs })).collGo h
  else if k + 1 = r.rsSteps then
    match mapElems (collElem r.card.cFin) fo (collFinal r.card.cFin r.card.cFout) bs with
    | .error e => s.collFail h r.card e (collFinDetail r k c e)
    | .ok out =>
      let s := place s (if r.card.cOp = 0 then 0 else r.rank) (c * r.perChunk k) out
      let r := { r with fin := r.fin ++ [c] }
      -- a chunk of the all-gather goes when all the chunks that make it up are final
      let m := r.perChunk (k + 1) / r.perChunk k
      let g := c / m
      let whole := (List.range m).all fun i => r.chunks k ≤ g * m + i || r.fin.contains (g * m + i)
      if r.card.cOp = 0 ∨ ¬ whole then (s.setColl h (some r)).collGo h
      else
        let bs := s.memBytes (r.card.cDst + (r.rank * r.shard + g * r.perChunk (k + 1)) * fo) (r.elems (k + 1) g * fo)
        (s.setColl h (some { r with todo := r.todo ++ [{ step := k + 1, chunk := g, bytes := bs }] })).collGo h
  else
    let s := place s (r.shardIn k) (c * r.perChunk k) bs
    let more := if k + 1 < r.steps then next (k + 1) bs else []
    (s.setColl h (some { r with todo := r.todo ++ more })).collGo h

/-- The landed chunk's slot: the oldest open grant of the pool to the sender (DESIGN CHOICE: a notice names no
slot). -/
def State.collGrant (s : State) (r : CollRun) : Option Grant :=
  (s.openGrants r.card.cPool).find? fun g => g.chip == r.prev && g.count == 1

/-- A notice is one of the run: its request's fields but EW, and a step and chunk the run has. -/
def CollRun.fits (r : CollRun) (m : Card) : Bool :=
  m.tag == 0xFA && m.get 24 8 == r.card.cSeq && m.get 18 1 == r.card.cOp && m.get 19 1 == r.card.cFin
    && m.get 40 4 == r.card.cElems && decide (m.get 32 4 < r.steps)
    && decide (m.get 36 4 < r.chunks (m.get 32 4))

/-- The landed chunk of `n` bytes is read and its slot released. -/
def State.collLanded (s : State) (h : Nat) (r : CollRun) (g : Grant) (n : Nat) : State × List Byte × Option Nat :=
  let i := r.card.cPool
  let (s, bs, lost) := s.memRead (s.poolBase i + g.first * s.slotSize i) n
  let s := (s.account r.ctx 6 n).globalEvent (45 + h) 1 n
  let s := s.setPool i { s.pool i with grants := (s.pool i).grants.erase g }
  (s.releaseSlots i [g.first], bs, lost)

/-- The notice gives the EW of the run's request. -/
def CollRun.sameEw (r : CollRun) (m : Card) : Bool := m.get 20 2 % 1024 == r.card.cEw

/-- The chunk `bs` of step `k` is combined with this chip's own elements; records of different EW are caught before a
notice of another EW (`same`). -/
def State.collReduce (s : State) (h : Nat) (r : CollRun) (k c : Nat) (bs : List Byte) (same : Bool) : State :=
  let el := collElem (r.fmt k)
  let n := r.elems k c * el
  let (s, ob, lost) := s.memRead (r.card.cSrc + (r.shardIn k * r.shard + c * r.perChunk k) * el) n
  let s := s.account r.ctx 6 n
  match lost with
  | some w => s.collLost h r.card 0x600A w
  | none =>
    let a := (Sys2Proof.Machine.chunks el bs (n + 1)).map leNat
    let b := (Sys2Proof.Machine.chunks el ob (n + 1)).map leNat
    let out := List.zipWith (collCombine r.card.cFin) a b
    if out.any (·.isNone) then s.collFail h r.card 0x1003 (collFinDetail r k c 0x1003)
    else if ¬ same then s.collFail h r.card 0x6009 []
    else s.collForward h r k c (out.flatMap fun v => natLE el (v.getD 0))

/-- The engine takes a chunk notice from its RXQ: the landed chunk is combined and its slot released. -/
def execChunkNotice (h : Fin 2) (upsets : List Upset) (s : State) : Res :=
  let s := s.memUpset upsets
  match s.coll h with
  | none => .next s
  | some r =>
    if s.enginesHeld then .next s
    else match s.qHead r.card.cRxq with
    | none => .next s
    | some m =>
      let s := s.takeCard r.card.cRxq
      let k := m.get 32 4
      let c := m.get 36 4
      if ¬ r.fits m then .next (s.collFail h r.card 0x6009 [])
      else match s.collGrant r with
      | none => .next (s.collFail h r.card 0x600A [])
      | some g =>
        let (s, bs, lost) := s.collLanded h r g (r.elems k c * collElem (r.fmt k))
        match lost with
        | some w => .next (s.collLost h r.card 0x600A w)
        | none => .next (if k < r.rsSteps then s.collReduce h r k c bs (r.sameEw m)
          else if r.sameEw m then s.collForward h r k c bs else s.collFail h r.card 0x6009 [])

/-- No notice for 2 × REQ_TIMEOUT (R364). -/
def execCollPeerLost (h : Fin 2) (s : State) : Res :=
  match s.coll h with
  | none => .next s
  | some r =>
    if r.got = r.expected then .next s
    else .next ((s.advanceTo (r.last + 2 * s.reqTimeout)).collFail h r.card 0x600A [])

end Sys2Proof.Machine
end

