-- ==== Sys2Proof/Machine/Hash.lean ====
section
/-! DEFINITION. CRC-32 (R314, R458), SHA-256 (R402, R507) and SHA-384 (R471): structural, over lists of bytes. -/

namespace Sys2Proof

/-! ### CRC-32: polynomial 0x04C1_1DB7, initial value all ones, reflected, final XOR all ones (R314) -/

def crcBit (c : Nat) : Nat := if c % 2 = 1 then (c / 2) ^^^ 0xEDB88320 else c / 2
def crcByte (c : Nat) (b : Byte) : Nat :=
  crcBit (crcBit (crcBit (crcBit (crcBit (crcBit (crcBit (crcBit (c ^^^ b.toNat))))))))
/-- The register after each byte in turn. -/
def crcGo : List Byte → Nat → Nat
  | [], c => c
  | b :: t, c => match crcByte c b with
    | 0 => crcGo t 0
    | n + 1 => crcGo t (n + 1)
def crc32 (bs : List Byte) : Nat := crcGo bs 0xFFFFFFFF ^^^ 0xFFFFFFFF

/-! ### SHA-2 -/

/-- The word size in bits, rotation amounts and rounds of one member of the family. -/
structure ShaSpec where
  w : Nat
  s0 : Nat × Nat × Nat
  s1 : Nat × Nat × Nat
  b0 : Nat × Nat × Nat
  b1 : Nat × Nat × Nat
  deriving DecidableEq, Repr

def sha256Spec : ShaSpec := ⟨32, (7, 18, 3), (17, 19, 10), (2, 13, 22), (6, 11, 25)⟩
def sha512Spec : ShaSpec := ⟨64, (1, 8, 7), (19, 61, 6), (28, 34, 39), (14, 18, 41)⟩

def rotr (w v n : Nat) : Nat := v / 2 ^ n + v % 2 ^ n * 2 ^ (w - n)
def smallSig (w : Nat) (r : Nat × Nat × Nat) (v : Nat) : Nat := rotr w v r.1 ^^^ rotr w v r.2.1 ^^^ (v / 2 ^ r.2.2)
def bigSig (w : Nat) (r : Nat × Nat × Nat) (v : Nat) : Nat := rotr w v r.1 ^^^ rotr w v r.2.1 ^^^ rotr w v r.2.2

/-- The first `n` primes, of those below 410. -/
def smallPrimes (n : Nat) : List Nat :=
  ((List.range 410).filter fun p => 2 ≤ p && (List.range 21).all fun d => d < 2 || p ≤ d || p % d != 0).take n

/-- The binary digits, from 2^(b-1) down, of the largest number whose `k`-th power is at most `n`. -/
def rootDigits (k n : Nat) : Nat → Nat → Nat
  | 0, x => x
  | b + 1, x => rootDigits k n b (if (x + 2 ^ b) ^ k ≤ n then x + 2 ^ b else x)

/-- The first `w` bits of the fractional part of the `k`-th root of `p`, where that root is below 8: the constants of
FIPS 180-4 are such bits. -/
def rootBits (k w p : Nat) : Nat := rootDigits k (p * 2 ^ (k * w)) (w + 3) 0 % 2 ^ w

/-- Round constants: cube roots of the first 64 or 80 primes. -/
def k256 : List Nat := (smallPrimes 64).map (rootBits 3 32)
def k512 : List Nat := (smallPrimes 80).map (rootBits 3 64)

/-- Initial values: square roots of the first eight primes for SHA-256, of the next eight for SHA-384. -/
def iv256 : List Nat := (smallPrimes 8).map (rootBits 2 32)
def iv384 : List Nat := ((smallPrimes 16).drop 8).map (rootBits 2 64)

/-- The eight working variables. -/
structure ShaRegs where
  a : Nat
  b : Nat
  c : Nat
  d : Nat
  e : Nat
  f : Nat
  g : Nat
  h : Nat
  deriving DecidableEq, Repr

def ShaRegs.ofList (l : List Nat) : ShaRegs :=
  ⟨l.getD 0 0, l.getD 1 0, l.getD 2 0, l.getD 3 0, l.getD 4 0, l.getD 5 0, l.getD 6 0, l.getD 7 0⟩
def ShaRegs.toList (r : ShaRegs) : List Nat := [r.a, r.b, r.c, r.d, r.e, r.f, r.g, r.h]

/-- One round with key and message word. -/
def ShaSpec.round (p : ShaSpec) (r : ShaRegs) (kw : Nat) : ShaRegs :=
  let m := 2 ^ p.w
  let ch := (r.e &&& r.f) ^^^ ((m - 1 - r.e) &&& r.g)
  let maj := (r.a &&& r.b) ^^^ (r.a &&& r.c) ^^^ (r.b &&& r.c)
  let t1 := r.h + bigSig p.w p.b1 r.e + ch + kw
  let t2 := bigSig p.w p.b0 r.a + maj
  ⟨(t1 + t2) % m, r.a, r.b, r.c, (r.d + t1) % m, r.e, r.f, r.g⟩

/-- The message schedule, the sixteen latest words newest first, walked with the round keys. -/
def ShaSpec.rounds (p : ShaSpec) : List Nat → List Nat → ShaRegs → ShaRegs
  | [], _, r => r
  | k :: ks, win, r =>
    let w := win.getD 15 0
    let nw := (smallSig p.w p.s1 (win.getD 1 0) + win.getD 6 0 + smallSig p.w p.s0 (win.getD 14 0) + w) % 2 ^ p.w
    ShaSpec.rounds p ks ((nw :: win).take 16) (p.round r (k + w))

/-- The big-endian number of a list of bytes. -/
def beNat (bs : List Byte) : Nat := bs.foldl (fun n b => n * 256 + b.toNat) 0
def natBE : Nat → Nat → List Byte
  | 0, _ => []
  | n + 1, v => BitVec.ofNat 8 (v / 256 ^ n) :: natBE n v

/-- A list in pieces of `n`. -/
def pieces (n : Nat) (l : List Byte) : Nat → List (List Byte)
  | 0 => []
  | f + 1 => if l.isEmpty then [] else l.take n :: pieces n (l.drop n) f

def ShaSpec.block (p : ShaSpec) (ks : List Nat) (h : List Nat) (blk : List Byte) : List Nat :=
  let ws := (pieces (p.w / 8) blk 16).map beNat
  let r := p.rounds ks ws.reverse (ShaRegs.ofList h)
  List.zipWith (fun x y => (x + y) % 2 ^ p.w) h r.toList

/-- Padding: one bit, zeros and the length in bits. -/
def ShaSpec.pad (p : ShaSpec) (bs : List Byte) : List Byte :=
  let n := bs.length
  let blk := 2 * p.w
  let lenB := p.w / 4
  let z := (blk - (n + 1 + lenB) % blk) % blk
  bs ++ [0x80#8] ++ List.replicate z 0 ++ natBE lenB (8 * n)

def ShaSpec.hash (p : ShaSpec) (ks iv : List Nat) (bs : List Byte) : List Byte :=
  let m := p.pad bs
  ((pieces (2 * p.w) m (m.length / (2 * p.w) + 1)).foldl (p.block ks) iv).flatMap (natBE (p.w / 8))

def sha256 (bs : List Byte) : List Byte := sha256Spec.hash k256 iv256 bs
def sha384 (bs : List Byte) : List Byte := (sha512Spec.hash k512 iv384 bs).take 48

end Sys2Proof
end

