-- ==== Sys2Proof/Machine/Checkpoint.lean ====
section
/-! DEFINITION. The checkpoint engines (R401–R406, Tables 14-9 to 14-13). -/

namespace Sys2Proof.Machine

def State.ckpt (s : State) (h : Nat) : Option CkptRun := if h = 0 then s.recov.ckpt0 else s.recov.ckpt1

/-- Set an engine's run and show it (Table 14-16). -/
def State.setCkpt (s : State) (h : Nat) (r : Option CkptRun) : State :=
  let s := { s with recov := if h = 0 then { s.recov with ckpt0 := r } else { s.recov with ckpt1 := r } }
  let s := s.setBit (R.halfCkptStatus h) 0 r.isSome
  s.setBit (R.halfCkptStatus h) 1 (match r with | some r => r.reading | none => false)

/-! ### The descriptor (Table 14-9) -/

def CkptRun.d (r : CkptRun) (a n : Nat) : Nat := leNat ((r.desc.drop a).take n)
def CkptRun.region (r : CkptRun) : Nat := r.d 0 4
def CkptRun.first (r : CkptRun) : Nat := r.d 4 4
def CkptRun.src (r : CkptRun) : Nat := r.d 8 8
def CkptRun.size (r : CkptRun) : Nat := r.d 16 8
def CkptRun.fabricDest (r : CkptRun) : Bool := r.d 32 1 == 1
def CkptRun.dedup (r : CkptRun) : Bool := r.d 33 1 % 2 == 1
def CkptRun.dest (r : CkptRun) : Nat := r.d 40 8
def CkptRun.id (r : CkptRun) : Nat := r.card.get 32 8
def CkptRun.noticeq (r : CkptRun) : Nat := r.card.get 18 2
def CkptRun.n (r : CkptRun) : Nat := r.peers.length

/-- 4 MiB, and the shards of a region. -/
def shardBytes : Nat := 4194304
def CkptRun.nShards (r : CkptRun) : Nat := (r.size + shardBytes - 1) / shardBytes
/-- Bytes of shard `i` of the region. -/
def CkptRun.len (r : CkptRun) (i : Nat) : Nat := min shardBytes (r.size - i * shardBytes)

/-! ### Ending a request (R406) -/

/-- The completion card. -/
def State.ckptCard (s : State) (r : CkptRun) (status reason : Nat) : State :=
  let c := ((mkHeader 0xFE r.ctx 0 0 0 s.chip (s.ctxSlice r.ctx)).put 16 8 r.id).put 24 2 status
  s.postCard (r.card.get 16 2) (((c.put 26 1 reason).put 28 4 r.shards).put 32 8 r.bytes)

def State.ckptFail (s : State) (h : Nat) (r : CkptRun) (reason : Nat) : State :=
  let s := (((s.setCkpt h none).dropTagWait (7 + h)).ckptCard r 0xF107 reason).count (R.halfCkptFailCnt h) 1
  (s.intEvent (168 + h) 1).raise { code := 0xF107, ctx := some r.ctx, loc := h }

/-- A request ends because its engine read a lost word: the context is told of it where the word is of class W (Table 8-5). -/
def State.ckptLost (s : State) (h : Nat) (r : CkptRun) (w : Nat) : State := (s.ckptFail h r 2).engineLost r.ctx (135 + h) w

def State.ckptDone (s : State) (h : Nat) (r : CkptRun) : State :=
  let s := (((s.setCkpt h none).dropTagWait (7 + h)).ckptCard r 0 0).count (R.halfCkptDoneCnt h) 1
  s.intEvent (168 + h) 0

/-! ### Agreement (R404) -/

/-- The peers present for shard `i`, by position, with their digests. -/
def CkptRun.present (r : CkptRun) (i : Nat) : List (Nat × List Byte) :=
  (List.range r.n).filterMap fun p =>
    if p = r.pos then some (p, r.digests.getD i [])
    else match r.notices.get [] (r.n * i + p) with
      | [] => none
      | d => some (p, d)

/-- The digests of the agreement classes, in order, and the members of this engine's class. -/
def CkptRun.classes (r : CkptRun) (i : Nat) : List (List Byte) := ((r.present i).map (·.2)).eraseDups
def CkptRun.myClass (r : CkptRun) (i : Nat) : Nat := (r.classes i).findIdx (· == r.digests.getD i [])
def CkptRun.mates (r : CkptRun) (i : Nat) : List Nat :=
  ((r.present i).filter fun p => p.2 == r.digests.getD i []).map (·.1)

/-- This engine writes shard `i`. -/
def CkptRun.writes? (r : CkptRun) (i : Nat) : Bool :=
  !r.dedup || (r.mates i).getD ((r.first + i) % max 1 (r.mates i).length) r.n == r.pos

/-- Peers present in class 0 of every shard. -/
def CkptRun.replicas (r : CkptRun) : Nat :=
  ((List.range r.n).filter fun p => (List.range r.nShards).all fun i =>
    (r.present i).any fun q => q.1 == p && some q.2 == (r.classes i).head?).length

/-! ### What is written (R405) -/

/-- The entry of shard `i` (Table 14-13). -/
def CkptRun.entry (r : CkptRun) (chip i : Nat) : List Byte :=
  let flags := (if r.dedup then 1 else 0) + (if 1 < (r.classes i).length then 2 else 0) + (if r.fabricDest then 4 else 0)
  natLE 4 (r.first + i) ++ natLE 4 r.region ++ natLE 4 (r.len i) ++ natLE 1 (r.myClass i) ++ natLE 1 flags
    ++ natLE 2 (r.mates i).length ++ natLE 4 chip ++ natLE 4 0 ++ natLE 8 (r.dest + i * shardBytes)
    ++ r.digests.getD i []

/-- The region record (Table 14-12): the template with the fields the engine fills. -/
def CkptRun.record (r : CkptRun) : List Byte :=
  let t := (r.desc.drop 64).take 64
  t.take 12 ++ natLE 2 r.replicas ++ (t.drop 14).take 2 ++ natLE 8 r.size ++ natLE 4 r.first ++ natLE 4 r.nShards
    ++ t.drop 32

/-- The writes of shard `i` once its bytes are read: its data, then its entry; none, and the request ends, where a word is
lost. -/
def State.shardOut (s : State) (h : Nat) (r : CkptRun) (i : Nat) (x : List Byte × Option Nat) : State × Option (List (Nat × List Byte)) :=
  match x.2 with
  | some w => (s.ckptLost h r w, none)
  | none => (s, some [(r.dest + i * shardBytes, x.1), (r.d 48 8 + 64 * (i * r.n + r.pos), r.entry s.chip i)])

/-- Read shard `i` again and give its writes; none where the data can no longer be read. -/
def State.shardWrites (s : State) (h : Nat) (r : CkptRun) (i : Nat) : State × Option (List (Nat × List Byte)) :=
  let p := s.memRead (r.src + i * shardBytes) (r.len i)
  (p.1.account r.ctx 6 (r.len i)).shardOut h r i p.2

/-- Write bytes to host memory: posted writes of at most 512 B, none across a 4 KiB boundary (R492). -/
def hostWrites (a : Nat) (bs : List Byte) : Nat → List (Nat × List Byte)
  | 0 => []
  | f + 1 =>
    if bs = [] then []
    else
      let n := min 512 (4096 - a % 4096)
      (a, bs.take n) :: hostWrites (a + n) (bs.drop n) f

/-- Post writes to host memory for a context (R382, R492). -/
def State.hostPost (s : State) (x : Option Nat) (a : Nat) (bs : List Byte) : State :=
  let s := { s with host := { s.host with out := s.host.out ++ hostWrites a bs (bs.length + 1) } }
  let s := s.globalEvent 49 2 bs.length
  match x with | some x => s.account x 9 bs.length | none => s

def State.hostUp (s : State) : Bool := 2 ≤ s.fld R.hostStatus 1 0

/-- Send the writes that wait, while tags are free; the request ends when all have gone and been answered. -/
def State.ckptPump (s : State) (h : Nat) : Nat → State
  | 0 => s
  | f + 1 =>
    match s.ckpt h with
    | none => s
    | some r =>
      if ¬ r.writing then s
      else match r.writes with
      | [] => if r.unacked = 0 then s.ckptDone h r else s
      | (_, []) :: rest => (s.setCkpt h (some { r with writes := rest })).ckptPump h f
      | (a, b :: bs) :: rest =>
        if r.fabricDest then
          let n := min (bs.length + 1) (256 - a % 256)
          match s.sendWrite (r.d 36 4 % 2 ^ 20) (s.ctxSlice r.ctx) a (7 + h) r.no ((b :: bs).take n) (some r.ctx) with
          | none => s.noteTagWait (7 + h)
          | some (s, false) => s.ckptFail h r 3
          | some (s, true) =>
            let s := (s.account r.ctx 7 (16 + n)).globalEvent (47 + h) 2 n
            let r := { r with writes := (a + n, (b :: bs).drop n) :: rest, unacked := r.unacked + 1, bytes := r.bytes + n }
            (s.setCkpt h (some r)).ckptPump h f
        else if s.hostUp then
          let s := (s.hostPost (some r.ctx) a (b :: bs)).globalEvent (47 + h) 2 (bs.length + 1)
          (s.setCkpt h (some { r with writes := rest, bytes := r.bytes + bs.length + 1 })).ckptPump h f
        else s.ckptFail h r 3

/-- More steps than a request can have writes in flight and shards to post. -/
def ckptFuel : Nat := 80000

def State.ckptGo (s : State) (h : Nat) : State := if s.enginesHeld then s else s.ckptPump h ckptFuel

/-- A WRITE of the running request of engine `h` was acknowledged, or was discarded or timed out (R405); one of an earlier
request changes nothing. -/
def State.ckptOutcome (s : State) (h no : Nat) (ok : Bool) : State :=
  match s.ckpt h with
  | none => s
  | some r => if r.no ≠ no then s else if ok then (s.setCkpt h (some { r with unacked := r.unacked - 1 })).ckptGo h else s.ckptFail h r 3

/-- The writes collected so far and those of one more shard. -/
def joinWrites (l : List (Nat × List Byte)) (p : State × Option (List (Nat × List Byte))) :
    State × Option (List (Nat × List Byte)) := (p.1, p.2.map (l ++ ·))

/-- Collect the writes of shard `i`; none once one shard could not be read. -/
def State.addWrites (h : Nat) (r : CkptRun) (a : State × Option (List (Nat × List Byte))) (i : Nat) :
    State × Option (List (Nat × List Byte)) :=
  match a.2 with
  | none => a
  | some l => joinWrites l (a.1.shardWrites h r i)

/-- The writes of `n` shards are known; where one could not be read, the request has ended. -/
def State.electEnd (s : State) (h : Nat) (r : CkptRun) (n : Nat) (ws : Option (List (Nat × List Byte))) : State :=
  match ws with
  | none => s
  | some l =>
    let l := l ++ [(r.d 56 8 + 64 * r.pos, r.record)]
    (s.setCkpt h (some { r with writing := true, writes := l, shards := n })).ckptGo h

/-- Writers are elected and the shards this engine writes begin to go (R404, R405). -/
def State.elect (s : State) (h : Nat) (r : CkptRun) : State :=
  let s := (List.range r.nShards).foldl (fun (st : State) i =>
    if r.myClass i ≠ 0 then st.raise { code := 0xF108, ctx := some r.ctx, loc := h } else st) s
  let mine := (List.range r.nShards).filter r.writes?
  let p := mine.foldl (State.addWrites h r) (s, some [])
  p.1.electEnd h r mine.length p.2

/-- Every peer's notice has come for every shard. -/
def CkptRun.allHere (r : CkptRun) : Bool := (List.range r.nShards).all fun i => (r.present i).length == r.n

/-! ### Reading (R402) -/

/-- The notice of shard `i`. -/
def State.ckptNotice (s : State) (r : CkptRun) (i : Nat) (digest : List Byte) : Card :=
  let c := (mkHeader 0xFB r.ctx (r.first + i) 0 0 s.chip (s.ctxSlice r.ctx)).put 16 2 r.noticeq
  ((c.put 20 4 r.region).put 24 8 r.id).put 32 32 (leNat digest)

/-- Hash the bytes of shard `i` and tell the other peers; a lost word ends the request. -/
def State.hashShard (s : State) (h : Nat) (r : CkptRun) (i : Nat) (x : List Byte × Option Nat) : State × Option CkptRun :=
  match x.2 with
  | some w => (s.ckptLost h r w, none)
  | none =>
    let d := sha256 x.1
    let s := (r.peers.filter fun p => p != s.chip).foldl (fun (st : State) p =>
      st.sendCtxCard p r.ctx (st.ckptNotice r i d)) s
    (s, some { r with digests := r.digests ++ [d] })

/-- Read and hash shard `i`. -/
def State.readShard (s : State) (h i : Nat) (r : CkptRun) : State × Option CkptRun :=
  let p := s.memRead (r.src + i * shardBytes) (r.len i)
  ((p.1.account r.ctx 6 (r.len i)).globalEvent (47 + h) 1 (r.len i)).hashShard h r i p.2

/-- The next shard, where every one before it could be read. -/
def State.readNext (h : Nat) (a : State × Option CkptRun) (i : Nat) : State × Option CkptRun :=
  match a.2 with
  | none => a
  | some z => a.1.readShard h i z

/-- Every shard is read, and the program is gated (R402); where one could not be, the request has ended. -/
def State.regionRead (s : State) (h : Nat) (r : CkptRun) (o : Option CkptRun) : State :=
  match o with
  | none => s
  | some z =>
    let z := { z with reading := false, readAt := s.now }
    let s := (s.setCkpt h (some z)).postCard (z.card.get 16 2) (s.gateCard z.ctx z.id 0)
    if z.allHere then s.elect h z else s

/-- Read every shard, then gate the program. -/
def State.readRegion (s : State) (h : Nat) (r : CkptRun) : State :=
  let p := (List.range r.nShards).foldl (State.readNext h) (s, some r)
  p.1.regionRead h r p.2

/-- The checks of R401 on the request and its descriptor. -/
def State.ckptOk (s : State) (r : CkptRun) : Bool :=
  let x := r.ctx
  let myQ (k : Nat) : Bool := s.qEn k && s.qClass k == 7 && s.qCtx k == x
  1 ≤ r.size && decide (r.size ≤ 2 ^ 34) && r.src % 4096 == 0 && s.inPartition x r.src r.size
    && decide (r.d 32 1 ≤ 1) && decide (r.d 33 1 ≤ 1) && r.d 34 2 == 0
    && myQ (r.card.get 16 2) && myQ r.noticeq

/-- The group of a request: the peers read, in rising order with this chip among them, its region is read (R402). -/
def State.ckptGroup (s : State) (h : Nat) (r : CkptRun) : State :=
  let (s, nb, lost) := s.memRead (r.d 24 8) 4
  let n := leNat nb
  if lost.isSome then s.ckptLost h r (lost.getD 0)
  else if n < 1 ∨ 65536 < n ∨ ¬ s.inPartition r.ctx (r.d 24 8) (4 + 4 * n) then s.ckptFail h r 1
  else
    let (s, mb, lost) := s.memRead (r.d 24 8 + 4) (4 * n)
    let ps := (Sys2Proof.Machine.chunks 4 mb (n + 1)).map leNat
    let rising : Bool := (ps.zip (ps.drop 1)).all fun p => decide (p.1 < p.2)
    if lost.isSome then s.ckptLost h r (lost.getD 0)
    else match ps.findIdx? (· == s.chip), rising with
    | some pos, true => s.readRegion h { r with peers := ps, pos }
    | _, _ => s.ckptFail h r 1

/-- The engine takes the request at the head of its queue (R401). -/
def execCheckpointRequest (h : Fin 2) (upsets : List Upset) (s : State) : Res :=
  let s := s.memUpset upsets
  let q := s.fld (R.halfCkptReqQ h) 11 0
  if q = 0xFFF ∨ (s.ckpt h).isSome ∨ ¬ s.qEn q ∨ s.qClass q ≠ 7 ∨ s.enginesHeld then .next s
  else match s.qHead q with
  | none => .next s
  | some c =>
    let x := s.qCtx q
    let s := s.takeCard q
    let s := s.newRequest.wr (R.halfCkptId h) (BitVec.ofNat 64 (c.get 32 8))
    let r : CkptRun := { card := c, no := s.fab.engSeq, ctx := x, desc := [], peers := [], pos := 0 }
    if c.tag ≠ 0xFC ∨ c.ctx ≠ x ∨ ¬ s.inPartition x (c.get 24 8) 128 then .next (s.ckptFail h r 1)
    else
      let (s, bs, lost) := s.memRead (c.get 24 8) 128
      let r := { r with desc := bs }
      if lost.isSome then .next (s.ckptLost h r (lost.getD 0))
      else if ¬ s.ckptOk r ∨ ¬ s.inPartition x (r.d 24 8) 4 then .next (s.ckptFail h r 1)
      else .next (s.ckptGroup h r)

/-- The engine takes the notice at the head of NOTICEQ (R403). -/
def execDigestNotice (h : Fin 2) (s : State) : Res :=
  match s.ckpt h with
  | none => .next s
  | some r =>
    if s.enginesHeld then .next s
    else match s.qHead r.noticeq with
    | none => .next s
    | some c =>
      let s := s.takeCard r.noticeq
      let i := c.accession - r.first
      match r.peers.findIdx? (· == c.srcChip) with
      | none => .next (s.count (R.halfNoticeDropCnt h) 1)
      | some p =>
        if c.tag ≠ 0xFB ∨ c.get 20 4 ≠ r.region ∨ c.get 24 8 ≠ r.id ∨ c.accession < r.first ∨ r.nShards ≤ i
            ∨ r.writing then .next (s.count (R.halfNoticeDropCnt h) 1)
        else
          let r := { r with notices := r.notices.set [] (r.n * i + p) (natLE 32 (c.get 32 32)) }
          let s := s.setCkpt h (some r)
          .next (if r.reading ∨ ¬ r.allHere then s else s.elect h r)

/-- 2 × REQ_TIMEOUT after the last shard was read, the peers still missing are absent (R403). -/
def execNoticeWaitEnd (h : Fin 2) (s : State) : Res :=
  match s.ckpt h with
  | none => .next s
  | some r =>
    if r.reading ∨ r.writing ∨ s.enginesHeld then .next s
    else .next ((s.advanceTo (r.readAt + 2 * s.reqTimeout)).elect h r)

end Sys2Proof.Machine
end

