-- ==== Sys2Proof/Machine/HostBase.lean ====
section
/-! DEFINITION. The host port's tags and reads (R492–R494), the device cache (R496–R498), and what host commands
share. -/

namespace Sys2Proof.Machine

def State.modHost (s : State) (f : HostState → HostState) : State := { s with host := f s.host }

/-- The management firmware runs (R470): it serves the management transports. -/
def State.firmware (s : State) : Bool := s.trust.running.isSome

def State.hostCxl (s : State) : Bool := s.fld R.hostStatus 1 0 == 3

/-- A fault or event of the host port (Table 18-13), with its detail (Table 14-17). -/
def State.hostRaise (s : State) (code requester tag addr : Nat) (ctx : Option Nat := none) : State :=
  s.raise { code, ctx, detail := [(1, requester), (2, tag), (8, addr), (1, s.fld R.hostStatus 1 0)] }

/-! ### Tags (R493) -/

def State.showHostTags (s : State) : State :=
  let q := (s.host.tags.filter fun t => t.2.quarantined).length
  (s.setFld R.hostTagState 10 0 (s.host.tags.length - q)).setFld R.hostTagState 26 16 q

def hostFreeTag (t : Tab HostTag) : Option Nat := (List.range 1024).find? fun k => !t.any fun e => e.1 == k

/-- A read request of at most 4,096 B is issued under a free tag (R492); none where no tag is free. -/
def State.hostRead (s : State) (requester idx addr len : Nat) (card : Bool) : Option State :=
  (hostFreeTag s.host.tags).map fun t =>
    (s.modHost fun h => { h with tags := h.tags.put t { requester, idx, addr, len, card } }).showHostTags

def State.hostTag (s : State) (t : Nat) : Option HostTag := (s.host.tags.find? fun e => e.1 = t).map (·.2)

/-- The tag closes as FREE. -/
def State.closeHostTag (s : State) (t : Nat) : State := (s.modHost fun h => { h with tags := h.tags.erase t }).showHostTags

/-- The tag becomes QUARANTINED in the present epoch. -/
def State.quarantineTag (s : State) (t : Nat) : State :=
  match s.hostTag t with
  | some r => (s.modHost fun h => { h with tags := h.tags.put t { r with quarantined := true, epoch := s.epoch } }).showHostTags
  | none => s

/-- Quarantined tags whose second epoch has begun become FREE (R493). -/
def State.retireTags (s : State) (e : Nat) : State :=
  (s.modHost fun h => { h with tags := h.tags.filter fun t => !(t.2.quarantined && t.2.epoch + 2 ≤ e) }).showHostTags

/-! ### Rings -/

def State.ring (s : State) (r : Nat) : Ring := s.host.rings.get {} r
def State.setRing (s : State) (r : Nat) (x : Ring) : State := s.modHost fun h => { h with rings := h.rings.set {} r x }
def State.modRing (s : State) (r : Nat) (f : Ring → Ring) : State := s.setRing r (f (s.ring r))

def State.ringEn (s : State) (r : Nat) : Bool := s.bit (R.hostRingCfg r) 0
def State.ringD2h (s : State) (r : Nat) : Bool := s.bit (R.hostRingCfg r) 1
def State.ringQueue (s : State) (r : Nat) : Nat := s.fld (R.hostRingCfg r) 13 2
def State.ringDepth (s : State) (r : Nat) : Nat := 2 ^ s.fld (R.hostRingCfg r) 17 14
def State.ringCtx (s : State) (r : Nat) : Nat := s.fld (R.hostRingCfg r) 26 18
def State.ringBase (s : State) (r : Nat) : Nat := s.fld (R.hostRingBase r) 63 6 * 64
def State.ringIdx (s : State) (r : Nat) : Nat := s.fld (R.hostRingIdx r) 63 7 * 128

/-- The host address of card `n` of a ring (R500). -/
def State.ringSlot (s : State) (r n : Nat) : Nat := s.ringBase r + 64 * (n % s.ringDepth r)

/-- Rings whose index line is `a`. -/
def State.indexRing (s : State) (a : Nat) : Option Nat := (List.range 64).find? fun r => s.ringEn r && s.ringIdx r == a

/-! ### The device cache (R496, R498) -/

def lineSet (a : Nat) : Nat := a / 64 % 2048

def State.line (s : State) (a : Nat) : Option CacheLine := (s.host.cache.find? fun e => e.1 = a).map (·.2)
def State.putLine (s : State) (a : Nat) (l : CacheLine) : State :=
  s.modHost fun h => { h with cache := h.cache.put a { l with used := h.use + 1 }, use := h.use + 1 }
def State.dropLine (s : State) (a : Nat) : State := s.modHost fun h => { h with cache := h.cache.erase a }

def State.evicting (s : State) (a : Nat) : Option Evict := s.host.evicts.find? fun e => e.line == a

/-- A line moves to the eviction buffer, whose room the caller has seen (R498). -/
def State.evict (s : State) (a : Nat) : State :=
  match s.line a with
  | some l => (s.dropLine a).modHost fun h => { h with evicts := h.evicts ++ [⟨a, l.st == 3, l.data⟩] }
  | none => s

/-- The lines of disabled rings move to the eviction buffer, while it has room (Table 18-4, R498). -/
def State.evictLeaving (s : State) : State :=
  let n := 32 - s.host.evicts.length
  let here := s.host.leaving.filter fun a => (s.line a).isSome
  (here.take n).foldl (fun (st : State) a => st.evict a) (s.modHost fun h => { h with leaving := here.drop n })

/-- The least recently used line of a set that is not pinned. -/
def State.victim (s : State) (set : Nat) : Option Nat :=
  (s.host.cache.foldl (fun (best : Option (Nat × CacheLine)) e =>
    if lineSet e.1 ≠ set ∨ e.2.pinned then best
    else match best with
      | some b => if e.2.used < b.2.used then some e else best
      | none => some e) none).map (·.1)

/-- There is a way for line `a`, or one is made by an eviction; none while that must wait. -/
def State.makeWay (s : State) (a : Nat) : Option State :=
  if (s.line a).isSome ∨ ((s.host.cache.filter fun e => lineSet e.1 = lineSet a).length < 16) then some s
  else match s.victim (lineSet a) with
    | some v => if s.host.evicts.length < 32 then some (s.evict v) else none
    | none => none

/-- A CXL.cache request is issued, or waits for the eviction buffer (R498). -/
def State.cxlAsk (s : State) (r : CxlReq) : State :=
  let wait := s.modHost fun h => { h with stalled := h.stalled ++ [r] }
  if (s.evicting r.line).isSome then wait
  else if r.kind = 1 then s.modHost fun h => { h with reqs := h.reqs ++ [r] }
  else match s.makeWay r.line with
    | some t => t.modHost fun h => { h with reqs := h.reqs ++ [r] }
    | none => wait

/-- Requests that waited are tried again. -/
def State.cxlRetry (s : State) : State :=
  let rs := s.host.stalled
  rs.foldl (fun (st : State) r => st.cxlAsk r) (s.modHost fun h => { h with stalled := [] })

end Sys2Proof.Machine
end

