-- ==== Sys2Proof/Machine/MemCmds.lean ====
section
/-! DEFINITION. The granule map and zero fill (R211–R213), scrub (R218), spare rows (R219), bank rebuilds
(R220, R221), write-backs (R213). -/

namespace Sys2Proof.Machine

/-! ### The granule map (R212) -/

/-- A job of context `x` runs or is parked. -/
def State.ctxBusy (s : State) (x : Nat) : Bool := !(s.ctxUnits x).isEmpty

def State.mapReject (s : State) : State := s.setBit R.smemcStatus 0 true

/-- The fill's effect on the contents of granule `g`: every data row and its parity rows are zero with fresh check
bits. -/
def State.zeroGranule (s : State) (g : Nat) : State :=
  let lo := g * 2 ^ 25
  let hi := lo + 2 ^ 25
  let m := { s.smem with
    ecc := (s.smem.ecc.clearRange lo hi).clearRange (2 ^ 40 + lo) (2 ^ 40 + hi)
    owed := s.smem.owed.filter fun w => w < lo || hi ≤ w
    lostRows := s.smem.lostRows.filter fun r => rowGranule r.1 r.2.2 != g
    -- the fill of a bank under rebuild goes to its spare (R220 step 2)
    rebuilds := s.smem.rebuilds.map fun r => (r.1, r.2.map fun x =>
      if r.1 / 4 = g / 256 then
        { x with written := x.written ++ (((List.range 64).map (64 * (g % 256) + ·)).filter fun w => !x.written.contains w) }
      else x) }
  { s with mem := Tab.clearRange s.mem lo hi, smem := m }

/-- A write of a granule's entry (R212, R213, Table 15-5): OWNER, VALID and CLASS in `v`. -/
def State.granuleWrite (s : State) (g : Nat) (v : Word) : State :=
  let bad : Bool := bits v 11 10 == 3
  let cls := if bad then s.granClass g else bits v 11 10
  let val : Bool := bits v 9 9 == 1
  let own := bits v 8 0
  let s := if bad then s.mapReject else s
  let off : Bool := val && (List.range 4).any fun t => !s.bit R.pwrDomainState (32 + g / 256 * 4 + t)
  if (s.granValid g && s.ctxBusy (s.granOwner g)) || (val && s.ctxBusy own) || off then s.mapReject
  else
    let fill : Bool := val && (!s.granValid g || s.granOwner g != own || s.granClass g != cls)
    let k := R.smemcGranule g
    let s := ((s.setFld k 8 0 own).setBit k 9 val).setFld k 11 10 cls
    if fill then (s.setBit k 12 true).zeroGranule g else s

def execGranuleWrite (granule : Fin 512) (value : Word) (s : State) : Res := .next (s.granuleWrite granule value)

/-! ### Spares (Table 8-8) -/

/-- Free spare rows of a bank: 64 at reset. -/
def State.spareRows (s : State) (t b : Nat) : Nat := s.smem.spareRows.get 64 (512 * t + b)

/-- SPARE_ROW_MIN and SPARE_LOW of a tier. -/
def State.showSpares (s : State) (t : Nat) : State :=
  let (m, b) := s.smem.spareRows.foldl (fun (a : Nat × Nat) e =>
    if e.1 / 512 = t ∧ e.2 < a.1 then (e.2, e.1 % 512) else a) (64, 0)
  let s := s.wr (R.smemSpareRowMin t) (BitVec.ofNat 64 (m + 128 * b))
  let noBank : Bool := s.fld (R.smemSpareBank t 0) 10 9 != 0 && s.fld (R.smemSpareBank t 1) 10 9 != 0
  let low : Bool := m < 8 || noBank
  if low ∧ ¬ s.bit (R.hdrIntStatus (384 + t)) 4 then (s.intEvent (384 + t) 4).advise 6 else s

/-- The spare banks of a tier that are free. -/
def State.freeSpares (s : State) (t : Nat) : List Nat := [0, 1].filter fun k => s.fld (R.smemSpareBank t k) 10 9 == 0

/-- The rebuild of a bank onto a free spare bank begins (R220). -/
def State.rebuildStart (s : State) (t b k : Nat) : State :=
  let r : Rebuild := { bank := b, spare := k }
  let s := { s with smem := { s.smem with rebuilds := s.smem.rebuilds.set none t (some r),
                                          failed := s.smem.failed.erase (t, b) } }
  let s := s.wr (R.smemSpareBank t k) (BitVec.ofNat 64 (b + 512))
  let s := s.wr (R.smemRebuild t) (BitVec.ofNat 64 (1 + 2 * b))
  let s := ((s.repairStart 2 0).modLedger fun l => { l with spares := bump l.spares (592 + t) 1 }).advise 6
  s.showSpares t

/-- A data or parity bank has failed: its rebuild begins, waits for the one that runs, or never comes, as the spare banks allow
that are free and that no other bank waits for (R220, R221). -/
def State.failBank (s : State) (t b : Nat) : State :=
  if s.smem.failed.contains (t, b) then s
  else
    let s := s.modLedger fun l => { l with spares := bump l.spares (584 + t) 1 }
    let waiting := (s.smem.failed.filter fun f => f.1 == t).length
    let wait (s : State) : State := { s with smem := { s.smem with failed := s.smem.failed ++ [(t, b)] } }
    match (s.freeSpares t).drop waiting with
    | [] => (wait s).raise { code := 0x300C, loc := t, detail := memDetail t b 0xFFFF 0xFF 0xFF 0xFFFF 0xFF [] }
    | k :: _ => if (s.smem.rebuilds.get none t).isSome then wait s else s.rebuildStart t b k

/-- The rebuild of the first bank of a tier that waits for one begins, where a spare bank is free and no rebuild runs. -/
def State.rebuildNext (s : State) (t : Nat) : State :=
  match s.smem.rebuilds.get none t, s.smem.failed.find? (fun f => f.1 == t), s.freeSpares t with
  | none, some f, k :: _ => s.rebuildStart t f.2 k
  | _, _, _ => s

/-- A bank is declared failed, coded as in ERR_LAST.  A bank that a spare already serves has failed before; a spare bank that
fails is never used again, and the bank it served has failed. -/
def State.bankFailed (s : State) (t b : Nat) : State :=
  if b < 288 then (if (s.spareOf t b).isSome then s else s.failBank t b)
  else
    let k := R.smemSpareBank t (b - 288)
    let st := s.fld k 10 9
    let served := s.fld k 8 0
    if st = 3 then s
    else
      let s := s.wr k (BitVec.ofNat 64 (0x1FF + 3 * 512))
      if st = 0 then s.showSpares t
      else
        let s := if st = 1 then
            ({ s with smem := { s.smem with rebuilds := s.smem.rebuilds.set none t none } }.wr (R.smemRebuild t) 0).repairEnd 2
          else s
        ((s.failBank t served).rebuildNext t).showSpares t

def execBankRebuild (tier : Fin 8) (bank : Fin 290) (s : State) : Res := .next (s.bankFailed tier bank)

/-- The banks of the parity group of a bank, its parity bank among them (R214). -/
def groupBanks (b : Nat) : List Nat :=
  let (i, m) := if b < 256 then (b % 8, b / 64) else ((b - 256) / 4 % 8, b % 4)
  (256 + 4 * i + m) :: (List.range 8).map fun k => 64 * m + 8 * k + i

/-- The health key of word `w` of a row of a data or parity bank. -/
def wordKey (t b row w : Nat) : Nat :=
  if b < 256 then smAddr t b row w else 2 ^ 40 + smAddr t (64 * (b % 4) + (b - 256) / 4) row w

/-- Row `row` of bank `b` can be rebuilt: its granule is of class W and no other bank of its group has lost the row
(R216, R220). -/
def State.rowRebuilds (s : State) (t b row : Nat) : Bool :=
  s.granClass (rowGranule t row) == 0 &&
    (groupBanks b).all fun x => x == b || !s.rowLost t x row

/-- The walk of the rebuild `r` of tier `t` goes on to row `n`: each word of the rows passed is good where its stripe rebuilds
it, else poisoned, unless the row has been written since the rebuild began (R216, R220 step 3). -/
def State.rebuildRows (s : State) (t : Nat) (r : Rebuild) (n : Nat) : State :=
  let b := r.bank
  let rows := ((List.range (n - r.row)).map (r.row + ·)).filter fun row => !r.written.contains row
  let lost := rows.filter fun row => !s.rowRebuilds t b row && (b < 256 || s.granClass (rowGranule t row) == 0)
  -- words whose stripe has another uncorrectable word
  let stuck := (s.smem.ecc.filter fun e => e.2 == 2).filterMap fun e =>
    let a := e.1 % 2 ^ 40
    let from_ := keyBank e.1
    if smTier a = t ∧ from_ ≠ b ∧ (groupBanks b).contains from_ then some (wordKey t b (smRow a) (smWord a)) else none
  let mine (k : Nat) : Bool := smTier (k % 2 ^ 40) == t && keyBank k == b
  let good (k : Nat) : Bool :=
    mine k && rows.contains (smRow (k % 2 ^ 40)) && s.rowRebuilds t b (smRow (k % 2 ^ 40)) && !stuck.contains k
  let m := { s.smem with
    rebuilds := s.smem.rebuilds.set none t (some { r with row := n })
    lostRows := s.smem.lostRows ++ lost.map fun row => (t, b, row)
    ecc := (stuck.filter fun k => rows.contains (smRow (k % 2 ^ 40))).foldl (fun e k => e.set 0 k 2)
      (s.smem.ecc.filter fun e => !good e.1) }
  { s with smem := m }.wr (R.smemRebuild t) (BitVec.ofNat 64 (1 + 2 * b + 1024 * n))

/-- The walk is over: the spare bank serves the failed bank, and the rebuild of a bank that waited for it begins (R220). -/
def State.rebuildEnd (s : State) (t : Nat) (r : Rebuild) : State :=
  let s := s.rebuildRows t r 16384
  let s := { s with smem := { s.smem with rebuilds := s.smem.rebuilds.set none t none } }
  let s := (s.setFld (R.smemSpareBank t r.spare) 10 9 2).wr (R.smemRebuild t) 0
  ((s.intEvent (384 + t) 3).repairEnd 2).rebuildNext t

/-- The walk of a tier's rebuild reaches a row, and with row 16,384 its end (R220 steps 3 and 4, log 59). -/
def execRebuildDone (walk : RebuildWalk) (s : State) : Res :=
  .next (match s.smem.rebuilds.get none walk.tier with
  | none => s
  | some r =>
    if walk.rows.val = 16384 then s.rebuildEnd walk.tier r
    else if r.row < walk.rows then s.rebuildRows walk.tier r walk.rows else s)

/-- A copy of a row reads its words: a correctable one is corrected, an uncorrectable one of class W rebuilt where its stripe
allows, any other copied with its poison; a row of which a word was rebuilt counts (R216, R219). -/
def State.copyRow (s : State) (ks : List Nat) : State :=
  let bad := ks.filter fun k => s.keyHealth k ≠ 0 && (k < 2 ^ 40 || s.memClass (k % 2 ^ 40) == 0)
  let again := bad.filter fun k => s.keyHealth k = 2 && s.keyRebuilds k
  let t := smTier (ks.headD 0 % 2 ^ 40)
  let s' := s.noteWordsBad bad
  let s' := if again = [] then s' else ((s'.count (R.smemReconCnt t) 1).globalEvent (32 + t) 4 1).intEvent (384 + t) 2
  let s' := ((bad.filter fun k => s.keyHealth k = 1) ++ again).foldl (fun (st : State) k => st.setMemHealth k 0) s'
  { s' with smem := { s'.smem with owed := s'.smem.owed.filter fun w => !ks.contains w } }

/-- A row is copied into a free spare row of its bank, or the bank fails where none is left (R219).  A row of a spare bank
holds what it serves. -/
def State.spareRow (s : State) (t b row : Nat) : State :=
  let n := s.spareRows t b
  if n = 0 then s.bankFailed t b
  else
    let held := if b < 288 then b else s.fld (R.smemSpareBank t (b - 288)) 8 0
    let s := if held < 288 then s.copyRow ((List.range 64).map fun w => wordKey t held row w) else s
    let m := { s.smem with
      spareRows := s.smem.spareRows.set 64 (512 * t + b) (n - 1)
      rowMap := s.smem.rowMap.set 0 ((512 * t + b) * 16384 + row) (65 - n) }
    (({ s with smem := m }).modLedger fun l => { l with spares := bump l.spares (576 + t) 1 }).showSpares t

def execSpareRow (tier : Fin 8) (bank : Fin 290) (row : Fin 16384) (s : State) : Res :=
  .next (s.spareRow tier bank row)

/-! ### Scrub and write-back (R213, R218) -/

/-- Scrub reads a parity word of a class W granule, as no other parity word is ever read (R215, log 118): an error is counted,
and the word made again where its stripe allows. -/
def State.scrubParity (s : State) (a : Nat) : State :=
  let k := parityKey a
  let h := s.parityHealth a
  if h = 0 ∨ s.memClass a ≠ 0 then s
  else
    let ok : Bool := h == 1 || s.keyRebuilds k
    let s := s.noteMemEcc k h
    let s := if h = 2 then s.observe 7 (rowKey (smTier a) (s.physBank (smTier a) (parityBank a) (smRow a)) (smRow a)) else s
    if ok then s.setMemHealth k 0 else s

/-- Scrub reads a data word: one bit is corrected, two are observed and the row rebuilt where it is protected. -/
def State.scrubWord (s : State) (w : Nat) : State :=
  let h := s.memHealth w
  if h = 0 then s
  else
    let s := s.noteMemEcc w h
    if h = 1 then s.setMemHealth w 0
    else
      let s := s.observe 7 (rowKey (smTier w) (s.physBank (smTier w) (smBank w) (smRow w)) (smRow w))
      if s.memClass w = 0 then s.rebuildRow w else s

/-- Patrol scrub reads the word at `addr` (a parity word above 2^40); `passEnd`: the word ends a pass. -/
def execScrub (addr : Nat) (passEnd : Bool) (upsets : List Upset) (s : State) : Res :=
  if ¬ s.bit R.smemcScrubCfg 0 then .next s
  else
    let s := s.memUpset upsets
    let s := if 2 ^ 40 ≤ addr then s.scrubParity ((addr - 2 ^ 40) / 8 * 8) else s.scrubWord (addr / 8 * 8)
    .next (if passEnd then s.count (R.smemScrubPassCnt (smTier (addr % 2 ^ 40))) 1 else s)

/-- A corrected or rebuilt word is written back in a reserved cycle of its channel. -/
def execStageMemoryWriteBack (addr : Nat) (s : State) : Res :=
  let w := addr / 8 * 8
  if ¬ s.smem.owed.contains w then .next s
  else
    let s := { s with smem := { s.smem with owed := s.smem.owed.erase w } }
    .next (if s.memHealth w = 1 ∨ s.rebuildable w then s.setMemHealth w 0 else s)

end Sys2Proof.Machine
end

