-- ==== Sys2Proof/Machine/LoadStore.lean ====
section
/-! DEFINITION. LD, ST, ST.SIGNAL and the operations at the memory (R148–R154, R195–R199, R222, R223, R293), the
responses of stage memory (R209, R216, R217) and scratchpad write-backs (R201). -/

namespace Sys2Proof.Machine

/-- Window `n` of a unit: base and size; a disabled window is empty (R21). -/
def State.window (s : State) (u n : Nat) : Nat × Nat :=
  if s.bit (R.udWinBase u n) 0 then
    (s.fld (R.udWinBase u n) 33 12 * 4096, s.fld (R.udWinSize u n) 34 12 * 4096)
  else (0, 0)

/-- The window of the unit whose job core `c` runs. -/
def State.coreWindow (s : State) (c n : Nat) : Nat × Nat :=
  match s.unitOf c with | some u => s.window u n | none => (0, 0)

def State.jobCtx (s : State) (c : Nat) : Nat :=
  match s.unitOf c with | some u => (s.job u).ctx | none => 0

/-- A failed check ends the job (R152). -/
def State.addrFault (s : State) (c eng iseq : Nat) (f : Nat × Nat × AddrFault) : State :=
  s.coreFault c f.2.2.code (addrDetail eng iseq f.1 f.2.1 f.2.2.value)

/-- Elements of a tile (R151): the whole walk under SMODE = END. -/
def tileElems (d : Desc) (y : SyncF) : Nat :=
  if y.tile then max 1 (d.prod (y.tl.getD 0)) else max 1 d.total

/-- The wide end of an address space for a walk that is in no scratchpad. -/
def noRing : Nat := 2 ^ 64

/-- The operation's result is a scalar delivery. -/
def slotScalar : SlotOp → Bool
  | .ld (.scnt _ _ _ _ _ (.scalar _ _) _) => true
  | .ld (.smcnt _ _ _ _ _ _ _ (.scalar _ _) _) => true
  | .ld (.scas ..) => true
  | .ld (.smcas ..) => true
  | _ => false

/-- The signal of a tile, and the END signal of an operation; a scalar delivery carries its own (R116, R200). -/
def Engine.tileDone (x : Engine) (y : SyncF) : Engine := if y.tile then x.owe y else x
def Engine.opDone (x : Engine) (o : SlotOp) : Engine :=
  if (slotSync o).tile || slotScalar o then x else x.owe (slotSync o)

def ownSignal (y : SyncF) : Option SigOwed := y.sflag.map fun f => ⟨f, y.scount⟩

/-- A scalar delivery is owed; its cycle is the completion point of an operation under SMODE = END (R200). -/
def Engine.oweDeliv (x : Engine) (y : SyncF) (reg : Nat) (v : Word) (f : Nat) : Engine :=
  { x with delivs := x.delivs ++ [⟨reg, v, f, if y.tile then none else ownSignal y⟩] }

/-- The head of an engine's queue, ready to begin. -/
def State.beginHead (s : State) (c : Nat) (e : EngId) : Option QOp :=
  if s.coreRuns c then s.headReady c e else none

/-- An operation in progress. -/
def State.startOp (s : State) (c : Nat) (e : EngId) (o : CurOp) : State :=
  s.modEng c e fun x => { x with cur := x.cur ++ [o] }

/-! ### LD and ST -/

/-- The checks of a transfer between the walk of `near` in the scratchpad and that of `far`, `o` bytes into a space of
`size` bytes (R150, R152). -/
def QOp.xferFault (q : QOp) (near far o size : Nat) : Option (Nat × Nat × AddrFault) :=
  let dn := q.descs.get 0 near
  let n := esizeBytes dn.esize
  firstFault [(near, 9, dn.checkNear n), (far, 10, (q.descs.get 0 far).checkFar o size n)]

/-- The requests of such a transfer, the far walk starting at `start` (R154). -/
def QOp.xferReqs (q : QOp) (near far start : Nat) (y : SyncF) : List MemReq :=
  let dn := q.descs.get 0 near
  let df := q.descs.get 0 far
  buildReqs (if dn.rsize = 0 then 0 else dn.rbase) dn.ringEnd dn.addr
    (fun i => (start + df.walk df.sshift i : Int).toNat) (esizeBytes dn.esize) (tileElems dn y) (max 1 dn.total) 0 dn.total []

/-- A transfer begins: its first fault (engine code `code`), or its requests. -/
def State.xferBegin (s : State) (c : Nat) (e : EngId) (code : Nat) (q : QOp) (near far base o size : Nat) (y : SyncF) :
    State :=
  match q.xferFault near far o size with
  | some f => s.addrFault c code q.iseq f
  | none => s.startOp c e { q, reqs := q.xferReqs near far (base + o) y }

/-- An LD operation keeps counts and SMCAS waiting, and they it: one kind at a time is in progress. -/
def Core.ldFree (x : Core) : Bool := x.ld.cur.all fun o => match o.q.op with | .ld (.ld ..) => true | _ => false

/-- `LD` (R148–R154): the checks, then its requests. -/
def execLd (core : Fin 128) (s : State) : Res :=
  .next (match s.beginHead core .ld with
  | some q => match q.op with
    | .ld (.ld win off near far y) =>
      if ¬ (s.core core).ldFree then s
      else
        let s := s.takeHead core .ld
        let w := s.coreWindow core win
        s.xferBegin core .ld 2 q near far w.1 (q.regs.get 0 off).toNat w.2 y
    | _ => s
  | none => s)

/-- The transfer slot to which a send buffer is bound and open (R293). -/
def State.bufferSlot (s : State) (buf : Nat) : Option (Nat × Nat) :=
  ((List.range 16).find? fun k =>
    s.slotState (buf / 16) k == 7 && (s.slot (buf / 16) k).buffer == some buf && (s.slot (buf / 16) k).accepting).map
    fun k => (buf / 16, k)

/-- Bytes that core `c` may address in a send buffer: BYTES of the transfer when the buffer is bound to its unit
and its context, else none. -/
def State.bufferSize (s : State) (c buf : Nat) : Nat :=
  match s.bufferSlot buf with
  | some (q, k) =>
    if unitHas (s.slot q k).unit c ∧ s.slotCtx q k = s.jobCtx c then (s.slot q k).card.sBytes else 0
  | none => 0

/-- `ST` (R148–R154, R293). -/
def execSt (core : Fin 128) (s : State) : Res :=
  .next (match s.beginHead core .st with
  | some q => match q.op with
    | .st (.st win off near far y) =>
      let s := s.takeHead core .st
      let w := s.coreWindow core win
      s.xferBegin core .st 3 q near far w.1 (q.regs.get 0 off).toNat w.2 y
    | .st (.stLink buf near far y) =>
      let s := s.takeHead core .st
      s.xferBegin core .st 3 q near far 0 0 (s.bufferSize core buf) y
    | _ => s
  | none => s)

/-! ### ST.SIGNAL (R120, R121) -/

/-- The target flag is updated, and there the operation's own signal (Table 4-4). -/
def State.stSignalLand (s : State) (c : Nat) (g : StSig) : State :=
  let s := s.signal g.target g.flag g.n
  match g.own with | some o => s.signal c o.flag o.n | none => s

/-- `ST_SIGNAL`: released once every earlier ST of the core has completed. -/
def execStSignal (core : Fin 128) (s : State) : Res :=
  .next (match s.beginHead core .st, s.unitOf core with
  | some q, some u => match q.op with
    | .st (.stSignal t f n y) =>
      let x := s.core core
      if x.st.cur.isEmpty ∧ x.st.sigs.isEmpty ∧ x.stSignals.isEmpty then
        let s := s.takeHead core .st
        let g : StSig := { target := unitFirst u + t, flag := f, n, own := ownSignal y }
        if g.target = core then s.stSignalLand core g
        else s.modCore core fun x => { x with stSignals := x.stSignals ++ [g] }
      else s
    | _ => s
  | _, _ => s)

/-- `ST_SIGNAL_DELIVERY`: a released signal of `core` reaches its target. -/
def execStSignalDelivery (core : Fin 128) (s : State) : Res :=
  .next (if s.coreRuns core then
    match (s.core core).stSignals with
    | g :: rest => (s.modCore core fun x => { x with stSignals := rest }).stSignalLand core g
    | [] => s
  else s)

/-! ### Counts and compare-and-swap in the scratchpad (R195–R199) -/

/-- Units of a segment (R173, R195): level RL of the walk; one segment where the target is a scalar. -/
def segUnits (d : Desc) (rl : Nat) (t : CntTgt) : Nat :=
  match t with | .scalar _ _ => max 1 d.total | .dm _ => max 1 (d.prod rl)

/-- A count written through DM (R198). -/
def State.mapWrite (s : State) (c : Nat) (q : QOp) (dm seg n : Nat) : State :=
  (s.spadScatter c (unitPairs (q.descs.get 0 dm) seg 0 (natLE 4 (min n 0x7FFFFFFF)))).coreEvent c 0x30 4 none none

/-- The checks of a count: DS, and DM where it is the target (R196). -/
def countChecks (q : QOp) (ds : Nat) (o : Option AddrFault) (t : CntTgt) : Option (Nat × Nat × AddrFault) :=
  firstFault ((ds, 19, o) :: (match t with
    | .dm d => [(d, 20, (q.descs.get 0 d).checkNear 4)]
    | .scalar _ _ => []))

/-- A compare-and-swap of the scratchpad's word at `w`, which holds `old` (R199). -/
def State.scasGo (s : State) (c : Nat) (q : QOp) (w : Nat) (old : Word) (se sn d f : Nat) (y : SyncF) : State :=
  let s := s.coreEvent c 0x33 1 none none
  let s := if old = q.regs.get 0 se then
      (s.spadWrite c w (natLE 8 (q.regs.get 0 sn).toNat)).coreEvent c 0x30 8 none none
    else s
  s.modEng c .ld fun x => x.oweDeliv y d old f

/-- `SCAS` (R199): one bank cycle reads the word, compares it and writes SN when it is SE. -/
def execScas (core : Fin 128) (upsets : List Upset) (s : State) : Res :=
  .next (match s.beginHead core .ld with
  | some q => match q.op with
    | .ld (.scas a imm se sn d f y) =>
      if ¬ (s.core core).ld.cur.isEmpty then s
      else
        let s := (s.upset core upsets).takeHead core .ld
        let w := (q.regs.get 0 a + BitVec.ofInt 64 imm).toNat
        if w % 8 ≠ 0 then s.coreFault core 0x3002 (addrDetail 2 q.iseq 0xFF 0xFF w)
        else if 0x80000 ≤ w then s.coreFault core 0x3003 (addrDetail 2 q.iseq 0xFF 0xFF w)
        else
          let r := s.spadCheck core w 8
          if r.2 then r.1.coreFault core 0x3004 (eccDetail w 2 2 q.iseq)
          else r.1.scasGo core q w (BitVec.ofNat 64 (r.1.spadRead core w 8)) se sn d f y
    | _ => s
  | none => s)

/-! ### Counts and compare-and-swap in stage memory (R222, R223) -/

/-- The requests of a count in stage memory, its walk starting at `start`. -/
def QOp.cntReqs (q : QOp) (ds fmt rl start : Nat) (t : CntTgt) : List MemReq :=
  let d := q.descs.get 0 ds
  let at_ (i : Nat) : Nat := (start + d.walk d.sshift i : Int).toNat
  buildReqs 0 noRing at_ at_ (countBytes (fmtOf fmt)) (max 1 d.total) (segUnits d rl t) 0 d.total []

/-- `SMCNT` (R222): the checks, then its requests. -/
def execSmcnt (core : Fin 128) (s : State) : Res :=
  .next (match s.beginHead core .ld with
  | some q => match q.op with
    | .ld (.smcnt win off ds fmt _ _ rl t _) =>
      if ¬ (s.core core).ld.cur.isEmpty then s
      else
        let s := s.takeHead core .ld
        let w := s.coreWindow core win
        let o := (q.regs.get 0 off).toNat
        match countChecks q ds ((q.descs.get 0 ds).checkFar o w.2 (countBytes (fmtOf fmt))) t with
        | some e => s.addrFault core 2 q.iseq e
        | none => s.startOp core .ld { q, reqs := q.cntReqs ds fmt rl (w.1 + o) t }
    | _ => s
  | none => s)

/-- `SMCAS` (R223): the checks, then its request. -/
def execSmcas (core : Fin 128) (s : State) : Res :=
  .next (match s.beginHead core .ld with
  | some q => match q.op with
    | .ld (.smcas win off imm _ _ _ _ _) =>
      if ¬ (s.core core).ld.cur.isEmpty then s
      else
        let s := s.takeHead core .ld
        let w := s.coreWindow core win
        let o := (q.regs.get 0 off + BitVec.ofInt 64 imm).toNat
        if (w.1 + o) % 8 ≠ 0 then s.coreFault core 0x3002 (addrDetail 2 q.iseq 0xFF 10 o)
        else if w.2 < o + 8 then s.coreFault core 0x3001 (addrDetail 2 q.iseq 0xFF 10 o)
        else s.startOp core .ld { q, reqs := [{ near := 0, far := w.1 + o, len := 8 }] }
    | _ => s
  | none => s)

/-! ### Responses (R209) -/

/-- The operation acts on the scratchpad alone. -/
def slotLocal : SlotOp → Bool
  | .ld (.scnt ..) => true
  | _ => false

/-- The requests of an engine to stage memory, in the order of issue, each with the position of its operation. -/
def Engine.flat (x : Engine) : List (Nat × MemReq) :=
  (x.cur.zipIdx.map fun p => if slotLocal p.1.q.op then [] else p.1.reqs.map fun r => (p.2, r)).flatten

/-- Requests that must complete in order: same addresses by one engine (R28), counts and swaps (R224). -/
def MemReq.clash (a b : MemReq) : Bool := a.far < b.far + b.len && b.far < a.far + a.len

/-- Request number `n` of a list, taken out, and the requests before it. -/
def takeNth {α : Type} : List α → Nat → Option (α × List α)
  | [], _ => none
  | x :: t, 0 => some (x, t)
  | x :: t, n + 1 => (takeNth t n).map fun p => (p.1, x :: p.2)

/-- The walk of a count and the bytes of one of its packing units. -/
def QOp.countWalk (q : QOp) : Option (Desc × Nat) :=
  match q.op with
  | .ld (.scnt ds f _ _ _ _ _) => some (q.descs.get 0 ds, countBytes (fmtOf f))
  | .ld (.smcnt _ _ ds f _ _ _ _ _) => some (q.descs.get 0 ds, countBytes (fmtOf f))
  | _ => none

/-- The iteration that a walk of `n`-byte units has reached when requests of `left` bytes are still to come. -/
def Desc.reached (d : Desc) (n left : Nat) : Nat := (d.total * n - left) / n

/-- Tiles completed once request `r` has completed and those of `o` are left: no request of LD and ST crosses a tile
(R151), and a tile of a count ends with the request that reaches its last unit (R200). -/
def CurOp.tilesAfter (o : CurOp) (r : MemReq) : Nat :=
  match o.q.countWalk with
  | some (d, n) => d.reached n (o.reqs.map (·.len)).sum / tileElems d (slotSync o.q.op)
  | none => o.tiles + if o.reqs.all fun p => p.tile != r.tile then 1 else 0

/-- The operation after its request `r` completed: tiles and signals (R116, R151), and the operation's end. -/
def State.reqDone (s : State) (c : Nat) (e : EngId) (k : Nat) (o : CurOp) (r : MemReq) : State :=
  s.modEng c e fun x =>
    let y := slotSync o.q.op
    let n := o.tilesAfter r
    let x := (List.range (n - o.tiles)).foldl (fun z _ => z.tileDone y) x
    let o := { o with tiles := n }
    if o.reqs.isEmpty then { x.opDone o.q.op with cur := x.cur.eraseIdx k } else { x with cur := x.cur.set k o }

/-- A read word that cannot be delivered ends the job (R217). -/
def State.lostWord (s : State) (c : Nat) (q : QOp) (w : Nat) : State :=
  s.coreFault c (lostCode (s.memClass w)) (smDetail s w c [(1, 2), (4, q.iseq)])

/-- A count's request has been read: whole packing units are counted, the rest is carried to the next request. -/
def State.countResponse (s : State) (c k : Nat) (o : CurOp) (r : MemReq) (fmt : Nat) (kind : CntKind) (sv : Nat)
    (t : CntTgt) (bs : List Byte) : State :=
  let s := s.coreEvent c 0x33 1 (some fmt) none
  let f := fmtOf fmt
  let all := o.carry ++ bs
  let whole := all.length / countBytes f * countBytes f
  let n := o.count + countRun f kind (o.q.regs.get 0 sv).toNat (all.take whole)
  let o := { o with carry := all.drop whole, count := n }
  let (s, o) := match t with
    | .dm dm => if r.segEnd then (s.mapWrite c o.q dm r.seg n, { o with count := 0 }) else (s, o)
    | .scalar _ _ => (s, o)
  let s := match t with
    | .scalar d g => if o.reqs.isEmpty then
        s.modEng c .ld fun x => x.oweDeliv (slotSync o.q.op) d (BitVec.ofNat 64 n) g else s
    | .dm _ => s
  s.reqDone c .ld k o r

/-- The LD engine's request completes: a read lands, a count is compared, or a swap is made. -/
def State.ldResponse (s : State) (c k : Nat) (o : CurOp) (r : MemReq) : State :=
  let x := s.jobCtx c
  let (s, bs, lost) := s.memRead r.far r.len
  let s := s.account x 6 r.len
  match lost with
  | some w => s.lostWord c o.q w
  | none => match o.q.op with
    | .ld (.ld _ _ _ _ _) => ((s.spadWrite c r.near bs).coreEvent c 0x30 r.len none none).reqDone c .ld k o r
    | .ld (.smcnt _ _ _ fmt kind sv _ t _) => s.countResponse c k o r fmt kind sv t bs
    | .ld (.smcas _ _ _ se sn d f _) =>
      let s := s.coreEvent c 0x33 1 none none
      let old : Word := BitVec.ofNat 64 (leNat bs)
      let s := if old = o.q.regs.get 0 se then s.memWrite r.far (natLE 8 (o.q.regs.get 0 sn).toNat) else s
      let s := s.modEng c .ld fun x => x.oweDeliv (slotSync o.q.op) d old f
      s.reqDone c .ld k o r
    | _ => s

/-- The ST engine's request completes: its bytes are read, checked (R203) and written or accepted in staging, while its
send buffer is bound to the core's unit and context (R293). -/
def State.stResponse (s : State) (c k : Nat) (o : CurOp) (r : MemReq) : State :=
  let bs := s.spadBytes c r.near r.len
  let (s', bad) := s.spadCheck c r.near r.len
  if bad then
    let w := ((wordsOf r.near r.len).find? fun w => s.spadHealth c w = 2).getD r.near
    s'.coreFault c 0x3004 (eccDetail w 3 3 o.q.iseq)
  else
   let s' := s'.coreEvent c 0x31 r.len none none
   match o.q.op with
    | .st (.st _ _ _ _ _) => ((s'.memWrite r.far bs).account (s.jobCtx c) 6 r.len).reqDone c .st k o r
    | .st (.stLink buf _ far _) =>
      match if r.far + r.len ≤ s.bufferSize c buf then s.bufferSlot buf else none with
      | none => s'.coreFault c 0x3001 (addrDetail 3 o.q.iseq far 10 r.far)
      | some (q, t) =>
        let z := s'.slot q t
        if 16384 < (z.staging.map fun p => p.2.length).sum + r.len then s
        else
          let s' := s'.setSlot q t { z with staging := z.staging ++ [(r.far, bs)] }
          (s'.reqDone c .st k o r).pump q t pumpFuel
    | _ => s'

/-- Responses reach a core while its unit runs; while it parks or is parked, those in flight do (R131). -/
def State.mayLand (s : State) (c : Nat) (g : Engine) (pick : Nat) : Bool :=
  s.coreRuns c || (match s.unitOf c with
    | some u => (s.job u).fault.isNone && (!g.atPoint || pick < g.pend)
    | none => false)

/-- Request `pick` of the engine, request `r` of operation `k`, may complete before those ahead of it: none of them is to
the same bytes (R28), and a count's and a link's complete in order. -/
def Engine.pickable (g : Engine) (pick k : Nat) (r : MemReq) : Bool :=
  let ordered : Bool := match g.cur[k]? with
    | some o => (match o.q.op with
      | .ld (.ld ..) => false
      | .st (.st ..) => false
      | _ => true)
    | none => true
  let before := g.flat.take pick
  !((ordered && !before.isEmpty) || before.any (fun p => p.2.clash r))

/-- A signal of an engine is owed at resume: its completion point, its delivery, the combine stage's result or an
ST.SIGNAL on its way (R131, R181). -/
def Core.sigPend (x : Core) (e : EngId) : Bool :=
  !(x.eng e).sigs.isEmpty || !(x.eng e).delivs.isEmpty || (match e with
    | .ve => x.veRun.any fun g => g.held.isSome
    | .st => !x.stSignals.isEmpty
    | _ => false)

/-- What falls owed while the engine stands at its park point shows in SIG_PEND (Table 4-9). -/
def State.showSigPend (s : State) (c : Nat) (e : EngId) : State :=
  if ((s.core c).eng e).atPoint then s.setBit (R.coreParkEstate c (engNum e)) 2 ((s.core c).sigPend e) else s

/-- Request `r` of operation `o`, the engine's number `k`, completes. -/
def State.completeReq (s : State) (c : Nat) (e : EngId) (k : Nat) (r : MemReq) (o : CurOp) : State :=
  let g := (s.core c).eng e
  let i := (o.reqs.zipIdx.find? fun p => p.1 == r).map (·.2)
  let o := { o with reqs := o.reqs.eraseIdx (i.getD 0) }
  let s := if g.atPoint then
      (s.modEng c e fun x => { x with pend := x.pend - 1 }).setFld (R.coreParkPend c (engNum e)) 15 0 (g.pend - 1)
    else s
  match e with
  | .ld => (s.ldResponse c k o r).showSigPend c .ld
  | .st => (s.stResponse c k o r).showSigPend c .st
  | _ => s

/-- The first request of the ST engine that has an uncorrectable word, among the first `n` (R203). -/
def State.badStore (s : State) (c n : Nat) : Option Nat :=
  (((s.core c).st.flat.take n).findIdx? fun p => (s.badWord c (wordsOf p.2.near p.2.len)).isSome)

/-- The engine's first request completes. -/
def State.completeFirst (s : State) (c : Nat) (e : EngId) : State :=
  let g := (s.core c).eng e
  match g.flat with
  | (k, r) :: _ => match g.cur[k]? with | some o => s.completeReq c e k r o | none => s
  | [] => s

/-- Request `pick` of the engine completes.  An ST whose request, or one before it, has an uncorrectable word was not sent:
the requests before that one complete, and there the job ends (Table 7-6). -/
def State.respond1 (s : State) (c : Nat) (e : EngId) (pick k : Nat) (r : MemReq) (o : CurOp) : State :=
  match if e = .st then s.badStore c (pick + 1) else none with
  | some b => (List.range (b + 1)).foldl (fun (st : State) _ => st.completeFirst c e) s
  | none => s.completeReq c e k r o

/-- `STAGE_MEMORY_RESPONSE`: outstanding request `pick` of the core's LD or ST engine completes (R209). -/
def execStageMemoryResponse (core : Fin 128) (eng : EngId) (pick : Nat) (upsets : List Upset) (s : State) : Res :=
  .next (
    let s := if eng = .st then s.upset core upsets else s.memUpset upsets
    let g := (s.core core).eng eng
    match g.flat[pick]? with
    | none => s
    | some (k, r) =>
      if ¬ s.mayLand core g pick ∨ ¬ g.pickable pick k r then s
      else match g.cur[k]? with
        | none => s
        | some o => s.respond1 core eng pick k r o)

/-! ### Counts in the scratchpad (R195–R198, R201) -/

/-- The requests of a scratchpad count (R196). -/
def scntReqs (d : Desc) (f : Fmt) (seg : Nat) : List MemReq :=
  buildReqs (if d.rsize = 0 then 0 else d.rbase) d.ringEnd d.addr d.addr (countBytes f) (max 1 d.total) seg 0 d.total []

/-- The next request of the scratchpad count in progress: one bank read of each word, which is then compared (R201, R203). -/
def State.scntReq (s : State) (c : Nat) : State :=
  match (s.core c).ld.cur with
  | o :: _ => match o.q.op, o.reqs with
    | .ld (.scnt _ fmt kind sv _ t _), r :: rest =>
      let ws := wordsOf r.near r.len
      let z := s.noteWords c ws
      match s.badWord c ws with
      | some w => z.coreFault c 0x3004 (eccDetail w 2 2 o.q.iseq)
      | none => z.countResponse c 0 { o with reqs := rest } r fmt kind sv t (s.spadBytes c r.near r.len)
    | _, _ => s
  | [] => s

/-- Up to `n` requests of it; LD and ST stop after any request (Table 4-8). -/
def State.scntRun (s : State) (c n : Nat) : State :=
  (List.range n).foldl (fun (st : State) _ => if st.coreRuns c then st.scntReq c else st) s

/-- `SCNT` (R195–R198): a count at the head of the queue begins with its checks, and then, or where one is in progress, up
to `go.n` of its requests are performed. -/
def execScnt (core : Fin 128) (go : Advance) (s : State) : Res :=
  .next (
    let s := s.upset core go.upsets
    if ¬ s.coreRuns core then s
    else if (s.core core).ld.cur.isEmpty then
      match s.headReady core .ld with
      | some q => match q.op with
        | .ld (.scnt ds fmt _ _ rl t _) =>
          let s := s.takeHead core .ld
          let d := q.descs.get 0 ds
          match countChecks q ds (d.checkNear (countBytes (fmtOf fmt))) t with
          | some e => s.addrFault core 2 q.iseq e
          | none => (s.startOp core .ld { q, reqs := scntReqs d (fmtOf fmt) (segUnits d rl t) }).scntRun core go.n
        | _ => s
      | none => s
    else s.scntRun core go.n)

/-- `ECC_WRITE_BACK` (R201): a corrected word of the core's scratchpad is written back. -/
def execEccWriteBack (core : Fin 128) (addr : Nat) (s : State) : Res :=
  .next (
    let k := spadKey core (addr / 8 * 8)
    if s.spadOwed.contains k then
      let s := { s with spadOwed := s.spadOwed.erase k }
      if s.spadHealth core addr = 1 then s.setSpadHealth core addr 0 else s
    else s)

end Sys2Proof.Machine
end

