-- ==== Sys2Proof/Machine/Matrix.lean ====
section
/-! DEFINITION. The matrix engine: `MMA_OS`, `MMA_WS`, `MMA_WT`, `EWMUL`, `ACC_DRAIN`, `TILE_DRAIN` (R64–R102). -/

namespace Sys2Proof.Machine

/-! ### Layouts (R65, R67, R86) -/

/-- Products of a cell per cycle in OS mode (Table 3-1). -/
def osDepth (f : Fmt) : Nat := if f.bits = 4 then 16 else if f.bits = 16 then 4 else 8

/-- Bytes of a run of `n` elements as the arrays move it: six-bit elements in 8-byte lanes of eight (R67). -/
def rowBytes (f : Fmt) (n : Nat) : Nat := if f.bits = 6 then n else f.bits * n / 8

/-- Bytes of a lane of `n` elements. -/
def laneBytes (f : Fmt) (n : Nat) : Nat := if f.bits = 6 then 8 else f.bits * n / 8

/-- The patterns of `n` elements of a lane (R35, R67). -/
def lanePats (f : Fmt) (n : Nat) (bs : List Byte) : List Nat :=
  let v := leNat bs
  (List.range n).map fun j => v / 2 ^ (f.bits * j) % 2 ^ f.bits

/-- The values of a lane of `n` elements under scale byte `sc`. -/
def laneVals (f : Fmt) (sc n : Nat) (bs : List Byte) : List FVal := (lanePats f n bs).map (f.decodeScaled sc)

/-- The bytes that a run of element patterns is written as (R67, R76). -/
def rowBytesOf (f : Fmt) (ps : List Nat) : List Byte :=
  if f.bits = 6 then (chunks 8 ps (ps.length + 1)).flatMap fun u => natLE 8 (packBits 6 u)
  else natLE (rowBytes f ps.length) (packBits f.bits ps)

/-- Bytes [o, o + n) of a list. -/
def slice (bs : List Byte) (o n : Nat) : List Byte := (bs.drop o).take n
/-- Scale byte `i` of a sideband entry. -/
def scaleAt (bs : List Byte) (i : Nat) : Nat := (bs.getD i 0x7F).toNat

/-- Beats that carry `rows` rows of `n` elements (Table 3-6, R79). -/
def beatsOf (f : Fmt) (rows n : Nat) : Nat := (rows * rowBytes f n + 511) / 512

/-! ### Accumulators -/

/-- What an operation accumulates in: FP32, INT32 (R51), or an EXACT window (R53). -/
inductive AccMode where
  | fast | int | exact (ew : Int)
  deriving DecidableEq, Repr

def mxMode (o : MxOp) : AccMode :=
  if o.exact then .exact o.ew else if fmtOf o.fa = .int8 then .int else .fast

def accZero : AccMode → Acc
  | .fast => .f 0 | .int => .i 0 | .exact _ => .x {}

/-- Products of a list that a window of exponent `ew` truncates (R54). -/
def lostCount (ew : Int) (ps : List FVal) : Nat :=
  (ps.filter fun p => match p with
    | .fin _ m e => !(decide (0 ≤ e - ew)) && m % 2 ^ (ew - e).toNat != 0 && m / 2 ^ (ew - e).toNat < 2 ^ 127
    | _ => false).length

/-- One group enters an accumulator (R49, R51, R54). -/
def Acc.group (m : AccMode) (a : Acc) (ps : List FVal) : Acc × NumEv :=
  match m, a with
  | .exact ew, .x e => (.x (ps.foldl (ExactAcc.enter ew) e), { uflow := lostCount ew ps })
  | .int, .i v => let (r, sat) := fastIntStep v (ps.map FVal.smant); (.i r, { sat := if sat then 1 else 0 })
  | .fast, .f b => (.f (to32 (fastStep (of32 b) ps)), {})
  | _, a => (a, {})

/-- One token enters an accumulator of MMA.WS: the row sums, in row order (R89). -/
def Acc.column (m : AccMode) (a : Acc) (rows : List (List FVal)) : Acc × NumEv :=
  match m, a with
  | .fast, .f b =>
    let p := rows.foldl (fun p r => rn32 (p.add (rn32 (groupSum r)))) FVal.zero
    (.f (to32 (rn32 ((of32 b).add p))), {})
  | m, a => a.group m rows.flatten

/-- A held entry as the continuing operation takes it (R74 KEEP). -/
def Acc.keep (m : AccMode) : Acc → Acc × NumEv
  | .i v => if m = .fast then (.f (to32 (ofInt v 0)), {}) else (.i v, {})
  | .f b => if m = .int then
      let (p, e) := convertInt 32 0 .rne (of32 b)
      (.i (signed 32 p), NumEv.ofConv e)
    else if m = .fast then (.f b, {}) else (accZero m, {})
  | a => (a, {})

/-- The canonical table of 1,024 entries. -/
def cellTab (cs : List Acc) : Tab Acc := (cs.zipIdx.filter fun p => p.1 ≠ .f 0).map fun p => (p.2, p.1)
def AccSet.list (t : AccSet) : List Acc := (List.range 1024).map fun k => t.cells.get (.f 0) k

def Arr.set (a : Arr) (n : Nat) : AccSet := if n = 0 then a.set0 else a.set1
def Arr.putSet (a : Arr) (n : Nat) (t : AccSet) : Arr := if n = 0 then { a with set0 := t } else { a with set1 := t }

def State.arr (s : State) (c a : Nat) : Arr := (s.core c).arrs.get {} a
def State.modArr (s : State) (c a : Nat) (f : Arr → Arr) : State :=
  s.modCore c fun x => { x with arrs := x.arrs.modify {} a f }

/-- The cell that holds element (row, col) of a drained tile: (row, col), or (⌊col ÷ 8⌋, 8·row + col mod 8)
in transposed reading (R87, R88). -/
def cellOf (wt : Bool) (row col : Nat) : Nat := if wt then 64 * (col / 8) + 8 * row + col % 8 else 64 * row + col

/-! ### The run of an operation -/

/-- An operation as the engine runs it: the state, whether a fault has stopped it, and its progress. -/
structure MxRun where
  s : State
  stop : Bool := false
  g : MxProg

def MxRun.onArr (r : MxRun) (c a : Nat) (f : Arr → Arr) : MxRun := { r with s := r.s.modArr c a f }

/-- The arrays that AMASK selects. -/
def mxArrays (o : MxOp) : List Nat := (List.range 4).filter fun a => o.amask / 2 ^ a % 2 = 1

/-- The origin of tile `n` in the output tensor (R62). -/
def tileOrigin (o : MxOp) (n : Nat) : Nat × Nat :=
  let lin := pat 64 ((o.srBase : Int) + n * o.srTstep)
  if o.srStride = 0 then (lin, 0) else (lin / o.srStride, lin % o.srStride)

/-- The index of R46. -/
def mxIndex (o : MxOp) (n row col : Nat) : Int := (o.srBase : Int) + n * o.srTstep + (row * o.srStride + col : Nat)

/-- The fault that a cycle's numeric conditions report, each of a code, an array and the window exponent in force there: the
lowest code, then the lowest array (R61). -/
def worstOf (cands : List (Nat × Nat × Int)) : Option (Nat × Nat × Int) :=
  cands.foldl (fun b y => match b with
    | some x => if y.1 < x.1 ∨ (y.1 = x.1 ∧ y.2.1 < x.2.1) then some y else b
    | none => some y) none

/-- A numeric fault in tile `n` of an operation (R62). -/
def State.mxFault (s : State) (c : Nat) (o : MxOp) (n : Nat) (f : Nat × Nat × Int) : State :=
  let (row, col) := tileOrigin o n
  s.numFault c f.1 f.2.1 o.call row col f.2.2

/-- The numeric conditions of one cycle of tile `n`, if any, stop the engine. -/
def MxRun.numFault (r : MxRun) (c : Nat) (o : MxOp) (n : Nat) (cands : List (Nat × Nat × Int)) : MxRun :=
  match worstOf cands with
  | some f => if r.stop then r else { r with s := r.s.mxFault c o n f, stop := true }
  | none => r

/-- Cell operations on arrays: none of them is idle (R96). -/
def State.cellOps (s : State) (c : Nat) (as : List Nat) : State :=
  let now := match s.unitOf c with | some u => (s.job u).clock | none => 0
  as.foldl (fun (st : State) a => st.modArr c a fun x => { x with lastOp := now + 1 }) s

/-- Read bytes of a role's access unit; an uncorrectable word stops the engine with SPAD_ECC (R203). -/
def MxRun.read (r : MxRun) (c : Nat) (d : Option Nat) (i off len : Nat) : MxRun × List Byte :=
  match d with
  | none => (r, List.replicate len 0x7F)
  | some d =>
    if r.stop then (r, [])
    else
      let (s, bs, bad) := r.s.unitRead c (r.g.q.descs.get 0 d) i off len
      match bad with
      | some w => ({ r with s := s.coreFault c 0x3004 (eccDetail w (widePort w) 0 r.g.q.iseq), stop := true }, bs)
      | none => ({ r with s := s }, bs)

/-- Count a core event of the operation (Table 16-1). -/
def MxRun.ev (r : MxRun) (c : Nat) (o : MxOp) (e n fmt : Nat) : MxRun :=
  { r with s := r.s.coreEvent c e n (some fmt) (r.s.opTag c o.call) }

/-- Apply one group or token to every selected array: counts, and the trap of a counted saturation (R51, R59). -/
def MxRun.accumulate (r : MxRun) (c : Nat) (o : MxOp) (nan : Bool) (f : Nat → List Acc → List (Acc × NumEv)) : MxRun :=
  if r.stop then r
  else
    let r := { r with s := (r.s.cellOps c (mxArrays o)).numEvents c { nanIn := if nan then 1 else 0 } }
    let (r, cands) := (mxArrays o).foldl (fun (p : MxRun × List (Nat × Nat × Int)) a =>
      let out := f a (p.1.g.cells.get [] a)
      let ev := out.foldl (fun e x => e.add x.2) ({} : NumEv)
      let s := p.1.s.numEvents c ev
      let cs := match trapOf (s.numctl c) ev with | some code => p.2 ++ [(code, a, o.ew)] | none => p.2
      ({ p.1 with s := s, g := { p.1.g with cells := p.1.g.cells.set [] a (out.map (·.1)) } }, cs)) (r, [])
    r.numFault c o r.g.n cands

def anyNan (ls : List (List FVal)) : Bool := ls.any fun l => l.any FVal.isNan

/-- Rows that one array's part of a tile has, and elements to a row (R76, R87, R88). -/
def tileRows (o : MxOp) : Nat := if o.kind = .mmaOs then 16 else o.tok
def rowElems (o : MxOp) : Nat := if o.kind = .mmaWt then 128 else 64

/-- The format that INIT = LOAD reads. -/
def loadFmt : AccMode → Fmt
  | .exact _ => .exact | .int => .int32 | .fast => .fp32

/-- The accumulators that DL loads for array `a` of tile `n` (R74 LOAD). -/
def MxRun.loadSet (r : MxRun) (c : Nat) (o : MxOp) (n a : Nat) : MxRun × List Acc :=
  let m := mxMode o
  let lf := loadFmt m
  let w := lf.bits / 8
  (List.range (tileRows o)).foldl (fun (p : MxRun × List Acc) row =>
    let (r, bs) := p.1.read c o.dl (n * 4 * tileRows o + a * tileRows o + row) 0 (w * rowElems o)
    if r.stop then (r, p.2)
    else
      let val (col : Nat) : Acc × Bool :=
        let v := leNat (slice bs (w * col) w)
        match m with
        | .exact ew => let (e, x) := ExactAcc.ofRecord v; (.x x, e != ew)
        | .int => (.i (signed 32 v), false)
        | .fast => (.f v, false)
      let vs := (List.range (rowElems o)).map val
      let cells := vs.zipIdx.foldl (fun cs x => cs.set (cellOf (o.kind = .mmaWt) row x.2) x.1.1) p.2
      if vs.any (·.2) then (r.numFault c o n [(0x1003, a, o.ew)], cells) else (r, cells))
    (r, List.replicate 1024 (accZero m))

/-- Beats of the accumulator loads of one tile (Table 3-6, R80). -/
def loadBeats (o : MxOp) : Nat := (mxArrays o).length * beatsOf (loadFmt (mxMode o)) (tileRows o) (rowElems o)

/-- Tile `n` is loaded from DL, array by array, into the set that it will use (R74, R80). -/
def MxRun.loadTile (r : MxRun) (c : Nat) (o : MxOp) (n : Nat) : MxRun :=
  (mxArrays o).foldl (fun (r : MxRun) a =>
    if r.stop then r
    else
      let (r, cs) := r.loadSet c o n a
      { r with g := { r.g with next := r.g.next.set [] a cs } }) (r.ev c o 0x16 (loadBeats o) o.fb)

/-- How a tile begins on array `a` (R74): the set it uses, its accumulators, what converting them counts as, and the code
of a fault. -/
def MxRun.startArr (r : MxRun) (c : Nat) (o : MxOp) (a : Nat) : Nat × List Acc × NumEv × Option Nat :=
  let m := mxMode o
  let x := r.s.arr c a
  if o.init == .keep && r.g.n < r.g.kept.get 0 a then
    let k := x.holds.headD x.nextSet
    let held := x.set k
    if o.exact ∧ held.ew ≠ o.ew then (k, [], {}, some 0x1003)
    else
      let out := held.list.map (Acc.keep m)
      let ev := out.foldl (fun e y => e.add y.2) ({} : NumEv)
      (k, out.map (·.1), ev, trapOf (r.s.numctl c) ev)
  else (x.nextSet, if o.init = .load then r.g.next.get [] a else List.replicate 1024 (accZero m), {}, none)

/-- A tile begins on every selected array in one cycle (R74). -/
def MxRun.tileBegin (r : MxRun) (c : Nat) (o : MxOp) : MxRun :=
  let starts := (mxArrays o).map fun a => (a, r.startArr c o a)
  let s := starts.foldl (fun (st : State) (a, k, _, ev, _) =>
    (st.modArr c a fun y => { y with holds := y.holds.erase k, nextSet := 1 - k }).numEvents c ev) r.s
  let g : MxProg := { r.g with
    begun := true
    sets := starts.map fun (a, k, _) => (a, k)
    cells := starts.foldl (fun t (a, _, cs, _) => t.set [] a cs) []
    next := [] }
  MxRun.numFault { r with s, g } c o r.g.n (starts.filterMap fun (a, _, _, _, f) => f.map fun code => (code, a, o.ew))

/-! ### Output-stationary passes (R72, R73, R82–R85) -/

/-- Load the B buffer for the pass that starts at iteration `i0` of DB (R84): 832 bytes to a group: kept values,
metadata, scales. -/
def MxRun.loadB (r : MxRun) (c : Nat) (o : MxOp) (i0 : Nat) : MxRun :=
  let (r, t) := (List.range o.kp).foldl (fun (p : MxRun × List Byte) g =>
    let (r, kv) := p.1.read c o.db (i0 + g) 0 512
    let (r, md) := r.read c o.dmeta (i0 + g) 0 256
    let (r, sc) := if (fmtOf o.fb).isMx then r.read c o.dsb (i0 + g) 0 64 else (r, List.replicate 64 0x7F)
    (r, p.2 ++ kv ++ md ++ sc)) (r.ev c o 0x16 ((3 * o.kp + 1) / 2) o.fb, [])
  { r with s := r.s.modCore c fun x => { x with
             bbuf := (t.zipIdx.filter fun b => b.1 ≠ 0).map (fun b => (b.2, b.1.toNat)), bbufValid := true } }

/-- The DB start address of the pass in progress. -/
def MxProg.passStart (g : MxProg) (o : MxOp) : Nat :=
  (g.q.descs.get 0 (o.db.getD 0)).addr (g.n * (o.kp * o.np) + g.p * o.kp)

/-- A sparse pass whose DB start address differs from that of the pass before it waits for a load of the B buffer (R84). -/
def MxProg.wantsB (g : MxProg) (o : MxOp) : Bool :=
  o.kind == .mmaOs && o.sparse && g.lastDb != some (g.passStart o)

/-- Bytes [o, o + n) of the B buffer. -/
def Core.bbytes (x : Core) (o n : Nat) : List Byte := (List.range n).map fun i => BitVec.ofNat 8 (x.bbuf.get 0 (o + i))

/-- Products of one cell in a sparse group (R82): A values of the row, kept values and metadata of the column. -/
def sparseProducts (row kept : List FVal) (meta' : Nat) : List FVal :=
  (List.range 8).flatMap fun k =>
    let nib := meta' / 16 ^ k % 16
    [(kept.getD (2 * k) FVal.zero).mul (row.getD (4 * k + nib % 4) FVal.zero),
     (kept.getD (2 * k + 1) FVal.zero).mul (row.getD (4 * k + nib / 4) FVal.zero)]

/-- One group of a sparse pass. -/
def MxRun.sparseGroup (r : MxRun) (c : Nat) (o : MxOp) (g : Nat) : MxRun :=
  let i := r.g.n * (o.kp * o.np) + g
  let fa := fmtOf o.fa
  let fb := fmtOf o.fb
  let (r, sa) := if fa.isMx then r.read c o.dsa i 0 64 else (r, List.replicate 64 0x7F)
  let (r, as) := (mxArrays o).foldl (fun (p : MxRun × Tab (List Byte)) a =>
    let (r, bs) := p.1.read c (if a < 2 then o.da else o.da2) i (256 * (a % 2)) 256
    (r, p.2.put a bs)) (r, [])
  if r.stop then r
  else
    let x := r.s.core c
    let b0 := 832 * (g % o.kp)
    let cols := (List.range 64).map fun k => laneVals fb (scaleAt (x.bbytes (b0 + 768 + k) 1) 0) 16 (x.bbytes (b0 + 8 * k) 8)
    let metas := (List.range 64).map fun k => leNat (x.bbytes (b0 + 512 + 4 * k) 4)
    let rows (a : Nat) := (List.range 16).map fun k =>
      laneVals fa (scaleAt sa (16 * a + k)) 32 (slice (as.get [] a) (16 * k) 16)
    (r.ev c o 0x12 (16 * (mxArrays o).length) o.fa).accumulate c o (anyNan cols || (mxArrays o).any fun a => anyNan (rows a)) fun a cs =>
      let rs := rows a
      cs.zipIdx.map fun (y, k) =>
        y.group (mxMode o) (sparseProducts (rs.getD (k / 64) []) (cols.getD (k % 64) []) (metas.getD (k % 64) 0))

/-- One group of a dense pass. -/
def MxRun.denseGroup (r : MxRun) (c : Nat) (o : MxOp) (g : Nat) : MxRun :=
  let fa := fmtOf o.fa
  let fb := fmtOf o.fb
  let d := osDepth fa
  let G := o.kp * o.np
  let i := r.g.n * G + g
  let blk := r.g.n * ((G * d + 31) / 32) + g * d / 32
  let r := if fa.isMx ∧ g * d % 32 = 0 then
      let (r, sa) := r.read c o.dsa blk 0 64
      let (r, sb) := r.read c o.dsb blk 0 64
      { r with g := { r.g with sa, sb } }
    else r
  let (r, as) := (mxArrays o).foldl (fun (p : MxRun × Tab (List Byte)) a =>
    let (r, bs) := p.1.read c o.da i (128 * a) 128
    (r, p.2.put a bs)) (r, [])
  let (r, bb) := r.read c o.db i 0 512
  if r.stop then r
  else
    let cols := (List.range 64).map fun k => laneVals fb (scaleAt r.g.sb k) d (slice bb (8 * k) 8)
    let rows (a : Nat) := (List.range 16).map fun k => laneVals fa (scaleAt r.g.sa (16 * a + k)) d (slice (as.get [] a) (8 * k) 8)
    (r.ev c o 0x12 (d * (mxArrays o).length) o.fa).accumulate c o (anyNan cols || (mxArrays o).any fun a => anyNan (rows a)) fun a cs =>
      let rs := rows a
      cs.zipIdx.map fun (y, k) =>
        y.group (mxMode o) (List.zipWith FVal.mul (rs.getD (k / 64) []) (cols.getD (k % 64) []))

/-! ### Held-operand passes (R86–R91) -/

/-- Load held tile `ti` into the shadow registers of every selected array and copy it to the active ones
(R86, R91).  In an MX format its scales come as four 64-byte DSB entries, iterations 4·ti to 4·ti + 3, entry j with the scale
of block j of every column: the spec gives neither their number nor their layout (log entry 113). -/
def MxRun.loadHeld (r : MxRun) (c : Nat) (o : MxOp) (ti : Nat) : MxRun :=
  let fb := fmtOf o.fb
  let lb := laneBytes fb 8
  let H := 16 * 64 * lb / 512
  let (r, bs) := (List.range H).foldl (fun (p : MxRun × List Byte) h =>
    let (r, b) := p.1.read c o.db (ti * H + h) 0 512
    (r, p.2 ++ b)) (r.ev c o 0x16 H o.fb, [])
  let (r, scs) := if fb.isMx then
      (List.range 4).foldl (fun (p : MxRun × List (List Byte)) j =>
        let (r, b) := p.1.read c o.dsb (ti * 4 + j) 0 64
        (r, p.2 ++ [b])) (r, [])
    else (r, [])
  if r.stop then r
  else
    -- element 8r + l of column k: lane k of row r
    let elems := (List.range 64).flatMap fun k => (List.range 16).flatMap fun row =>
      (lanePats fb 8 (slice bs (row * 64 * lb + k * lb) lb)).zipIdx.map fun (v, l) => (128 * k + 8 * row + l, v)
    let scales := (List.range 64).flatMap fun k => scs.zipIdx.map fun (b, j) => (4 * k + j, scaleAt b k)
    let tile : HeldTile := { fb, elems := elems.filter (fun e => e.2 ≠ 0), scales := scales.filter (fun e => e.2 ≠ 0x7F),
                             loaded := true }
    { r with s := (mxArrays o).foldl (fun st a => st.modArr c a fun x => { x with shadow := tile, active := tile }) r.s }

/-- W[k][i] of a held tile. -/
def HeldTile.w (t : HeldTile) (k i : Nat) : FVal :=
  t.fb.decodeScaled (t.scales.get 0x7F (4 * k + i / 32)) (t.elems.get 0 (128 * k + i))

/-- A held tile's values, column by column. -/
def HeldTile.cols (t : HeldTile) : List (List FVal) := (List.range 64).map fun k => (List.range 128).map (t.w k)

/-- One token of MMA.WS (R87, R89): token `t` of pass `ti`, with the held tile of each array.  Log entry 113 gives the choices the
spec leaves: in an MX format one DSA entry per token whose byte 16·a + r is the scale of row r of array a, and eight elements of a
4-bit format in the first 4 bytes of a row's 8-byte lane. -/
def MxRun.wsToken (r : MxRun) (c : Nat) (o : MxOp) (ti t : Nat) (ws : Nat → List (List FVal)) : MxRun :=
  let fa := fmtOf o.fa
  let m := if fa.bits = 16 then 2 else 1
  let per := 8 / m
  let i := ti * o.tok + t
  let (r, sa) := if fa.isMx then r.read c o.dsa i 0 64 else (r, [])
  let (r, xs) := (mxArrays o).foldl (fun (p : MxRun × Tab (List (List Byte))) a =>
    let (r, bs) := (List.range m).foldl (fun (u : MxRun × List (List Byte)) b =>
      let (r, z) := u.1.read c o.da (i * m + b) (128 * a) 128
      (r, u.2 ++ [z])) (p.1, [])
    (r, p.2.put a bs)) (r, [])
  if r.stop then r
  else
    let rows (a : Nat) : List (List FVal) := (List.range 16).flatMap fun row =>
      (xs.get [] a).map fun b => laneVals fa (scaleAt sa (16 * a + row)) per (slice b (8 * row) 8)
    (r.ev c o 0x12 (8 * (mxArrays o).length) o.fa).accumulate c o ((mxArrays o).any fun a => anyNan (ws a) || anyNan (rows a)) fun a cs =>
      let rs := rows a
      let wa := ws a
      cs.zipIdx.map fun (y, k) =>
        if k / 64 = t then
          let w := wa.getD (k % 64) []
          y.column (mxMode o) (rs.zipIdx.map fun (l, j) => List.zipWith FVal.mul l ((w.drop (per * j)).take per))
        else (y, {})

/-- One token of MMA.WT (R88, R89).  In an MX format the two block scales of array a are bytes 16·a and 16·a + 1 of one DSA
entry per token, which the spec leaves open (log entry 113). -/
def MxRun.wtToken (r : MxRun) (c : Nat) (o : MxOp) (ti t : Nat) (ws : Nat → List (List FVal)) : MxRun :=
  let fa := fmtOf o.fa
  let i := ti * o.tok + t
  let sb := rowBytes fa 64
  let per := if fa.bits = 6 then 8 else 64
  let (r, sa) := if fa.isMx then r.read c o.dsa i 0 64 else (r, [])
  let (r, xs) := (mxArrays o).foldl (fun (p : MxRun × Tab (List Byte)) a =>
    let (r, bs) := p.1.read c o.da i (sb * a) sb
    (r, p.2.put a bs)) (r, [])
  if r.stop then r
  else
    let dy (a : Nat) : List FVal := (((List.range (64 / per)).flatMap fun u =>
      lanePats fa per (slice (xs.get [] a) (laneBytes fa per * u) (laneBytes fa per))).zipIdx).map fun (v, k) =>
        fa.decodeScaled (scaleAt sa (16 * a + k / 32)) v
    (r.ev c o 0x12 (8 * (mxArrays o).length) o.fa).accumulate c o ((mxArrays o).any fun a => anyNan (ws a) || anyNan [dy a]) fun a cs =>
      let ys := dy a
      let wa := ws a
      cs.zipIdx.map fun (y, k) =>
        if k % 64 / 8 = t then
          y.group (mxMode o) (List.zipWith (fun v w => FVal.mul v (w.getD (8 * (k / 64) + k % 8) FVal.zero)) ys wa)
        else (y, {})

/-! ### Drains (R76) -/

/-- One entry as the exact value that a conversion takes, or the fault of finalising it (R58). -/
def Acc.value (ew : Int) : Acc → FVal × Option Nat
  | .f b => (of32 b, none)
  | .i v => (ofInt v 0, none)
  | .x a => match a.finalise ew with | .ok v => (v, none) | .error code => (.zero, some code)

/-- Elements to a row of a set, and whether it accumulated in EXACT. -/
def AccSet.width (t : AccSet) : Nat := if t.wt then 128 else 64
def AccSet.isExact (t : AccSet) : Bool := match t.cells.get (.f 0) 0 with | .x _ => true | _ => false

/-- Row `row` of set `t` of array `a` as drained set `n` (R58, R76): its bytes, its scale bytes, what it counts as, and the
codes it raises. -/
def State.convertRow (s : State) (c : Nat) (o : MxOp) (n row a : Nat) (t : AccSet) : List Byte × List Byte × NumEv × List Nat :=
  let f := fmtOf o.fout
  let vals := (List.range t.width).map fun col => t.cells.get (.f 0) (cellOf t.wt row col)
  if f = .exact then
    (vals.flatMap fun v => natLE 32 (ExactAcc.record t.ew (match v with | .x e => e | _ => {})), [], {}, [])
  else
    let vs := vals.map (Acc.value t.ew)
    let run := vs.zipIdx.map fun (v, col) => (v.1, s.rounding c o.rnd o.call (mxIndex o n (t.rows * a + row) col))
    let (ps, scs, ev) := convertRun f o.ovf run
    (rowBytesOf f ps, scs.map (BitVec.ofNat 8), ev, vs.filterMap (·.2) ++ (trapOf (s.numctl c) ev).toList)

/-- A drained row: array, row, and the bytes for DC and DSC. -/
abbrev DrainRow := Nat × Nat × List Byte × List Byte

/-- The arrays convert row `row` in the same cycle, unless an earlier row has stopped the engine (R61, R76). -/
def State.drainRow (c : Nat) (o : MxOp) (n : Nat) (sets : List (Nat × AccSet)) (p : MxRun × List DrainRow) (row : Nat) :
    MxRun × List DrainRow :=
  if p.1.stop then p
  else
    let outs := (sets.filter fun x => row < x.2.rows).map fun (a, t) => (a, t.ew, p.1.s.convertRow c o n row a t)
    let s := outs.foldl (fun (st : State) x => st.numEvents c x.2.2.2.2.1) p.1.s
    let cands := outs.flatMap fun (a, ew, _, _, _, codes) => codes.map fun k => (k, a, ew)
    (MxRun.numFault { p.1 with s } c o n cands, p.2 ++ outs.map fun (a, _, bs, scs, _, _) => (a, row, bs, scs))

/-- A drain: every set is converted; with no fault each row is written through DC and the scales through DSC;
its signal is then owed (R60, R76, R116).  Sets of different row counts that ACC.DRAIN drains together each count the DC
iterations of set `n` by their own rows, which the spec leaves open (log entry 113). -/
def State.drain (s : State) (c : Nat) (j : DrainJob) : State :=
  match j.q.op with
  | .mx o =>
    let sets := j.sets.map fun (a, k) => (a, (s.arr c a).set k)
    let (r, rows) := (List.range ((sets.map fun x => x.2.rows).foldl max 0)).foldl (State.drainRow c o j.n sets)
      (({ s, g := { q := j.q } } : MxRun), [])
    if r.stop then r.s
    else
      let dc := j.q.descs.get 0 (o.dc.getD 0)
      let rowsOf (a : Nat) : Nat := ((sets.find? fun x => x.1 == a).map fun x => x.2.rows).getD 0
      let s := rows.foldl (fun (st : State) (a, row, bs, scs) =>
        let st := st.spadScatter c (unitPairs dc (j.n * 4 * rowsOf a + a * rowsOf a + row) 0 bs)
        match o.dsc with
        | some d => if scs = [] then st
            else st.spadScatter c (unitPairs (j.q.descs.get 0 d) j.n (32 * a + scs.length * row) scs)
        | none => st) r.s
      let f := fmtOf o.fout
      let tag := s.opTag c o.call
      let s := s.coreEvent c 0x15 (sets.map fun x => beatsOf f x.2.rows x.2.width).sum (some o.fout) tag
      let s := if f = .exact then s
        else s.coreEvent c 0x17 (sets.map fun x => if x.2.isExact then x.2.rows * x.2.width else 0).sum (some o.fout) tag
      let s := if j.signal then s.modEng c .mx fun g => g.owe o.sync else s
      if j.last then s.outputDone c j.q o.call o.dc (rowBytes f ((sets.map fun x => x.2.width).foldl max 64)) else s
  | _ => s

/-- The pending drains that `p` picks, in order. -/
def State.flushDrains (s : State) (c : Nat) (p : DrainJob → Bool) : State :=
  ((s.core c).drains.filter p).foldl (fun st j => if st.coreRuns c then st.drain c j else st)
    (s.modCore c fun x => { x with drains := x.drains.filter fun j => !p j })

/-! ### Operations -/

/-- Elements to a row that an operation drains: those of the held sets for ACC.DRAIN (Table 5-3). -/
def State.drainWidth (s : State) (c : Nat) (o : MxOp) : Nat :=
  if o.kind = .accDrain then
    if (mxArrays o).any fun a => (s.arr c a).holds.any fun k => ((s.arr c a).set k).wt then 128 else 64
  else rowElems o

/-- The roles of an operation that drains rows of `w` elements: descriptor, role code of Table 14-17, access unit
(Table 5-3). -/
def mxRoles (o : MxOp) (w : Nat) : List (Nat × Nat × Nat) :=
  let fa := fmtOf o.fa
  let fb := fmtOf o.fb
  let ew : Bool := o.kind == .ewmul
  let one (d : Option Nat) (r n : Nat) : List (Nat × Nat × Nat) := d.toList.map fun d => (d, r, n)
  one o.da 0 (if ew then rowBytes fa 64 else if o.kind = .mmaWt then 4 * rowBytes fa 64 else 512)
    ++ one o.da2 1 512 ++ one o.db 2 (if ew then rowBytes fb 64 else 512) ++ one o.dmeta 3 256
    ++ one o.dsa 4 (if ew then 2 else 64) ++ one o.dsb 5 (if ew then 2 else 64)
    ++ one o.dc 6 (rowBytes (fmtOf o.fout) w)
    ++ one o.dl 7 (rowBytes (loadFmt (mxMode o)) w) ++ one o.dsc 8 (if ew then 2 else 128)

/-- A parity error of array state (R102), as the tile it affects and the logical column, 64·array + column, is
what Table 14-6 looks at. -/
def State.noteParity (s : State) (c : Nat) (parity : Option (Nat × Nat)) : State :=
  match parity with
  | some (_, k) => s.observe 3 (256 * c + k % 256)
  | none => s

/-- The engine goes on only while no fault has ended the job. -/
def MxRun.settle (r : MxRun) (c : Nat) (s : State) : MxRun := { r with s, stop := r.stop || !s.coreRuns c }

/-- While tile n accumulates, the drain of tile n − 1 is placed and then, under INIT = LOAD, tile n + 1 is loaded (R74, R80). -/
def MxRun.overlap (r : MxRun) (c : Nat) (o : MxOp) : MxRun :=
  if o.init = .load ∧ r.g.n + 1 < o.nt ∧ r.g.next = [] then
    let r := r.settle c (r.s.flushDrains c fun _ => true)
    if r.stop then r else r.loadTile c o (r.g.n + 1)
  else r

/-- The pass in progress: the groups of an OS pass, or the held tile and tokens of a block's pass (R73, R90). -/
def MxRun.pass (r : MxRun) (c : Nat) (o : MxOp) : MxRun :=
  match o.kind with
  | .mmaOs => (List.range o.kp).foldl (fun (r : MxRun) g =>
      let g := r.g.p * o.kp + g
      if r.stop then r else if o.sparse then r.sparseGroup c o g else r.denseGroup c o g) r
  | _ =>
    let ti := r.g.n * o.np + r.g.p
    let r := if o.wHold then r else r.loadHeld c o ti
    let ws : Nat → List (List FVal) := fun a => (r.s.arr c a).active.cols
    (List.range o.tok).foldl (fun (r : MxRun) t =>
      if r.stop then r
      else if o.kind = MxKind.mmaWs then r.wsToken c o ti t ws else r.wtToken c o ti t ws) r

/-- The drain of the tile in progress. -/
def MxProg.drainJob (g : MxProg) (o : MxOp) : DrainJob :=
  { q := g.q, sets := g.sets, n := g.n, signal := g.n + 1 == o.nt || o.sync.tile, last := g.n + 1 == o.nt }

/-- A tile ends: its sets are held, or await their drain (R74, R99). -/
def MxRun.tileEnd (r : MxRun) (c : Nat) (o : MxOp) (parity : Option (Nat × Nat)) : MxRun :=
  if r.stop then r
  else if parity.map (·.1) = some r.g.n then
    { r with s := (r.s.noteParity c parity).coreFault c 0x3005
               (memDetail 0xFF 0xFFFF 0xFFFF 0xFF 0xFF 0xFFFF 0xFF [(1, 0), (4, r.g.q.iseq)]), stop := true }
  else
    let g := r.g
    let s := g.sets.foldl (fun (st : State) (a, k) => st.modArr c a fun x =>
      let x := x.putSet k { ew := o.ew, rows := tileRows o, wt := o.kind = .mmaWt, cells := cellTab (g.cells.get [] a) }
      if o.hold then { x with holds := x.holds ++ [k] } else x) r.s
    let j := g.drainJob o
    let s := if o.hold then (if j.signal then s.modEng c .mx fun e => e.owe o.sync else s)
      else s.modCore c fun x => { x with drains := x.drains ++ [j] }
    { r with s, g := { g with n := g.n + 1, p := 0, begun := false, sets := [], cells := [] } }

/-- One stretch of an MMA, to the next boundary of R99: a load of the B buffer, or a pass.  A tile begins once the set it
uses has been drained. -/
def MxRun.stretch (r : MxRun) (c : Nat) (o : MxOp) (parity : Option (Nat × Nat)) : MxRun :=
  let r := if r.g.begun then (if r.g.p = 0 then r else r.overlap c o)
    else
      let r := r.settle c (r.s.flushDrains c fun j => j.n + 1 ≠ r.g.n)
      if r.stop then r else r.tileBegin c o
  if r.stop then r
  else if r.g.wantsB o then
    let r := r.loadB c o (r.g.n * (o.kp * o.np) + r.g.p * o.kp)
    { r with g := { r.g with lastDb := some (r.g.passStart o) } }
  else
    let r := r.pass c o
    let r := { r with g := { r.g with p := r.g.p + 1 } }
    if r.stop ∨ r.g.p < o.np then r else (r.overlap c o).tileEnd c o parity

/-- `EWMUL` beat `e` (R97). -/
def MxRun.ewBeat (r : MxRun) (c : Nat) (o : MxOp) (e : Nat) : MxRun :=
  if r.stop then r
  else
    let a := (mxArrays o).headD 0
    let vals (r : MxRun) (f : Fmt) (d ds : Option Nat) : MxRun × List FVal :=
      let per := osDepth f
      let lb := laneBytes f per
      let (r, bs) := r.read c d e 0 (rowBytes f 64)
      let (r, sc) := if f.isMx then r.read c ds e 0 2 else (r, [])
      (r, (((List.range (64 / per)).flatMap fun u => lanePats f per (slice bs (lb * u) lb)).zipIdx).map fun (v, k) =>
        f.decodeScaled (scaleAt sc (k / 32)) v)
    let (r, xs) := vals r (fmtOf o.fa) o.da o.dsa
    let (r, ys) := vals r (fmtOf o.fb) o.db o.dsb
    if r.stop then r
    else
      let f := fmtOf o.fout
      let run := (List.zipWith FVal.mul xs ys).zipIdx.map fun (v, col) => (v, r.s.rounding c o.rnd o.call (mxIndex o 0 e col))
      let (ps, scs, ev) := convertRun f o.ovf run
      let s := (r.s.cellOps c [a]).numEvents c ({ nanIn := if anyNan [xs, ys] then 1 else 0 } : NumEv)
      let s := s.numEvents c ev
      match trapOf (s.numctl c) ev with
      | some code => MxRun.numFault { r with s := s } c o 0 [(code, a, 0)]
      | none =>
        let s := s.spadScatter c (unitPairs (r.g.q.descs.get 0 (o.dc.getD 0)) e 0 (rowBytesOf f ps))
        let s := s.coreEvent c 0x15 1 (some o.fout) (s.opTag c o.call)
        let s := s.coreEvent c 0x12 ((e + 1) / 16 - e / 16) (some o.fa) (s.opTag c o.call)
        { r with s := match o.dsc with
            | some d => if scs = [] then s
                else s.spadScatter c (unitPairs (r.g.q.descs.get 0 d) e 0 (scs.map (BitVec.ofNat 8)))
            | none => s }

/-- The next 128 beats of an EWMUL (R99), or those left. -/
def MxRun.ewStretch (r : MxRun) (c : Nat) (o : MxOp) : MxRun :=
  let r' := (List.range (min 128 (o.n / 64 - r.g.p))).foldl (fun (x : MxRun) e => x.ewBeat c o (r.g.p + e)) r
  { r' with g := { r'.g with p := min (o.n / 64) (r.g.p + 128) } }

/-- `ACC_DRAIN`: every set held on the selected arrays, in hold order (R75, R76). -/
def State.accDrain (s : State) (c : Nat) (q : QOp) (o : MxOp) (parity : Option (Nat × Nat)) : State :=
  let groups := ((List.range 2).map fun n => (mxArrays o).filterMap fun a =>
    ((s.arr c a).holds[n]?).map fun k => (a, k)).filter (· ≠ [])
  let s := groups.zipIdx.foldl (fun st (sets, n) =>
    if ¬ st.coreRuns c then st
    else if parity.map (·.1) = some n then
      (st.noteParity c parity).coreFault c 0x3005 (memDetail 0xFF 0xFFFF 0xFFFF 0xFF 0xFF 0xFFFF 0xFF [(1, 0), (4, q.iseq)])
    else st.drain c { q, sets, n, signal := o.sync.tile || n + 1 == groups.length, last := n + 1 == groups.length }) s
  if s.coreRuns c then (mxArrays o).foldl (fun st a => st.modArr c a fun x => { x with holds := [] }) s else s

/-- Whether the operation has run to its end. -/
def MxRun.finished (r : MxRun) (o : MxOp) : Bool := if o.kind = .ewmul then o.n / 64 ≤ r.g.p else o.nt ≤ r.g.n

/-- `n` stretches of an operation (for EWMUL each 128 beats), until it ends or a fault stops it. -/
def MxRun.stretches (c : Nat) (o : MxOp) (parity : Option (Nat × Nat)) : Nat → MxRun → MxRun
  | 0, r => r
  | n + 1, r =>
    if r.stop || r.finished o then r
    else MxRun.stretches c o parity n (if o.kind = .ewmul then r.ewStretch c o else r.stretch c o parity)

/-- The operation ends: an EWMUL's signal is owed, the B buffer is invalid (R84), and an MMA with DRAIN = OUT ends every
hold on its arrays (R75). -/
def State.mxEnd (s : State) (c : Nat) (o : MxOp) : State :=
  let s := s.modCore c fun x => { x with mxRun := none, bbuf := [], bbufValid := false }
  if o.kind = .ewmul then s.modEng c .mx fun g => g.owe o.sync
  else if o.hold then s
  else (mxArrays o).foldl (fun st a => st.modArr c a fun x => { x with holds := [] }) s

/-- The engine runs an operation on from where it stands, for `n` stretches; a park may follow at any boundary (R99). -/
def MxRun.go (r : MxRun) (c : Nat) (o : MxOp) (n : Nat) (parity : Option (Nat × Nat)) : State :=
  let r := MxRun.stretches c o parity n r
  if r.finished o && !r.stop then r.s.mxEnd c o else r.s.modCore c fun x => { x with mxRun := some r.g }

/-- An MMA or EWMUL begins: the B buffer is invalid (R84), and the first tile is loaded under INIT = LOAD (R80). -/
def State.mxStart (s : State) (c : Nat) (q : QOp) (o : MxOp) : MxRun :=
  let s := s.modCore c fun x => { x with bbuf := [], bbufValid := false }
  let r : MxRun := { s, g := { q, kept := (mxArrays o).foldl (fun t a => t.set 0 a (s.arr c a).holds.length) [] } }
  if o.kind ≠ .ewmul ∧ o.init = .load then r.loadTile c o 0 else r

/-- The operation at the head of the MX queue, its wait met, begins (R111): every earlier drain is placed (R81), and the
operation's checks are made (R152).  `f` is what follows. -/
def State.mxBegin (s : State) (c : Nat) (q : QOp) (o : MxOp) (f : State → State) : State :=
  let s := s.flushDrains c fun _ => true
  if ¬ s.coreRuns c then s
  else
    let roles := mxRoles o (s.drainWidth c o)
    let s := s.takeHead c .mx
    match firstFault (roles.map fun (d, r, n) => (d, r, (q.descs.get 0 d).checkNear n)) with
    | some (d, r, f) => s.coreFault c f.code (addrDetail 0 q.iseq d r f.value)
    | none => f s

/-- An operation of kind `k`, in progress or else at the head of the MX queue, runs for `n` stretches (R69, R99). -/
def State.mxOp (s : State) (c : Nat) (k : MxKind) (n : Nat) (parity : Option (Nat × Nat)) (us : List Upset) : State :=
  let s := s.upset c us
  if ¬ s.coreRuns c then s
  else match (s.core c).mxRun with
  | some g => match g.q.op with
    | .mx o => if o.kind = k then MxRun.go { s, g } c o n parity else s
    | _ => s
  | none => match s.headReady c .mx with
    | some q => match q.op with
      | .mx o =>
        if o.kind ≠ k then s
        else s.mxBegin c q o fun s => if k = .accDrain then s.accDrain c q o parity else (s.mxStart c q o).go c o n parity
      | _ => s
    | none => s

/-- `MMA_OS`: `go` says how many stretches (R99) the engine runs before another command. -/
def execMmaOs (core : Fin 128) (parity : Option (Nat × Nat)) (go : Advance) (s : State) : Res :=
  .next (s.mxOp core .mmaOs go.n parity go.upsets)
/-- `MMA_WS`. -/
def execMmaWs (core : Fin 128) (parity : Option (Nat × Nat)) (go : Advance) (s : State) : Res :=
  .next (s.mxOp core .mmaWs go.n parity go.upsets)
/-- `MMA_WT`. -/
def execMmaWt (core : Fin 128) (parity : Option (Nat × Nat)) (go : Advance) (s : State) : Res :=
  .next (s.mxOp core .mmaWt go.n parity go.upsets)
/-- `EWMUL`. -/
def execEwmul (core : Fin 128) (go : Advance) (s : State) : Res :=
  .next (s.mxOp core .ewmul go.n none go.upsets)
/-- `ACC_DRAIN`. -/
def execAccDrain (core : Fin 128) (parity : Option (Nat × Nat)) (upsets : List Upset) (s : State) : Res :=
  .next (s.mxOp core .accDrain 0 parity upsets)
/-- `TILE_DRAIN`: the oldest pending drain of the core. -/
def execTileDrain (core : Fin 128) (s : State) : Res :=
  .next (if s.coreRuns core then
    match (s.core core).drains with
    | j :: rest => (s.modCore core fun x => { x with drains := rest }).drain core j
    | [] => s
  else s)

end Sys2Proof.Machine
end

