-- ==== Sys2Proof/Machine/Vector.lean ====
section
/-! DEFINITION. The vector engine: `VMAP` and `VRED` (R170–R184). -/

namespace Sys2Proof.Machine

/-- Elements of one iteration: a packing unit (R145, R171). -/
def perUnit (f : Fmt) : Nat := if f.bits = 4 then 2 else if f.bits = 6 then 4 else 1
/-- Bytes of one packing unit (R196). -/
def unitBytes (f : Fmt) : Nat := f.bits * perUnit f / 8



/-- A role of a VE operation: descriptor number, role code (Table 14-17), access-unit bytes. -/
def veRoles (o : VeOp) : List (Nat × Nat × Nat) :=
  let inp (d f : Option Nat) (r : Nat) : List (Nat × Nat × Nat) :=
    match d with | some d => [(d, r, unitBytes (fmtOf (f.getD 0)))] | none => []
  inp o.dx o.fx 11 ++ inp o.dy o.fy 12 ++ inp o.dw o.fw 13 ++ inp o.dg o.fg 14 ++ inp o.dh o.fh 15
    ++ (opt o.dz).map (fun d => (d, 16, unitBytes (fmtOf o.fout))) ++ (opt o.dzs).map (fun d => (d, 17, 1))
    ++ (opt o.dr).map (fun d => (d, 18, unitBytes (fmtOf o.fout)))

/-- The bytes of one element of an input stream, decoded to FP32 (Table 6-3). -/
def veDecode (f : Option Nat) (bs : List Byte) : FVal :=
  let fm := fmtOf (f.getD 0)
  let v := fm.decode (leNat bs)
  if fm = .int32 then rn32 v else v

/-- The value of a source (R175). -/
def srcVal (o : VeOp) (x y w g h sa sb : FVal) (ts : Tab FVal) : Src → FVal
  | .x => x | .y => y | .w => w | .g => g | .h => h | .sa => sa | .sb => sb
  | .k n => laneRound o.b16 (of32 (o.k[n]?.getD 0))
  | .t n => ts.get .zero n

/-- Run the lane program on one element: the temporaries at its end. -/
def lanes (o : VeOp) (x y w g h sa sb : FVal) : Tab FVal :=
  o.steps.foldl (fun ts st =>
    let v := srcVal o x y w g h sa sb ts
    ts.set .zero st.dst (laneStep o.b16 st.op (v st.a) (v st.b) (v st.c))) []

/-- An operation as the engine runs it: the state, whether a fault has stopped it, its progress, the cycles in which the
latest strip was read and the next one is, and the writes on their way, each with the cycle from which it is readable. -/
structure VeRun where
  s : State
  stop : Bool := false
  g : VeProg
  read : Nat := 0
  next : Nat := 0
  writes : List (Nat × List (Nat × Byte)) := []

/-- The bytes that element patterns are written as through a walk, from element `i` (R35, R145). -/
def veBytes (d : Desc) (f : Fmt) (i : Nat) (ps : List Nat) : List (Nat × Byte) :=
  let per := perUnit f
  ((chunks per ps (ps.length + 1)).zipIdx).flatMap fun (u, k) =>
    unitPairs d (i / per + k) 0 (natLE (unitBytes f) (packBits f.bits u))

/-- The bits a scalar delivery writes (R182). -/
def redScalar : RedKind → RedV → Word
  | .argmax, .v _ i => BitVec.ofNat 64 i
  | _, .v x _ => BitVec.ofNat 64 (to32 x)
  | _, .n k => BitVec.ofNat 64 k

/-- The value a reduction writes through DR: converted to FOUT, or INT32 saturating (R182). -/
def redDr (f : Fmt) (ov : Ovf) (rb : RndBy) (k : RedKind) (r : RedV) : Nat × NumEv :=
  match k, r with
  | .argmax, .v _ i => (min i 0x7FFFFFFF, {})
  | _, .n n => (min n 0x7FFFFFFF, {})
  | _, .v x _ => if f = .e8m0 then toE8m0 x else let (p, e) := convert f rb ov x; (p, NumEv.ofConv e)

/-! ### The shape of an operation (R170, R172, R173) -/

/-- Elements of the whole operation, of a segment, and of a tile; elements to a strip. -/
structure VeShape where
  n : Nat
  seg : Nat
  tile : Nat
  strip : Nat

def veDesc (q : QOp) (d : Option Nat) : Option Desc := d.map fun k => q.descs.get 0 k

def veShape (q : QOp) (o : VeOp) : VeShape :=
  let prim := q.descs.get 0 ((if o.vred then o.dx else o.dz).getD 0)
  let per := if o.vred then 1 else perUnit (fmtOf o.fout)
  let n := prim.total * per
  { n, seg := prim.prod o.rl * per, tile := if o.sync.tile then prim.prod (o.sync.tl.getD 6) * per else n,
    strip := if o.b16 then 256 else 128 }

/-- Elements of the strip that begins at element `i`: it crosses neither a segment nor a tile boundary. -/
def VeShape.len (z : VeShape) (i : Nat) : Nat := min (min z.strip (z.n - i)) (min (z.seg - i % z.seg) (z.tile - i % z.tile))

/-- The first element of the strip that holds element `i`. -/
def VeShape.start (z : VeShape) (i : Nat) : Nat := i - (i - max (i - i % z.seg) (i - i % z.tile)) % z.strip

/-- A strip that ends at element `j` is the last of its segment. -/
def VeShape.endsSeg (z : VeShape) (j : Nat) : Bool := j % z.seg == 0 || j == z.n

/-! ### The beats of a strip (R179) -/

/-- Beats of a list of addresses on each wide port: one for each aligned 512-byte block. -/
def beatsOn (as : List Nat) : Nat × Nat :=
  let bs := (as.map fun a => a / 512 * 512).eraseDups
  ((bs.filter fun a => widePort a == 0).length, (bs.filter fun a => widePort a == 1).length)

/-- Addresses of the elements [i, i + n) of an input stream. -/
def veAddrs (d : Option Desc) (f : Option Nat) (i n : Nat) : List Nat :=
  match d with
  | none => []
  | some d => (List.range n).flatMap fun k => d.unitAddrs (i + k) 0 (unitBytes (fmtOf (f.getD 0)))

/-- C_k of a strip of `n` elements at `i` (R179): the streams, G and H with the first strip of a segment, DR with its
last, and what is written, `ws`. -/
def veCost (q : QOp) (o : VeOp) (z : VeShape) (i n : Nat) (ws : List (List (Nat × Byte))) : Nat :=
  let sg := i / z.seg
  let ins := [veAddrs (veDesc q o.dx) o.fx i n, veAddrs (veDesc q o.dy) o.fy i n, veAddrs (veDesc q o.dw) o.fw i n]
  let heads := if i % z.seg = 0 then [veAddrs (veDesc q o.dg) o.fg sg 1, veAddrs (veDesc q o.dh) o.fh sg 1] else []
  let tails := if z.endsSeg (i + n) then [veAddrs (veDesc q o.dr) (some o.fout) sg 1] else []
  let bs := (ins ++ heads ++ tails ++ ws.map fun w => w.map (·.1)).map beatsOn
  max (max 1 (o.steps.map fun x => stepCost x.op).sum) (max (bs.map (·.1)).sum (bs.map (·.2)).sum)

/-- ΣL, the sum of the step latencies. -/
def veLat (o : VeOp) : Nat := (o.steps.map fun x => stepLat x.op).sum

/-! ### A strip -/

/-- Writes that have become readable reach the scratchpad, in the order of their cycles. -/
def VeRun.land (r : VeRun) (c t : Nat) : VeRun :=
  { r with
    s := (((r.writes.filter fun w => w.1 ≤ t).mergeSort fun a b => a.1 ≤ b.1)).foldl (fun (st : State) w => st.spadScatter c w.2) r.s
    writes := r.writes.filter fun w => t < w.1 }

/-- Read elements [i, i + n) of a stream by one access; an uncorrectable word stops the engine with SPAD_ECC (R203). -/
def VeRun.stream (r : VeRun) (c : Nat) (d f : Option Nat) (i n : Nat) : VeRun × List FVal :=
  match veDesc r.g.q d with
  | none => (r, List.replicate n .zero)
  | some e =>
    if r.stop then (r, [])
    else
      let u := unitBytes (fmtOf (f.getD 0))
      let (s, bs, bad) := r.s.gather c (veAddrs (some e) f i n)
      match bad with
      | some w => ({ r with s := s.coreFault c 0x3004 (eccDetail w (widePort w) 1 r.g.q.iseq), stop := true }, [])
      | none => ({ r with s := s }, (chunks u bs (bs.length + 1)).map (veDecode f))

/-- A numeric fault in the strip that begins at element `i` (R62, R178). -/
def VeRun.trap (r : VeRun) (c : Nat) (o : VeOp) (i : Nat) (s : State) (code : Nat) : VeRun :=
  { r with s := s.numFault c code 4 o.call (i / o.srCols) (i % o.srCols) 0, stop := true }

/-- The index of element `k` in R46. -/
def veIndex (o : VeOp) (k : Nat) : Int := (o.srBase : Int) + ((k / o.srCols : Nat) : Int) * o.srStride + ((k % o.srCols : Nat) : Int)

/-- How many of the values that wait for conversion are written once the strip that ends at `j` has been read: all of
them, but of an MX format only whole blocks of the segment (R48, R173). -/
def VeShape.ready (z : VeShape) (mx : Bool) (written j : Nat) : Nat :=
  if mx && !z.endsSeg j then (j % z.seg / 32 * 32) - written % z.seg else j - written

/-- The values that wait are converted as far as they can be: the writes, their count and the fault (R60, R178). -/
def VeRun.convert (r : VeRun) (c : Nat) (o : VeOp) (z : VeShape) (i j : Nat) (vs : List (FVal × RndBy)) :
    VeRun × List (List (Nat × Byte)) :=
  if r.stop || o.vred then (r, [])
  else
    let f := fmtOf o.fout
    let k := z.ready f.isMx r.g.written j
    let (ps, scs, ev) := convertRun f o.ovf (vs.take k)
    let s := r.s.numEvents c ev
    match trapOf (s.numctl c) ev with
    | some code => (r.trap c o i s code, [])
    | none =>
      let w := r.g.written
      let out := match veDesc r.g.q o.dz with | some d => [veBytes d f w ps] | none => []
      let sc := match veDesc r.g.q o.dzs with
        | some d => [veBytes d .e8m0 (w / z.seg * ((z.seg + 31) / 32) + w % z.seg / 32) scs]
        | none => []
      ({ r with s, g := { r.g with written := w + k, blk := vs.drop k } }, out ++ sc)

/-- The scalar delivery that a reduction owes, with the END signal of its operation (R108, Table 4-4). -/
def veDelivery (o : VeOp) (rv : RedV) (d f : Nat) : Deliv :=
  { reg := d, val := redScalar o.red rv, flag := f
    own := if o.sync.tile then none else o.sync.sflag.map fun g => ⟨g, o.sync.scount⟩ }

/-- A segment has been reduced: its result waits in the combine stage for DR, or is owed to a scalar register (R181). -/
def VeRun.reduced (r : VeRun) (c : Nat) (o : VeOp) (sg : Nat) : VeRun :=
  let rv := reduceSeg o.red r.g.seg
  let g := { r.g with seg := [] }
  match o.rtgt with
  | .scalar d f => { r with g, s := r.s.modEng c .ve fun e => { e with delivs := e.delivs ++ [veDelivery o rv d f] } }
  | _ => { r with g := { g with held := some (sg, rv) } }

/-- The signals of the tiles that elements `a` to `b` complete (R116). -/
def Engine.veTiles (x : Engine) (y : SyncF) (tile a b : Nat) : Engine :=
  if y.tile then (List.range (b / tile - a / tile)).foldl (fun e _ => e.owe y) x else x

/-- One strip is read, computed and converted (R170, R174, R178, R180). -/
def VeRun.strip (r : VeRun) (c : Nat) (o : VeOp) (z : VeShape) : VeRun :=
  let i := r.g.i
  let n := z.len i
  let sg := i / z.seg
  let r := { r with read := r.next }.land c r.next
  let sreg (k : Option Nat) : FVal := laneRound o.b16 (of32 ((r.g.q.regs.get 0 (k.getD 0)).toNat % 2 ^ 32))
  let (r, xs) := r.stream c o.dx o.fx i n
  let (r, ys) := r.stream c o.dy o.fy i n
  let (r, ws) := r.stream c o.dw o.fw i n
  let (r, gs) := if i % z.seg = 0 then r.stream c o.dg o.fg sg 1 else (r, [r.g.g])
  let (r, hs) := if i % z.seg = 0 then r.stream c o.dh o.fh sg 1 else (r, [r.g.h])
  if r.stop then r
  else
    let g := gs.headD .zero
    let h := hs.headD .zero
    let vals := (List.range n).map fun k =>
      let x := xs.getD k .zero
      let y := ys.getD k .zero
      let w := ws.getD k .zero
      let v := srcVal o x y w g h (sreg o.sa) (sreg o.sb) (lanes o x y w g h (sreg o.sa) (sreg o.sb))
      ((o.outt.map v).getD .zero, (o.rsrc.map v).getD .zero)
    let nan := (xs ++ ys ++ ws ++ [g, h]).any FVal.isNan
    let r := { r with s := r.s.numEvents c { nanIn := if nan then 1 else 0 } }
    let outs := vals.zipIdx.map fun ((v, _), k) => (v, r.s.rounding c o.rnd o.call (veIndex o (i + k)))
    let w0 := r.g.written
    let (r, wr) := r.convert c o z i (i + n) (r.g.blk ++ outs)
    if r.stop then r
    else
      let fns := (o.steps.filter fun x => 3 < stepLat x.op).length
      let tag := r.s.opTag c o.call
      let s := r.s.coreEvent c 0x21 1 (some o.fout) tag
      let s := s.coreEvent c 0x22 (fns * (i + n) / 128 - fns * i / 128) (some o.fout) tag
      let (a, b) := if o.vred then (i, i + n) else (w0, r.g.written)
      let s := s.modEng c .ve fun e => e.veTiles o.sync z.tile a b
      let r : VeRun := { r with
        s, next := r.read + veCost r.g.q o z i n wr
        writes := r.writes ++ wr.map fun w => (r.read + veLat o + 7, w)
        g := { r.g with i := i + n, g, h, seg := if o.red = .none then [] else r.g.seg ++ vals.map (·.2) } }
      if o.red ≠ .none ∧ z.endsSeg (i + n) then r.reduced c o sg else r

/-- The result held in the combine stage is converted and written through DR (R180–R182).  In R46 its element is the
segment's number, which the spec leaves open (log entry 114). -/
def VeRun.combine (r : VeRun) (c : Nat) (o : VeOp) (z : VeShape) (sg : Nat) (rv : RedV) : VeRun :=
  let r := { r with g := { r.g with held := none } }
  match veDesc r.g.q o.dr with
  | none => r
  | some d =>
    let f := fmtOf o.fout
    let (p, ev) := redDr f o.ovf (r.s.rounding c o.rnd o.call (veIndex o sg)) o.red rv
    let s := r.s.numEvents c ev
    match trapOf (s.numctl c) ev with
    | some code => r.trap c o (z.start (r.g.i - 1)) s code
    | none => { r with s, writes := r.writes ++ [(r.read + veLat o + 36, unitPairs d sg 0 (natLE (unitBytes f) p))] }

/-- Nothing is left of the operation. -/
def VeRun.finished (r : VeRun) (z : VeShape) : Bool := z.n ≤ r.g.i && r.g.held.isNone

/-- `n` steps of the engine, each a strip or the combining of one segment, until the operation ends or a fault stops it. -/
def VeRun.strips (c : Nat) (o : VeOp) (z : VeShape) : Nat → VeRun → VeRun
  | 0, r => r
  | n + 1, r =>
    if r.stop || r.finished z then r
    else VeRun.strips c o z n (match r.g.held with | some (sg, rv) => r.combine c o z sg rv | none => r.strip c o z)

/-- The engine stands at a strip's end: what it has read is written (R181).  An operation that has ended owes its END
signal, unless its scalar delivery carries it, and is matched against the armed dump. -/
def VeRun.rest (r : VeRun) (c : Nat) (o : VeOp) (z : VeShape) : State :=
  let stamps := r.writes.map (·.1)
  let r := r.land c (stamps.foldl max 0)
  if r.stop || !r.finished z then r.s.modCore c fun x => { x with veRun := some r.g }
  else
    let s := r.s.modCore c fun x => { x with veRun := none }
    let scalar : Bool := match o.rtgt with | .scalar _ _ => o.red != .none | _ => false
    let s := if o.sync.tile || scalar then s else s.modEng c .ve fun e => e.owe o.sync
    if o.vred then s else s.outputDone c r.g.q o.call o.dz (unitBytes (fmtOf o.fout))

/-- An operation runs on for `n` steps from where it stands. -/
def State.veGo (s : State) (c : Nat) (g : VeProg) (o : VeOp) (n : Nat) : State :=
  let z := veShape g.q o
  (VeRun.strips c o z n { s, g }).rest c o z

/-- The result that the combine stage holds is written at resume (R181). -/
def State.veCombine (s : State) (c : Nat) : State :=
  match (s.core c).veRun with
  | some g => match g.held, g.q.op with
    | some _, .ve o => s.veGo c g o 1
    | _, _ => s
  | none => s

/-- A vector operation, in progress or else at the head of the VE queue, runs for `n` steps (R111, R152, R181). -/
def State.vectorOp (s : State) (c : Nat) (vred : Bool) (n : Nat) (us : List Upset) : State :=
  let s := s.upset c us
  if ¬ s.coreRuns c then s
  else match (s.core c).veRun with
  | some g => match g.q.op with
    | .ve o => if o.vred = vred then s.veGo c g o n else s
    | _ => s
  | none => match s.headReady c .ve with
    | some q => match q.op with
      | .ve o =>
        if o.vred ≠ vred then s
        else
          let s := s.takeHead c .ve
          match firstFault ((veRoles o).map fun (d, r, n) => (d, r, (q.descs.get 0 d).checkNear n)) with
          | some (d, r, f) => s.coreFault c f.code (addrDetail 1 q.iseq d r f.value)
          | none => s.veGo c { q } o n
      | _ => s
    | none => s

/-- `VMAP`: `go` says how many steps, each a strip or the combining of one segment, the engine makes before another
command. -/
def execVmap (core : Fin 128) (go : Advance) (s : State) : Res :=
  .next (s.vectorOp core false go.n go.upsets)
/-- `VRED`. -/
def execVred (core : Fin 128) (go : Advance) (s : State) : Res :=
  .next (s.vectorOp core true go.n go.upsets)

end Sys2Proof.Machine
end

