-- ==== Sys2Proof/Machine/Jobs.lean ====
section
/-! DEFINITION. The end of a job and the job-end path (R126, R205, R247, R253, R256, R257), park requests, park
points and resume (R129–R133), the bundle limit and the debug registers (R134, R135, R164, R206, R464), hang
snapshots and the watchdogs (R122, R377, R455, R456). -/

namespace Sys2Proof.Machine

/-- Record kinds' source code of a unit (Table 16-3). -/
def unitSrc (u : Nat) : Nat := 0x100 + u

/-- C_STATE.JOBS of a context (Table 13-8). -/
def State.showJobs (s : State) (x : Nat) : State := s.setFld (R.ctxselCState x) 10 3 (s.ctxUnits x).length

/-! ### What a core loses with its job (R100, R113, R133, R161, R205, Table 4-10) -/

/-- The registers of a core's page that belong to the job (Tables 4-9, 4-10). -/
def coreJobRegs (c : Nat) : List Nat :=
  [R.coreSeqStatus c, R.coreWaitCfg c, R.coreDbgBundleCount c, R.coreSregCollideCnt c, R.coreParkPc c, R.coreParkLink c,
    R.coreParkLoops c]
    ++ (List.range 32).map (R.coreFlag c) ++ (List.range 4).map (R.coreParkLcnt c)
    ++ ((List.range 4).map fun e => [R.coreParkIseq c e, R.coreParkTile c e, R.coreParkLidx c e 0, R.coreParkLidx c e 1,
        R.coreParkLidx c e 2, R.coreParkPend c e, R.coreParkEstate c e]).flatten
    ++ (List.range 32).map (R.coreParkSreg c)

/-- Core `c` returns to what the next job finds: nothing of this one. -/
def State.clearCore (s : State) (c : Nat) : State :=
  let s := (s.setCore c {}).clearRegs (R.coreDbgBundleLimit c :: coreJobRegs c)
  { s with
    spad := s.spad.clearRange (spadKey c 0) (spadKey (c + 1) 0)
    spadEcc := s.spadEcc.clearRange (spadKey c 0) (spadKey (c + 1) 0)
    spadOwed := s.spadOwed.filter fun k => k / 524288 != c }

/-- The pods whose flags a unit's job owns (R372). -/
def unitPods (u : Nat) : List Nat :=
  if unitWidth u < 4 then [] else (List.range (unitWidth u / 4)).map (unitFirst u / 4 + ·)

def State.clearPodFlags (s : State) (u : Nat) : State :=
  (unitPods u).foldl (fun (st : State) p => st.clearRegs ((List.range 16).map (R.podFlag p))) s

/-! ### The job-end path -/

/-- Sum over a unit's cores of a register, saturating. -/
def State.sumRegs (s : State) (u top : Nat) (k : Nat → Nat) : Nat :=
  min ((unitCores u).map fun c => (s.rd (k c)).toNat).sum top

/-- The JOB_CYCLES that a job end reports (R169): the same of every core of the unit. -/
def State.jobCycles (s : State) (u : Nat) : Nat := (s.job u).clock

/-- SHELF of a DONE card: index, whether one was bound, whether it still is. -/
def shelfByte (shelf : Option Nat) (still : Bool) : Nat :=
  match shelf with | some k => k % 64 + 64 + (if still then 128 else 0) | none => 0

/-- A DONE card (Table 9-9). -/
def State.doneCard (s : State) (u : Nat) (card : Card) (status cycles shelf : Nat) (ran : Bool) : Card :=
  let h : Card := BitVec.ofNat 512 (card.toNat % 2 ^ 160)
  let h : Card := Card.put h 0 1 0x02
  let h := h.put 20 2 status
  let h := if ran then
      let ns := (unitCores u).foldl (fun (n : Nat) c => n ||| (s.rd (R.coreNumStatus c)).toNat % 65536) 0
      (((h.put 22 2 ns).put 24 4 (s.sumRegs u 0xFFFFFFFF R.coreNumUflowCnt)).put 28 4
        (s.sumRegs u 0xFFFFFFFF R.coreNumSatCnt)).put 32 4 (s.sumRegs u 0xFFFFFFFF R.coreNumNanCnt)
    else h
  (h.put 36 8 cycles).put 44 2 shelf

/-- A tear-down's park request has reached the job, which never resumes (R132). -/
def Job.torn (j : Job) : Bool := j.parkReqs.contains 4

/-- The status a job ends with (R247, Table 13-4 step 2). -/
def Job.status (j : Job) : Nat := j.fault.getD (if j.torn then 0x7006 else 0)

/-- The JOB_END records (Table 16-4). -/
def State.jobEndRecords (s : State) (u : Nat) (j : Job) : State :=
  let c := j.card
  let j0 := if j.begun then j.j0 else s.ltime
  let head := [(4, c.accession), (2, c.layer), (2, c.oper), (1, u), (1, c.jType), (2, j.status), (8, s.jobCycles u),
    (8, j0 - s.obs.origin.get 0 j.ctx)] ++ (List.range 4).map fun k => (8, s.sumRegs u (2 ^ 64 - 1) fun c => R.coreCpmc c k)
  let accs := (List.range 7).map fun n => (8, (s.rd (R.ctxselAcc j.ctx n)).toNat - j.acc0.getD n 0)
  let s := s.sysRecord 1 3 (unitSrc u) s.now head
  s.ctxRecord j.ctx 1 3 (unitSrc u) (s.ltime - j0) (head ++ accs)

/-- A replay is asked of the chip that supplied the micro-batch, or of the host (R257). -/
def State.askReplay (s : State) (u : Nat) (j : Job) : State :=
  let c := j.card
  let sh := s.qm.shelves.get {} (64 * c.jShelfSet + j.shelf.getD 0)
  let (chip, q) := if j.shelf.isSome then (sh.srcChip, sh.srcQueue) else (c.srcChip, c.jSrcQueue)
  if q = 0xFFF then
    s.record { code := j.status, ctx := some j.ctx, unit := u, accession := c.accession, layer := c.layer, oper := c.oper }
      1 false
  else s.sendCtxCard chip j.ctx (s.mkCtl 0x13 j.ctx c.accession q (s.ctxSlice j.ctx))

/-- The record of the batch that a SERVE job served becomes free (R271). -/
def State.freeRecord (s : State) (x acc : Nat) : State :=
  let free (p : Nat × Assembler) : Nat × Assembler :=
    if s.qCtx (s.fld (R.qmAsmCfg p.1) 26 15) = x then
      (p.1, { p.2 with recBusy := match p.2.recBusy.find? (fun r => r.2 == acc) with
                                  | some r => p.2.recBusy.erase r
                                  | none => p.2.recBusy })
    else p
  { s with qm := { s.qm with asms := s.qm.asms.map free } }

/-- Set a shelf of a set, and show how many are BOUND (Table 9-14). -/
def State.setShelf (s : State) (k i : Nat) (x : Sys2Proof.Machine.Shelf) : State :=
  let s := { s with qm := { s.qm with shelves := s.qm.shelves.set {} (64 * k + i) x } }
  s.setFld (R.qmShelfSize k) 29 23 ((List.range 64).filter fun n => (s.qm.shelves.get { bound := false } (64 * k + n)).bound).length

/-- A unit that shares a core with a pod that is retire-pending, out of service or without power (R16, R394, Table
15-5). -/
def State.unitOut (s : State) (u : Nat) : Bool :=
  (List.range 32).any fun p => overlap u (128 + p) && (s.recov.podsOut.contains p
    || !s.bit R.pwrDomainState p || s.recov.retiring.any fun k => k / 5 == p)

/-- Everything the job-end path does (R126, R205, R247, R253, R256, R257); `eng`: the cycles in which the job's MX,
VE, LD and ST engines had an operation in progress, summed over its cores (Table 13-5). -/
def State.jobEnd (s : State) (u : Nat) (eng : List Nat) : State :=
  let j := s.job u
  let c := j.card
  let status := j.status
  let s := (List.range 4).foldl (fun (st : State) n => st.account j.ctx n (eng.getD n 0)) s
  let s := s.account j.ctx 4 (s.jobCycles u * unitWidth u)
  let frees : Bool := status == 0 && c.jShelfOp == 3 && j.shelf.isSome
  let done := s.doneCard u c status (s.jobCycles u) (shelfByte j.shelf (j.shelf.isSome && !frees)) true
  let s := s.jobEndRecords u j
  let s := if status = 0x3007 ∨ status = 0x4006 then s.askReplay u j else s
  -- the card that the job consumed counts as dropped (Table 8-5, log 116)
  let s := if status = 0x3008 then s.discard (some (4 * u)) else s
  let s := if frees then
      s.setShelf c.jShelfSet (j.shelf.getD 0) { bound := false }
    else s
  let s := if status = 0 ∧ c.jRetire ∧ c.jSrcQueue ≠ 0xFFF then
      s.sendCtxCard c.srcChip j.ctx (s.mkCtl 0x14 j.ctx c.accession c.jSrcQueue (s.ctxSlice j.ctx))
    else s
  let s := if c.jType = 5 then s.freeRecord j.ctx c.accession else s
  let s := (unitCores u).foldl (fun (st : State) k => st.clearCore k) s
  let s := s.clearPodFlags u
  let s := s.clearRegs [R.wdselWdCount u, R.wdselWdLimit u]
  let s := { s with jobs := s.jobs.set {} u {}, progs := s.progs.erase (1024 + u),
                    qm := { s.qm with lastUnit := s.qm.lastUnit.set 170 j.ctx u } }
  let s := (s.setUnit u (if s.unitOut u then 3 else 0) none).showJobs j.ctx
  let s := if s.obs.dumpUnit = some u then
      { (s.setBit R.obsStatus 1 false).setFld R.obsDumpStatus 1 0 2 with obs := { s.obs with dumpUnit := none } }
    else s
  s.postDone u done

/-- Every core of the unit has ended (R126). -/
def State.allEnded (s : State) (u : Nat) : Bool :=
  (unitCores u).all fun c => (s.core c).phase == .ended && (s.core c).idleMet 15

/-! ### Tear-down steps 4 and 5 (Table 13-4) -/

/-- The shelves of a set become FREE (R253). -/
def State.freeShelves (s : State) (k : Nat) : State :=
  let s := { s with qm := { s.qm with shelves := s.qm.shelves.clearRange (64 * k) (64 * k + 64) } }
  s.setFld (R.qmShelfSize k) 29 23 0

/-- Disable an assembler: the open batch is dropped. -/
def State.asmOff (s : State) (k : Nat) : State :=
  let s := (s.setBit (R.qmAsmCfg k) 0 false).wr (R.qmAsmState k) 0
  { s with qm := { s.qm with asms := s.qm.asms.erase k } }

/-- The configurable queues of a context. -/
def State.ctxQueues (s : State) (x : Nat) : List Nat :=
  ((List.range 3071).map (· + 1024)).filter fun q => s.qEn q && s.qCtx q == x

/-- Queues are flushed and disabled, replay windows discarded, pools, shelf sets and assemblers disabled. -/
def State.withdraw (s : State) (x : Nat) : State :=
  let s := (s.ctxQueues x).foldl (fun (st : State) q => (st.queueOff q).setReplay q []) s
  let s := { s with qm := { s.qm with replayWait := s.qm.replayWait.filter fun p => s.qCtx p.1 != x } }
  let s := ((List.range 128).filter fun i => s.poolEn i && s.poolCtx i == x).foldl (fun (st : State) i => st.poolOff i) s
  let s := ((List.range 32).filter fun k => s.bit (R.qmShelfCfg k) 0 && s.fld (R.qmShelfCfg k) 16 8 == x).foldl
    (fun (st : State) k => (st.setBit (R.qmShelfCfg k) 0 false).freeShelves k) s
  ((List.range 16).filter fun k => s.bit (R.qmAsmCfg k) 0 && s.qCtx (s.fld (R.qmAsmCfg k) 26 15) == x).foldl
    (fun (st : State) k => st.asmOff k) s

/-- The steps that follow step 2 take place once no job of the context is left. -/
def State.tearSettle (s : State) (x : Nat) : State :=
  if s.ctxState x = 4 ∧ (s.ctxUnits x).isEmpty then s.withdraw x else s

/-- `JOB_END`. -/
def execJobEnd (unit : Fin 171) (eng : List Nat) (s : State) : Res :=
  .next (
    let j := s.job unit
    if s.hasJob unit ∧ (j.fault.isSome ∨ (j.torn ∧ j.parked) ∨ s.allEnded unit) then
      (s.jobEnd unit eng).tearSettle j.ctx
    else s)

/-! ### Parking -/

/-- REASON of the highest-ranked source in force (R132): tear-down, QSTOP, tensor dump, freeze, bundle limit. -/
def topReason (rs : List Nat) : Nat := ([4, 3, 2, 1, 5].find? fun r => rs.contains r).getD 0

/-- `PARK_REQUEST`: a source's request reaches every core of the unit. -/
def execParkRequest (unit : Fin 171) (reason : Fin 6) (s : State) : Res :=
  .next (if reason = 0 then s else s.parkReq reason unit)

/-- Drain beats not yet placed, and the load beats of the next tile (R99, Table 4-9). -/
def Core.mxBeats (x : Core) : Nat :=
  (x.drains.map fun j => match j.q.op with
    | .mx o => (j.sets.map fun p =>
        let t := (x.arrs.get {} p.1).set p.2
        beatsOf (fmtOf o.fout) t.rows t.width).sum
    | _ => 0).sum
  + match x.mxRun with
    | some g => (match g.q.op with
      | .mx o => if g.begun ∧ o.kind ≠ .ewmul ∧ o.init = .load ∧ g.n + 1 < o.nt ∧ g.next = [] then loadBeats o else 0
      | _ => 0)
    | none => 0

/-- The MX operation in progress: the tiles whose drain is still to come are not completed, and the walk of DC stands at
the first of them (R133, R150). -/
def Core.mxProgress (x : Core) : Option (Nat × Nat × Desc × Nat) :=
  match x.mxRun, x.drains with
  | some g, ds => match g.q.op with
    | .mx o =>
      let n := g.n - ds.length
      some (g.q.iseq, n, g.q.descs.get 0 (o.dc.getD 0), if o.kind = .ewmul then g.p else n * 4 * tileRows o)
    | _ => none
  | none, j :: _ => match j.q.op with
    | .mx o => some (j.q.iseq, j.n, j.q.descs.get 0 (o.dc.getD 0),
        j.n * 4 * ((j.sets.head?.map fun p => ((x.arrs.get {} p.1).set p.2).rows).getD 0))
    | _ => none
  | none, [] => none

/-- The VE operation in progress (R172, R181): for VMAP DZ has reached the elements written, for VRED DX those read. -/
def Core.veProgress (x : Core) : Option (Nat × Nat × Desc × Nat) :=
  x.veRun.bind fun g => match g.q.op with
    | .ve o =>
      let z := veShape g.q o
      let k := if o.vred then g.i else g.written
      some (g.q.iseq, if o.sync.tile then k / z.tile else 0, g.q.descs.get 0 ((if o.vred then o.dx else o.dz).getD 0),
        if o.vred then k else k / perUnit (fmtOf o.fout))
    | _ => none

/-- The near walk or the counted walk of an LD or ST operation, and the bytes of one iteration. -/
def QOp.primary (q : QOp) : Desc × Nat :=
  let near (d : Nat) : Desc × Nat := (q.descs.get 0 d, esizeBytes (Desc.esize (q.descs.get 0 d)))
  match q.op with
  | .ld (.ld _ _ d _ _) => near d
  | .st (.st _ _ d _ _) => near d
  | .st (.stLink _ d _ _) => near d
  | _ => q.countWalk.getD (0, 1)

/-- The operation in progress on an engine, tiles completed, its primary descriptor and iteration (R133); requests in
flight count as made. -/
def Core.inProgress (x : Core) (e : EngId) (inFlight : Nat) : Option (Nat × Nat × Desc × Nat) :=
  match e with
  | .mx => x.mxProgress
  | .ve => x.veProgress
  | e => (x.eng e).cur.head?.map fun o =>
      let (d, n) := o.q.primary
      (o.q.iseq, o.tiles, d, d.reached n ((o.reqs.drop inFlight).map (·.len)).sum)

/-- Record one engine at its park point (R130, R133). -/
def State.parkEngine (s : State) (c : Nat) (e : EngId) (inFlight : Nat) : State :=
  let x := s.core c
  let g := x.eng e
  let n := engNum e
  let pend := match e with
    | .mx => x.mxBeats
    | .ve => 0
    | _ => min inFlight (Engine.flat g).length
  let (iseq, tile, d, i, act) : Nat × Nat × Desc × Nat × Bool := match x.inProgress e pend with
    | some (q, t, d, i) => (q, t, d, i, true)
    | none => (0, 0, 0, 0, false)
  let waiting := match g.queue with
    | q :: _ => (slotSync q.op).wflag.isSome && (s.headReady c e).isNone
    | [] => false
  let lidx (j : Nat) : Word := BitVec.ofNat 64 (if act then d.idx i (2 * j) % 65536 + 65536 * (d.idx i (2 * j + 1) % 65536) else 0)
  let s := s.modEng c e fun z => { z with atPoint := true, pend }
  let s := s.wr (R.coreParkIseq c n) (BitVec.ofNat 64 (iseq % 2 ^ 32))
  let s := s.wr (R.coreParkTile c n) (BitVec.ofNat 64 (tile % 2 ^ 32))
  let s := (List.range 3).foldl (fun (st : State) j => st.wr (R.coreParkLidx c n j) (lidx j)) s
  let s := s.wr (R.coreParkPend c n) (BitVec.ofNat 64 (pend % 65536))
  s.wr (R.coreParkEstate c n) (BitVec.ofNat 64
    ((if act then 1 else 0) + (if waiting then 2 else 0) + if x.sigPend e then 4 else 0))

/-- Record the sequencer of a core as its unit parks: every SC result in its pipeline has been written (R133, R166). -/
def State.parkCore (s : State) (c : Nat) : State :=
  let x := (s.core c).settleSc (((s.core c).scPend.map (·.left)).foldl max 0)
  let s := s.setCore c x
  let s := s.wr (R.coreParkPc c) (BitVec.ofNat 64 x.pc)
  let s := s.wr (R.coreParkLink c) (BitVec.ofNat 64 (match x.link with | some a => a % 2 ^ 31 + 2 ^ 31 | none => 0))
  let s := s.wr (R.coreParkLoops c) (BitVec.ofNat 64 x.loops.length)
  let s := x.loops.reverse.zipIdx.foldl (fun (st : State) p => st.wr (R.coreParkLcnt c p.2) (BitVec.ofNat 64 p.1.remain))
    ((List.range 4).foldl (fun (st : State) i => st.wr (R.coreParkLcnt c i) 0) s)
  (List.range 32).foldl (fun (st : State) n => st.wr (R.coreParkSreg c n) (x.sreg n)) s

def Core.allAtPoint (x : Core) : Bool := x.mx.atPoint && x.ve.atPoint && x.ld.atPoint && x.st.atPoint

/-- The unit is parked once every engine of every core has reached its point. -/
def State.parkUnit (s : State) (u : Nat) : State :=
  if s.unitState u = 1 ∧ (unitCores u).all fun c => (s.core c).allAtPoint then
    let s := (unitCores u).foldl (fun (st : State) c => st.parkCore c) s
    (s.setJob u { s.job u with parked := true }).setUnit u 2 (some (s.job u).ctx)
  else s

/-- A fault that leaves the unit to park: the watchdogs' (R122, R377). -/
def Job.parksOn (j : Job) : Bool := j.fault.all fun k => k == 0x2001 || k == 0x7003

/-- `PARK_POINT`: engine `eng` of the core stops at its park point with `inFlight` requests outstanding. -/
def execParkPoint (core : Fin 128) (eng : EngId) (inFlight : Nat) (s : State) : Res :=
  .next (match s.unitOf core with
  | some u =>
    let j := s.job u
    if j.parkReqs.isEmpty ∨ ¬ j.parksOn ∨ ((s.core core).eng eng).atPoint then s
    else (s.parkEngine core eng inFlight).parkUnit u
  | none => s)

/-- `PARK_TIMEOUT` (R130). -/
def execParkTimeout (core : Fin 128) (eng : EngId) (s : State) : Res :=
  .next (match s.unitOf core with
  | some u =>
    let j := s.job u
    if j.parkReqs.isEmpty ∨ j.fault.isSome ∨ ((s.core core).eng eng).atPoint then s
    else
      let iseq := match (s.core core).inProgress eng 0 with | some (q, _) => q | none => 0xFFFFFFFF
      s.coreFault core 0x2003 [(1, engNum eng), (4, iseq), (1, topReason j.parkReqs)]
  | none => s)

/-! ### Resume (R132) -/

/-- The deliveries a core owes, VE's last: it is written where LD's is to the same register (R184). -/
def Core.owedDelivs (x : Core) : List Deliv := x.mx.delivs ++ x.ld.delivs ++ x.st.delivs ++ x.ve.delivs

/-- The signals that a core owes, as (core, flag, count). -/
def Core.owedSignals (x : Core) (c : Nat) : List (Nat × Nat × Nat) :=
  ((x.mx.sigs ++ x.ve.sigs ++ x.ld.sigs ++ x.st.sigs).map fun o => (c, o.flag, o.n))
    ++ x.owedDelivs.flatMap fun d => d.signals c

/-- A core goes on as its unit resumes: nothing is at a park point or owed any more, and the deliveries that were owed are
written (R131). -/
def State.resumeCore (s : State) (c : Nat) : State :=
  let x := s.core c
  let free (g : Engine) : Engine := { g with atPoint := false, pend := 0, sigs := [], delivs := [] }
  let clash := x.ld.delivs.any fun d => x.ve.delivs.any fun v => v.reg == d.reg
  let s := s.setCore c { x with
    mx := free x.mx, ve := free x.ve, ld := free x.ld, st := free x.st
    phase := if x.phase = .ended then .ended else if s.pastLimit c then .limit else .issuing }
  let s := if clash then s.count (R.coreSregCollideCnt c) 1 else s
  s.writeDelivs c x.owedDelivs

/-- `RESUME`: in one cycle every core goes on and every owed signal is raised, and then what a combine stage holds is written
(R131, R181).  Every source has released the unit; the bundle limit is released by the resume itself. -/
def execResume (unit : Fin 171) (s : State) : Res :=
  .next (
    let j := s.job unit
    if s.unitState unit = 2 ∧ j.fault.isNone ∧ ¬ j.torn ∧ j.parkReqs.all fun r => r == 5 then
      let s := (s.setJob unit { j with parkReqs := [], parked := false }).setUnit unit 1 (some j.ctx)
      let owed := (unitCores unit).flatMap fun c => (s.core c).owedSignals c
      let s := ((unitCores unit).foldl (fun (st : State) c => st.resumeCore c) s).signals owed
      (unitCores unit).foldl (fun (st : State) c => st.veCombine c) s
    else s)

/-! ### The bundle limit (R134) -/

/-- `BUNDLE_LIMIT`: the count has reached the limit. -/
def execBundleLimit (core : Fin 128) (s : State) : Res :=
  .next (if s.coreRuns core ∧ s.pastLimit core ∧ (s.core core).phase ≠ .ended then
    s.modCore core fun x => { x with phase := .limit } else s)

/-- An engine's queue is empty or stopped at an ungranted head wait, nothing is in progress and no signal is
pending. -/
def State.engSettled (s : State) (c : Nat) (e : EngId) : Bool :=
  let g := (s.core c).eng e
  (g.queue.isEmpty || (s.headReady c e).isNone) && g.cur.isEmpty && g.sigs.isEmpty && g.delivs.isEmpty
    && (e != .mx || (s.core c).mxRun.isNone) && (e != .ve || (s.core c).veRun.isNone)

/-- A core has settled (R134 steps 1–3). -/
def State.settled (s : State) (c : Nat) : Bool :=
  let x := s.core c
  [EngId.mx, .ve, .ld, .st].all (fun e => s.engSettled c e) && x.drains.isEmpty && x.stSignals.isEmpty &&
    (match x.phase with
     | .limit => true
     | .ended => true
     | .syWait => (match s.bundleAt c with | some b => !s.syMet c b.sy | none => false)
     | .heldFull => (match s.bundleAt c with | some b => x.fullMask b != 0 | none => false)
     | _ => false)

/-- `SETTLE`: every core of the unit has settled, one of them at its limit. -/
def execSettle (unit : Fin 171) (s : State) : Res :=
  .next (
    let j := s.job unit
    if s.unitState unit = 1 ∧ j.fault.isNone ∧ j.parkReqs.isEmpty ∧ (unitCores unit).all (fun c => s.settled c)
        ∧ (unitCores unit).any (fun c => (s.core c).phase == .limit) then
      let s := s.parkReq 5 unit
      let s := (unitCores unit).foldl (fun (st : State) c =>
        [EngId.mx, .ve, .ld, .st].foldl (fun (z : State) e => z.parkEngine c e 0) st) s
      s.parkUnit unit
    else s)

/-! ### Debug registers (R464) -/

/-- An access that Table 17-2 or R464 does not permit: counted, and the event PRIV_DENIED. -/
def State.privDenied (s : State) (agent page : Nat) : State :=
  ((s.count R.trustPrivDeniedCnt 1).intEvent 502 2).raise { code := 0x9004, detail := [(1, agent), (2, page)] }

/-- Privileged debug access for context `x` (R479): an unlock of the device or of the context. -/
def State.debugFor (s : State) (x : Nat) : Bool := s.bit R.trustLifecycle 2 || s.bit (R.trustselCSigpol x) 5

/-- The context under which a write to a debug register of core `c` is judged: that of the job, or of the card at
the head of the unit's JOB queue. -/
def State.debugCtx (s : State) (c : Nat) : Option Nat :=
  match s.unitOf c with
  | some u => some (s.job u).ctx
  | none => ((unitsOf c).filterMap fun u => (s.qHead (4 * u)).map Card.ctx).head?

/-- A debug write by the agent with code `ag`: refused, or performed where `f` says. -/
def State.debugWrite (s : State) (ag c page : Nat) (f : State → State) : State :=
  let ok : Bool := match s.debugCtx c with | some x => s.debugFor x | none => s.bit R.trustLifecycle 2
  if ok then f s else s.privDenied ag page

def State.limitWrite (s : State) (ag c : Nat) (limit : Word) : State :=
  s.debugWrite ag c c fun s =>
    match s.unitOf c with
    | some u => if s.unitState u = 2 then s.wr (R.coreDbgBundleLimit c) limit else s
    | none =>
      let s := s.wr (R.coreDbgBundleLimit c) limit
      { s with limitCtx := s.limitCtx.set 512 c ((s.debugCtx c).getD 512) }

/-- `DBG_BUNDLE_LIMIT` (R135): while the unit is idle or parked; written by the host privileged path. -/
def execDbgBundleLimit (core : Fin 128) (limit : Word) (s : State) : Res := .next (s.limitWrite 1 core limit)

def State.agSelWrite (s : State) (ag c : Nat) (v : Word) : State := s.debugWrite ag c c fun s => s.wr (R.coreAgSel c) v

/-- `AG_SEL` (R164). -/
def execAgSel (core : Fin 128) (desc : Fin 32) (s : State) : Res := .next (s.agSelWrite 1 core (BitVec.ofNat 64 desc))

/-- A debug read of the word at `a` (R206), while the unit is parked. -/
def State.dbgRead (s : State) (ag c a : Nat) : State :=
  s.debugWrite ag c (256 + c) fun s =>
    if (s.unitOf c).any fun u => s.unitState u == 2 then
      let h := s.spadHealth c a
      let s := s.wr (R.spadDbgAddr c) (BitVec.ofNat 64 a)
      let s := s.wr (R.spadDbgStatus c) (BitVec.ofNat 64 (1 + (if h = 1 then 2 else 0) + if h = 2 then 4 else 0))
      s.wr (R.spadDbgData c) (BitVec.ofNat 64 (s.spadRead c a 8))
    else s.setBit (R.spadDbgStatus c) 0 false

/-- `DBG_ADDR` (R206). -/
def execDbgAddr (core : Fin 128) (waddr : BitVec 16) (s : State) : Res := .next (s.dbgRead 1 core (waddr.toNat * 8))

/-! ### Hang snapshots (R455, R456) -/

/-- SEQ_STATUS as it reads (Table 4-10). -/
def State.seqStatusView (s : State) (c : Nat) : Nat :=
  match s.unitOf c with
  | none => 0x7F00
  | some u =>
    let x := s.core c
    let st := if s.unitState u = 2 then 5 else match x.phase with
      | .idle => 0 | .issuing => 1 | .syWait => 2 | .heldFull => 3 | .limit => 4 | .parked => 5 | .ended => 6 | .stopped => 5
    let held : Bool := s.unitState u != 2 && (x.phase == .syWait || x.phase == .heldFull)
    let fl := if held && x.phase == .syWait then
        (match (s.bundleAt c).bind (·.sy) with
         | some (.idle _) => 0x60
         | some o => (match syWait o with | some (f, _, _) => f | none => 0x7F)
         | none => 0x7F)
      else 0x7F
    let q := match s.bundleAt c with | some b => if held then x.fullMask b else 0 | none => 0
    st + q * 8 + s.fld (R.coreSeqStatus c) 7 7 * 128 + fl * 256

/-- QUEUE_LEVEL. -/
def Core.queueLevel (x : Core) : Nat :=
  x.mx.queue.length + x.ve.queue.length * 32 + x.ld.queue.length * 2048 + x.st.queue.length * 131072

/-- HEAD_WAIT. -/
def State.headWait (s : State) (c : Nat) : Nat :=
  [(EngId.mx, 0), (.ve, 1), (.ld, 2), (.st, 3)].foldl (fun n (e, i) =>
    match s.headFlag c e with
    | some f => n + 2 ^ i + f * 2 ^ (4 + 7 * i)
    | none => n + 0x7F * 2 ^ (4 + 7 * i)) 0

/-- ISEQ of the operation in progress, 0 where there is none. -/
def Core.iseqOf (x : Core) (e : EngId) : Nat := match x.inProgress e 0 with | some (q, _) => q | none => 0

/-- A record to the privileged buffer and to a context's. -/
def State.bothRecords (s : State) (x : Option Nat) (u kind len64 src : Nat) (body : List (Nat × Nat)) : State :=
  let s := s.sysRecord kind len64 src s.now body
  match x with | some x => s.ctxRecord x kind len64 src (s.localTime x u) body | none => s

/-- The hang snapshot of a unit. -/
def State.snapshot (s : State) (u : Nat) : State :=
  let t := s
  let x := if s.hasJob u then some (s.job u).ctx else none
  let hangCore (s : State) (c : Nat) : State :=
    let k := t.core c
    s.bothRecords x u 5 4 c
      ([(4, t.seqStatusView c), (4, k.pc), (4, k.queueLevel), (4, t.headWait c)]
        ++ (List.range 5).map (fun i => (4, min (k.waits.get 0 i) 0xFFFFFFFF))
        ++ [(4, k.iseqOf .mx), (4, k.iseqOf .ve), (4, k.iseqOf .ld), (4, k.iseqOf .st),
            (8, (t.rd (R.coreDbgBundleCount c)).toNat), (52, 0)]
        ++ (List.range 64).map fun f => (2, t.flag c f))
  let s := if x.isSome then (unitCores u).foldl hangCore s else s
  let c := (t.job u).card
  let g := (t.leadGrant c.jPool c.jFirst).getD { first := 0, count := 0, chip := 0 }
  let rdy := (t.job u).bound.isSome
  let s := s.bothRecords x u 6 2 (unitSrc u)
    (([0, 1, 2].map fun k => [(2, t.qWr (4 * u + k)), (2, t.qRd (4 * u + k))]).flatten
      ++ (if rdy then [(1, c.jPool), (2, c.jFirst), (4, g.ready), (4, g.rows), (2, t.flag (unitFirst u + c.jRdyCore) c.jRdyFlag)]
          else [(13, 0)])
      ++ (List.range 32).map fun f => (2, t.flag (unitFirst u) (64 + f)))
  match x with
  | none => s
  | some x =>
    let s := ((List.range 128).filter fun i => t.poolEn i && t.poolCtx i == x).foldl (fun (st : State) i =>
      let w := (t.pool i).waiting.head?
      st.bothRecords (some x) u 7 1 0x3FF
        [(1, i), (2, t.poolNext i), (2, t.poolFree i), (1, (t.openGrants i).length), (1, (t.pool i).waiting.length),
         (4, (w.map (·.chip)).getD 0), (1, (w.map (·.count)).getD 0)]) s
    ((List.range 4).filter fun q => t.bit (R.stgSeqCtrl q) 0 && t.seqCtx q == some x).foldl (fun (st : State) q =>
      st.bothRecords (some x) u 8 2 (0x200 + q)
        ([(1, t.seqState q), (2, t.seqPc q), (4, (t.seqWord q).toNat)]
          ++ (List.range 8).map (fun i => (4, (t.seq q).watch.get 0 i))
          ++ (List.range 16).map fun k => (1, t.slotState q k))) s

/-- A snapshot is written, and INT_STATUS.SNAP_DONE is set. -/
def State.takeSnapshot (s : State) (u : Nat) : State := (s.snapshot u).intEvent 500 2

/-- `SNAP_UNIT`, `dt` cycles after the clock of the unit's job where it runs one. -/
def execSnapUnit (unit : Fin 171) (dt : Nat) (s : State) : Res :=
  .next (((s.pass unit dt).wr R.obsSnapUnit (BitVec.ofNat 64 unit)).takeSnapshot unit)

/-! ### Watchdogs -/

/-- The code of a waiter in a record (Table 14-17). -/
def waiterCode (w : Fin 5) : Nat := match waiterEng w with | none => 4 | some e => engNum e

/-- The wait watchdog fires on a waiter in cycle `t` (R122): the cycles pass, the snapshot is taken, and the context is torn
down with 0x2001.  Its record notes a job watchdog that fires in the same cycle (R377). -/
def State.deadlock (s : State) (u t c : Nat) (w : Fin 5) (x : Nat × Nat × Nat × Nat) : State :=
  let also : Bool := s.wdFires u == some t
  ((s.elapse u t).takeSnapshot u).coreFault c 0x2001
    ([(1, waiterCode w), (1, x.1), (1, x.2.1), (2, x.2.2.1), (4, x.2.2.2)] ++ if also then [(1, 1)] else [])

/-- `SYNC_DEADLOCK`: `dt` cycles after the job's clock, the count of this waiter, the unit's first to do so, reaches the wait
limit, before the job watchdog fires.  Nothing happens between the clock and that cycle. -/
def execSyncDeadlock (unit : Fin 171) (core : Fin 128) (waiter : Fin 5) (dt : Nat) (s : State) : Res :=
  .next (match s.firstWaiter unit, s.waiting core waiter with
  | some (t, c, w), some x =>
    if s.coreRuns core ∧ s.unitOf core = some unit.val ∧ c = core ∧ w = waiter ∧ t = (s.job unit).clock + dt
        ∧ (s.wdFires unit).all (t ≤ ·) then s.deadlock unit t core waiter x else s
  | _, _ => s)

/-- `JOB_WATCHDOG` (R377): `dt` cycles after the job's clock WD_COUNT reaches CERT_CYCLES + 1, before any waiter's count has
made the wait watchdog fire. -/
def execJobWatchdog (unit : Fin 171) (dt : Nat) (s : State) : Res :=
  .next (
    let j := s.job unit
    match s.wdFires unit with
    | some t =>
      if s.unitState unit = 1 ∧ j.fault.isNone ∧ j.parkReqs.isEmpty ∧ t = j.clock + dt ∧ (s.firstWaiter unit).all (t < ·.1) then
        ((s.elapse unit t).takeSnapshot unit).raise
          { code := 0x7003, ctx := some j.ctx, unit, accession := j.card.accession, layer := j.card.layer, oper := j.card.oper }
      else s
    | none => s)

end Sys2Proof.Machine
end

