-- ==== Sys2Proof/Machine/Dispatcher.lean ====
section
/-! DEFINITION. The dispatcher (R20, R22, R250, R252, R263, R285, R371, R373, R374) and job start (R63, R100, R108,
R161, R205). -/

namespace Sys2Proof.Machine

/-- The head cards of the JOB queues, with their units. -/
def State.headCards (s : State) : List (Nat × Card) :=
  (List.range 171).filterMap fun u => (s.qHead (4 * u)).map fun c => (u, c)

/-- Effective priority (R373 key 1). -/
def State.prio (s : State) (c : Card) : Nat := min c.jPrio (s.fld (R.ctxselCCfg c.ctx) 13 12)

/-- `a` ranks before `b` (R373): effective priority, the UCLK cycle (two fabric ticks) of reaching the head, the place. -/
def State.ranksBefore (s : State) (a b : Nat × Card) : Bool :=
  let since (u : Nat) : Nat := s.qm.headSince.get 0 (4 * u) / 2
  let place (u : Nat) : Nat := (u + 171 - s.now / 2 % 171) % 171
  if s.prio a.2 ≠ s.prio b.2 then s.prio b.2 < s.prio a.2
  else if since a.1 ≠ since b.1 then since a.1 < since b.1
  else place a.1 < place b.1

/-- The shelf bound to an accession in a set. -/
def State.boundShelf (s : State) (k acc : Nat) : Option Nat :=
  (List.range 64).find? fun i =>
    let x := s.qm.shelves.get {} (64 * k + i)
    x.bound && x.accession == acc

/-- The lowest-numbered FREE shelf of a set. -/
def State.freeShelf (s : State) (k : Nat) : Option Nat :=
  (List.range (s.fld (R.qmShelfCfg k) 7 1)).find? fun i => !(s.qm.shelves.get {} (64 * k + i)).bound

/-- Some job with FIND_RELEASE on a set is running or parked. -/
def State.releasing (s : State) (k : Nat) : Bool :=
  (List.range 171).any fun u => s.hasJob u && (s.job u).card.jShelfOp == 3 && (s.job u).card.jShelfSet == k

/-- What step 3 does with a card (R252). -/
inductive ShelfAct where
  | none
  | use (i : Nat)
  | bind (i : Nat)
  | hold
  | fail (code : Nat)
  deriving DecidableEq, Repr

def State.shelfAct (s : State) (c : Card) : ShelfAct :=
  let k := c.jShelfSet
  if c.jShelfOp = 0 then .none
  else if ¬ s.bit (R.qmShelfCfg k) 0 ∨ s.fld (R.qmShelfCfg k) 16 8 ≠ c.ctx then .fail 0x400E
  else if c.jShelfOp = 1 then
    match s.boundShelf k c.accession with
    | some i => if c.replay then .use i else .fail 0x400D
    | Option.none => match s.freeShelf k with
      | some i => .bind i
      | Option.none => if s.releasing k then .hold else .fail 0x400B
  else match s.boundShelf k c.accession with
    | some i => .use i
    | Option.none => .fail 0x400C

/-- A handle holds a program of context `x` whose image still lies in its class W granules (R371). -/
def State.programOk (s : State) (h x : Nat) : Bool :=
  let p := s.progs.get {} h
  h < 1024 && !p.code.isEmpty && p.ctx == x &&
    (granulesOf p.place p.size).all fun g => s.granValid g && s.granOwner g == x && s.granClass g == 0

/-- Step 1 of R250. -/
def State.cardOk (s : State) (u : Nat) (c : Card) : Bool :=
  c.jType ≤ 6 && c.accession != 0xFFFFFFFF && c.jUnit == u && s.programOk c.jProgram c.ctx &&
    (!c.jRdyEn || (c.jRdyCore < unitWidth u && c.jRdyFlag < 64 && c.jPace != 0 && (s.leadGrant c.jPool c.jFirst).isSome))

/-- What steps 1 to 3 of R250 do with a card, the first that fails coming first. -/
def State.stepsAct (s : State) (u : Nat) (c : Card) : ShelfAct :=
  if ¬ s.cardOk u c then .fail 0x4003
  else if (s.progs.get {} c.jProgram).width ≠ unitWidth u then .fail 0x7002
  else s.shelfAct c

/-- Base and size of a shelf of a set, as step 3 makes it window 15. -/
def State.shelfWindow (s : State) (k i : Nat) : Nat × Nat :=
  let size := max 1 (s.fld (R.qmShelfSize k) 22 0) * 4096
  (s.fld (R.qmShelfBase k) 33 12 * 4096 + i * size, size)

/-- A window that a card would have touches a granule being zero-filled (R212). -/
def State.filling (s : State) (c : Card) (act : ShelfAct) : Bool :=
  let shelf : Option (Nat × Nat) := match act with
    | .use i | .bind i => some (s.shelfWindow c.jShelfSet i)
    | .none | .hold | .fail _ => Option.none
  let win (n : Nat) : Nat × Nat := if n = 15 then shelf.getD (s.wintab.get (0, 0) (16 * c.jProgram + 15))
    else s.wintab.get (0, 0) (16 * c.jProgram + n)
  (List.range 16).any fun n => (granulesOf (win n).1 (win n).2).any fun g => s.granBusy g

/-- A card is held at the head of its queue: for a shelf (R252), or, where its checks pass, for a zero-fill under one of its
windows (R212, log 117). -/
def State.cardHeld (s : State) (u : Nat) (c : Card) : Bool :=
  match s.stepsAct u c with
  | .hold => true
  | .fail _ => false
  | act => s.filling c act

/-- The dispatcher is paused (R395, R510) or stopped (R392). -/
def State.dispatchPaused (s : State) : Bool :=
  s.bit R.hostQstopStatus 2 || s.recov.repairs.contains 3 || s.fld R.mgtRecState 1 0 == 3

/-- A context in the scope of a freeze in force (R450). -/
def State.frozen (s : State) (x : Nat) : Bool :=
  match s.obs.freeze with | some Option.none => true | some (some y) => x == y | Option.none => false

/-- The card's unit is running, parked or BLOCKED. -/
def State.unitBusy (s : State) (u : Nat) : Bool := s.unitState u == 1 || s.unitState u == 2 || s.bit (R.udState u) 2

/-- A head card holds a reservation on its unit (R374). -/
def State.reserves (s : State) (h : Nat × Card) : Bool :=
  s.unitBusy h.1 && s.ctxState h.2.ctx == 2 && s.stepsAct h.1 h.2 != .hold

/-- A head card may start now (R373): a unit whose DONE card is held accepts no job (Table 9-3). -/
def State.startable (s : State) (hs : List (Nat × Card)) (h : Nat × Card) : Bool :=
  s.ctxState h.2.ctx == 2 && s.unitState h.1 == 0 && !s.bit (R.udState h.1) 2 && !s.cardHeld h.1 h.2
    && !s.frozen h.2.ctx && !(s.qm.doneHeld.any fun p => p.1 == h.1)
    && hs.all fun r => !(r.1 != h.1 && overlap r.1 h.1 && s.reserves r && s.ranksBefore r h)

/-- The first-ranked startable card. -/
def State.pick (s : State) : Option (Nat × Card) :=
  let hs := s.headCards
  (hs.filter fun h => s.startable hs h).foldl (fun (best : Option (Nat × Card)) h =>
    match best with
    | some b => if s.ranksBefore h b then some h else some b
    | Option.none => some h) Option.none

/-! ### The steps of R250 -/

/-- Write one window of a unit (R285). -/
def State.setWindow (s : State) (u n base size : Nat) : State :=
  let s := s.wr (R.udWinBase u n) (BitVec.ofNat 64 (base / 4096 * 4096 + if size = 0 then 0 else 1))
  s.wr (R.udWinSize u n) (BitVec.ofNat 64 size)

/-- The windows of the card's handle go into the unit descriptor. -/
def State.writeWindows (s : State) (u h : Nat) : State :=
  (List.range 16).foldl (fun (st : State) n =>
    let w := s.wintab.get (0, 0) (16 * h + n)
    st.setWindow u n w.1 w.2) s

/-- Step 4 (R20): the granules of every enabled window are VALID and the context's own (R211). -/
def State.windowsOk (s : State) (u x : Nat) : Bool :=
  (List.range 16).all fun n =>
    let w := s.window u n
    w.2 == 0 || s.owned x w.1 w.2

/-- A dispatch that fails: its DONE card, with the shelf that step 3 found or bound; its EVENT card; its context torn down. -/
def State.failDispatch (s : State) (u : Nat) (c : Card) (code : Nat) (shelf : Option Nat) : State :=
  let s := s.postDone u (s.doneCard u c code 0 (shelfByte shelf shelf.isSome) false)
  s.raise { code, ctx := some c.ctx, unit := u, accession := c.accession, layer := c.layer, oper := c.oper }

/-- The registers that a core clears as a job starts on it (R63, R109, R158, R206, R444). -/
def coreStartRegs (c : Nat) : List Nat :=
  [R.coreNumStatus c, R.coreNumUflowCnt c, R.coreNumSatCnt c, R.coreNumNanCnt c, R.coreAgStatus c, R.spadPortWait c 0,
    R.spadPortWait c 1]
    ++ (List.range 16).map (R.spadConflictCnt c) ++ (List.range 4).map (R.coreCpmc c) ++ coreJobRegs c

/-- A core as its job starts. -/
def State.startCore (s : State) (u c : Nat) (p : Program) (card : Card) : State :=
  let r : List (Nat × Nat) := [(1, c - unitFirst u), (2, unitWidth u), (3, card.accession), (4, card.jArg 0),
    (5, card.jArg 1), (6, card.jArg 2), (7, card.jArg 3)]
  let sregs := r.foldl (fun (t : Tab Word) x => t.set 0 x.1 (BitVec.ofNat 64 x.2)) []
  let descs := p.descs.zipIdx.foldl (fun (t : Tab Desc) x => t.set 0 x.2 x.1) []
  let s := s.clearRegs (coreStartRegs c)
  let s := s.wr (R.coreWaitCfg c) (BitVec.ofNat 64 p.waitExp)
  let s := if (s.rd (R.coreDbgBundleLimit c)).toNat ≠ 0 ∧ s.limitCtx.get 512 c ≠ card.ctx then
      s.wr (R.coreDbgBundleLimit c) 0 else s
  let s := s.setCore c { phase := .issuing, sregs, descs, pc := p.entry }
  p.scratch.foldl (fun (st : State) w => st.spadWrite c w.1 w.2) s

/-- Step 5. -/
def State.startJob (s : State) (u : Nat) (c : Card) (shelf : Option Nat) : State :=
  let x := c.ctx
  let s := s.clearPodFlags u
  let s := (unitCores u).foldl (fun (st : State) k => st.startCore u k (s.progs.get {} c.jProgram) c) s
  let j : Job := { ctx := x, card := c, handle := c.jProgram, shelf, profile := s.rd (R.obsselCProf x),
                   acc0 := (List.range 7).map fun n => (s.rd (R.ctxselAcc x n)).toNat,
                   bound := if c.jRdyEn then some (c.jPool, c.jFirst, 0) else Option.none }
  let s := (s.setJob u j).setUnit u 1 (some x)
  let s := s.wr (R.wdselWdLimit u) (BitVec.ofNat 64 (s.progs.get {} c.jProgram).cert)
  let s := s.wr (R.wdselWdCount u) 0
  let s := { s with qm := { s.qm with lastUnit := s.qm.lastUnit.set 170 x u } }
  let s := (s.showJobs x).globalEvent 40 4 1
  if c.jRdyEn then s.signalReady c.jPool c.jFirst else s

/-- Steps 4 and 5. -/
def State.checkAndStart (s : State) (u : Nat) (c : Card) (shelf : Option Nat) : State :=
  let s := match shelf with
    | some i => s.setWindow u 15 (s.shelfWindow c.jShelfSet i).1 (s.shelfWindow c.jShelfSet i).2
    | Option.none => s
  if s.windowsOk u c.ctx then s.startJob u c shelf else s.failDispatch u c 0x7001 shelf

/-- Steps 1 to 5 for a card that has left its queue. -/
def State.dispatchCard (s : State) (u : Nat) (c : Card) : State :=
  let act := s.stepsAct u c
  let s := s.writeWindows u c.jProgram
  match act with
  | .fail code => s.failDispatch u c code Option.none
  | .none | .hold => s.checkAndStart u c Option.none
  | .use i => s.checkAndStart u c (some i)
  | .bind i =>
    let x : Sys2Proof.Machine.Shelf := { bound := true, accession := c.accession, srcChip := c.srcChip, slice := c.slice,
                                         srcQueue := c.jSrcQueue }
    (s.setShelf c.jShelfSet i x).checkAndStart u c (some i)

/-- The dispatcher takes the head card of a unit's JOB queue: none where it cannot be read (R243). -/
def State.takeJob (s : State) (u : Nat) : State × Option Card :=
  match s.dequeue .dispatch none (4 * u) (fun _ => false) with
  | (s, .card c) => (s, some c)
  | (s, _) => (s, none)

/-- A head card whose context is not ACTIVE is removed (R373). -/
def State.dropInactive (s : State) (h : Nat × Card) : State :=
  if s.ctxState h.2.ctx = 2 then s
  else match s.takeJob h.1 with
    | (t, some c) => t.postDone h.1 (s.doneCard h.1 c 0x7005 0 0 false)
    | (t, none) => t

/-- `JOB_DISPATCH`: one UCLK cycle of the dispatcher. -/
def execJobDispatch (s : State) : Res :=
  .next (if s.dispatchPaused then s else
    let s := s.headCards.foldl (fun (st : State) h => st.dropInactive h) s
    match s.pick with
    | some (u, _) => match s.takeJob u with
      | (s, some c) => s.dispatchCard u c
      | (s, none) => s
    | none => s)

end Sys2Proof.Machine
end

