-- ==== Sys2Proof/Machine/QueueCmds.lean ====
section
/-! DEFINITION. Commands on queues and cards (R238, R240, R243, R252, R255, R257–R265) and the batch assemblers
(R269–R271). -/

namespace Sys2Proof.Machine

/-! ### Enqueue and dequeue -/

/-- The context for which a requester of Table 9-4 acts: a sequencer's program's, a card's at a link port or the host port,
or an assembler's; the management controller and the device's own paths act for every context. -/
def State.agentCtx (s : State) (i : Nat) (card : Option Card) : Option Nat :=
  match agentOf i with
  | .link | .host => card.map Card.ctx
  | .seq => s.seqCtx (i - 32)
  | .asm => some (s.qCtx (s.fld (R.qmAsmCfg (i - 38)) 26 15))
  | _ => none

/-- The answer that a requester receives. -/
def State.answerQm (s : State) (i code : Nat) (c : Card) : State :=
  { s with qm := { s.qm with replies := s.qm.replies.set (0, 0) i (code, c) } }

/-- `ENQUEUE` by the requester of index `agent` (Table 9-4). -/
def execEnqueue (agent : Fin 56) (queue : Fin 4096) (card : BitVec 512) (s : State) : Res :=
  .next (
    let (s, r) := s.offer (agentOf agent) (s.agentCtx agent (some card)) queue card
    s.answerQm agent r.code card)

/-- The head belongs to a context other than the one a CONTEXT program acts for (R282). -/
def State.otherCtx (s : State) (q : Nat) (ctx : Option Nat) (c : Card) : Bool :=
  (s.qClass q == 1 || s.qClass q == 2) && (match ctx with | some x => c.ctx != x | none => false)

/-- `DEQUEUE` by the requester of index `agent`; `err`: errors of the head card's words. -/
def execDequeue (agent : Fin 56) (queue : Fin 4096) (err : Nat) (s : State) : Res :=
  .next (
    let s := s.headUpset queue err
    let ctx := s.agentCtx agent none
    match s.dequeue (agentOf agent) ctx queue (s.otherCtx queue ctx) with
    | (s, .card c) => s.answerQm agent 0 c
    | (s, .empty) => s.answerQm agent 1 idleCard
    | (s, .refused) => s.answerQm agent 2 0
    | (s, .other) => s.answerQm agent 3 0)

/-- `QUEUE_ENABLE`: a write of QCFG.EN = 1. -/
def execQueueEnable (queue : Fin 4096) (s : State) : Res := .next ((s.queueOn queue).drainHeld queue 171)

/-- `QUEUE_DISABLE`: a write of QCFG.EN = 0. -/
def execQueueDisable (queue : Fin 4096) (s : State) : Res := .next (s.queueOff queue)

/-- `FLUSH`: QM.CTRL.FLUSH on the queue that QSEL names. -/
def execFlush (s : State) : Res :=
  .next (let q := s.fld R.qmCtrl 11 0
    if s.qEn q then s.flushQueue q else s)

/-! ### Received cards -/

/-- The first CARD packet that waits from `port` (32: an agent of this chip). -/
def State.cardFrom (s : State) (port : Nat) : Option (Nat × Pkt) :=
  s.fab.chipIn.find? fun e => e.2.ptype == ptCard && e.1 == port

/-- `CARD`: the packet reaches the port's receive FIFO, and in routed mode its head is acted on; a card that an
agent of this chip sends here is handled as a routed receive (R296). -/
def execCard (port : Fin 33) (s : State) : Res :=
  .next (match s.cardFrom port with
  | none => if port.val < 32 then s.serveRx port 257 else s
  | some e =>
    let t := s.modFab fun x => { x with chipIn := x.chipIn.erase e }
    if port.val = 32 then
      match t.routeCard 32 e.2.card with
      | some t => t
      | none => s
    else match t.arriveRx port e.2.card with
      | some t => t.serveRx port 257
      | none => s.serveRx port 257)

/-- `LEAD_CARD_ENQUEUE` (R261). -/
def execLeadCardEnqueue (s : State) : Res := .next s.leadEnqueue

/-- `READINESS_SIGNAL` (R263): the signals due to the job that the unit runs. -/
def execReadinessSignal (unit : Fin 171) (s : State) : Res :=
  .next (match (s.job unit).bound with
  | some (p, f, _) => if s.hasJob unit then s.signalReady p f else s
  | none => s)

/-- `RETIRE`: a RETIRE card (R255). -/
def execRetire (card : BitVec 512) (s : State) : Res := .next (if Card.tag card = 0x14 then s.retireCard card else s)

/-- `REPLAY_REQ`: a received replay request (R257). -/
def execReplayReq (card : BitVec 512) (s : State) : Res := .next (if Card.tag card = 0x13 then s.replayReq card else s)

/-- `REPLAY_NAK` (R257). -/
def execReplayNak (card : BitVec 512) (s : State) : Res := .next (if Card.tag card = 0x16 then s.replayNak card else s)

/-! ### Shelf sets -/

/-- The conditions of an enable (R252). -/
def State.shelfSetOk (s : State) (k : Nat) : Bool :=
  let b := s.fld (R.qmShelfBase k) 33 12 * 4096
  let n := s.fld (R.qmShelfCfg k) 7 1 * (max 1 (s.fld (R.qmShelfSize k) 22 0) * 4096)
  b + n ≤ smSize && (granulesOf b n).all fun g =>
    s.granValid g && s.granOwner g == s.fld (R.qmShelfCfg k) 16 8 && s.granClass g == 1

def State.shelfSetOn (s : State) (k : Nat) : State :=
  if s.bit (R.qmShelfCfg k) 0 then s
  else if s.shelfSetOk k then (s.freeShelves k).setBit (R.qmShelfCfg k) 0 true
  else s.setBit R.qmStatus 0 true

/-- `SHELF_SET_ENABLE`. -/
def execShelfSetEnable (set : Fin 32) (s : State) : Res := .next (s.shelfSetOn set)

/-! ### Batch assemblers -/

def State.asm (s : State) (j : Nat) : Assembler := s.qm.asms.get {} j
def State.asmSrc (s : State) (j : Nat) : Nat := s.fld (R.qmAsmCfg j) 14 3
def State.asmDst (s : State) (j : Nat) : Nat := s.fld (R.qmAsmCfg j) 26 15
def State.asmTarget (s : State) (j : Nat) : Nat := 16 * (s.fld (R.qmAsmCfg j) 2 1 + 1)
def State.asmBase (s : State) (j : Nat) : Nat := s.fld (R.qmAsmRec j) 33 16 * 65536
def State.asmNext (s : State) (j : Nat) : Nat := s.fld (R.qmAsmState j) 19 14
/-- DEADLINE in ticks. -/
def State.asmDeadline (s : State) (j : Nat) : Nat := uclk (s.fld (R.qmAsmDeadline j) 23 0)

/-- Rows of a SERVE_REQ (byte 18) and its ROW_PTR (bytes 24–31). -/
def reqRows (c : Card) : Nat := Card.get c 18 1
def reqPtr (c : Card) : Nat := Card.get c 24 8
def Assembler.rows (a : Assembler) : Nat := (a.reqs.map reqRows).sum

/-- Set an assembler, and show its open batch (ASM_STATE). -/
def State.setAsm (s : State) (j : Nat) (a : Assembler) : State :=
  let s := { s with qm := { s.qm with asms := s.qm.asms.set {} j a } }
  (s.setFld (R.qmAsmState j) 6 0 a.rows).setFld (R.qmAsmState j) 13 7 a.reqs.length

/-- The conditions of an enable (R269). -/
def State.asmOk (s : State) (j : Nat) : Bool :=
  let q := s.asmSrc j
  let d := s.asmDst j
  s.qEn q && s.qClass q == 8 && s.qEn d && s.qClass d == 7 && s.qCtx q == s.qCtx d
    && s.asmBase j + 65536 ≤ smSize && (granulesOf (s.asmBase j) 65536).all fun g =>
      s.granValid g && s.granOwner g == s.qCtx d && s.granClass g == 2

def State.asmOn (s : State) (j : Nat) : State :=
  if s.bit (R.qmAsmCfg j) 0 then s
  else if s.asmOk j then ((s.setAsm j {}).setFld (R.qmAsmState j) 19 14 0).setBit (R.qmAsmCfg j) 0 true
  else s.setBit R.qmStatus 0 true

/-- `ASSEMBLER_ENABLE`. -/
def execAssemblerEnable (asm : Fin 16) (s : State) : Res := .next (s.asmOn asm)

/-- A request joins the open batch, or opens it. -/
def State.joinBatch (s : State) (j : Nat) (c : Card) : State :=
  let a := s.asm j
  let a := { a with reqs := a.reqs ++ [c], t0 := if a.reqs.isEmpty then s.now else a.t0, next := none }
  s.setAsm j { a with closing := s.asmTarget j ≤ a.rows }

/-- `SERVE_REQ`: the assembler dequeues a request from SRC (R269, R270). -/
def execServeReq (asm : Fin 16) (s : State) : Res :=
  .next (
    let a := s.asm asm
    let q := s.asmSrc asm
    let x := s.qCtx (s.asmDst asm)
    if ¬ s.bit (R.qmAsmCfg asm) 0 ∨ a.closing then s
    else match s.qHead q with
      | none => s
      | some c =>
        if c.tag ≠ 0x20 then s
        else match s.dequeue .asm (some x) q (fun _ => false) with
          | (s, .card c) =>
            let n := reqRows c
            if n = 0 ∨ 64 < n ∨ ¬ s.inPartition x (reqPtr c) 1 then s.cardEvent 0x4011 (some x) (some q) c
            else if s.asmTarget asm < a.rows + n ∧ ¬ a.reqs.isEmpty then
              s.setAsm asm { a with closing := true, next := some c }
            else s.joinBatch asm c
          | (s, _) => s)

/-- `BATCH_DEADLINE`: t0 + DEADLINE has come (R270). -/
def execBatchDeadline (asm : Fin 16) (s : State) : Res :=
  .next (
    let a := s.asm asm
    if a.reqs.isEmpty ∨ a.closing ∨ ¬ s.bit (R.qmAsmCfg asm) 0 then s
    else (s.advanceTo (a.t0 + s.asmDeadline asm)).setAsm asm { a with closing := true })

/-- The entries of a batch record (R269). -/
def batchRecord : Nat → List Card → List Byte
  | _, [] => []
  | off, c :: t =>
    natLE 4 (Card.accession c) ++ natLE 1 (reqRows c) ++ natLE 1 off ++ natLE 2 0 ++ natLE 8 (reqPtr c)
      ++ batchRecord (off + reqRows c) t

/-- The SERVE_BATCH card (R269). -/
def batchCard (x j record place : Nat) (reqs : List Card) : Card :=
  let rows := (reqs.map reqRows).sum
  let f := reqs.headD 0
  let c : Card := mkHeader 0x21 x f.accession f.layer f.oper 0 0
  let c := c.put 16 1 ((rows + 15) / 16 * 16)
  let c := c.put 17 1 rows
  let c := c.put 18 1 reqs.length
  let c := c.put 19 1 j
  let c := c.put 20 2 record
  c.put 24 8 place

/-- `BATCH_CLOSE`: the closing batch writes its record and its card, once DST and the ring have room (R269, R271). -/
def execBatchClose (asm : Fin 16) (s : State) : Res :=
  .next (
    let a := s.asm asm
    let d := s.asmDst asm
    let x := s.qCtx d
    let n := s.asmNext asm
    if ¬ s.bit (R.qmAsmCfg asm) 0 ∨ ¬ a.closing ∨ ¬ s.qEn d ∨ s.qFull d ∨ a.recBusy.any (fun r => r.1 == n) then s
    else
      let place := s.asmBase asm + 1024 * n
      let bs := batchRecord 0 a.reqs
      let s := s.memWrite place (bs ++ List.replicate (1024 - bs.length) 0)
      let s := s.accept d (batchCard x asm n place a.reqs)
      let s := s.count (R.qmAsmBatchCnt asm) 1
      let s := if a.t0 + s.asmDeadline asm < s.now then
          (s.count (R.qmAsmOverrunCnt asm) 1).raise { code := 0x4012, ctx := some x }
        else s
      let s := s.setFld (R.qmAsmState asm) 19 14 ((n + 1) % 64)
      let acc := Card.accession (a.reqs.headD 0)
      let s := s.setAsm asm { a with reqs := [], closing := false, next := none, recBusy := a.recBusy ++ [(n, acc)] }
      match a.next with
      | some c => s.joinBatch asm c
      | none => s)

end Sys2Proof.Machine
end

