-- ==== Sys2Proof/Machine/Stage.lean ====
section
/-! DEFINITION. Stage Code (R274–R300): the meaning of each instruction, performed by sequencer `q` when the word
at its PC is that instruction, and run control. -/

namespace Sys2Proof.Machine

/-! ### Words (R277, Table 10-4) -/

def swA (w : BitVec 32) : Nat := bits w 25 22
def swB (w : BitVec 32) : Nat := bits w 21 18
def swC (w : BitVec 32) : Nat := bits w 17 14
def swD (w : BitVec 32) : Nat := bits w 13 10
def swOp (w : BitVec 32) : Nat := bits w 31 26
/-- Card buffer numbers n and m, and transfer slot k. -/
def swN (w : BitVec 32) : Nat := bits w 13 12
def swM (w : BitVec 32) : Nat := bits w 11 10
def swK (w : BitVec 32) : Nat := bits w 3 0
def swImm18 (w : BitVec 32) : Word := BitVec.ofInt 64 (signed 18 (bits w 17 0))
def swImm22 (w : BitVec 32) : Word := BitVec.ofInt 64 (signed 22 (bits w 21 0))

/-- UCLK cycles of Table 10-2 for the instructions whose cycles it fixes. -/
def seqCycles (op : Nat) : Nat :=
  if [0x04, 0x09, 0x0A, 0x28, 0x2A, 0x2B, 0x2E, 0x24].contains op then 2
  else if [0x06, 0x07].contains op then 3
  else if [0x18, 0x19, 0x20, 0x1E, 0x2F, 0x1D, 0x1F].contains op then 2
  else if [0x30, 0x31].contains op then 4 else 1

/-- The sequencer runs a program, and the word at its PC has opcode `op`. -/
def State.seqReady (s : State) (q op : Nat) : Bool :=
  let st := s.seqState q
  s.bit (R.stgSeqCtrl q) 0 && (st == 2 || st == 3) && swOp (s.seqWord q) == op && !s.enginesHeld

/-- The instruction starts: counted and charged, once, where it does not continue a wait. -/
def State.seqBegin (s : State) (q op : Nat) : State :=
  let st := s.seqState q
  let s := if st = 2 then s.globalEvent (41 + q) 1 1 else s
  match s.seqCtx q with
  | some x => if st = 2 then s.account x 5 (seqCycles op) else s
  | none => s

/-- The word at the sequencer's PC, of opcode `op`, is performed. -/
def State.seqDo (s : State) (q op : Nat) (f : State → BitVec 32 → State) : State :=
  if s.seqReady q op then f (s.seqBegin q op) (s.seqWord q) else s

/-- The next word follows. -/
def State.seqNext (s : State) (q : Nat) : State := s.seqFinish q 0 0
/-- Gd is written and the next word follows. -/
def State.seqPut (s : State) (q : Nat) (w : BitVec 32) (v : Word) : State := s.seqFinish q (swA w) v
/-- The instruction holds (SEQ_STATUS.STATE 3). -/
def State.seqHold (s : State) (q : Nat) : State := s.setSeqState q 3
def State.seqGoto (s : State) (q t : Nat) : State := s.setSeqPc q t

/-! ### Reach (Table 10-3) -/

/-- Stage memory that the program may reach. -/
def State.seqReach (s : State) (q a n : Nat) : Bool :=
  match s.seqCtx q with
  | some x => s.inPartition x a n
  | none => a + n ≤ smSize && (granulesOf a n).all s.granValid

/-- A SYSTEM program's access waits for the zero fill of a granule that it touches (R212). -/
def State.seqWaits (s : State) (q a n : Nat) : Bool := s.seqSystem q && s.fillBusy a n

/-- A queue that the program may watch: none of the JOB queues, which are reached through DISP alone, and no number that is
never a queue (R237). -/
def State.seqQueue (s : State) (q n : Nat) : Bool :=
  match s.seqCtx q with
  | some x => if n < 684 then s.qClass n == 1 || s.qClass n == 2 else 1024 ≤ n && n ≤ 4094 && s.qCtx n == x
  | none => s.qEn n && s.qClass n != 0

/-- A receive FIFO that the program may use. -/
def State.seqPort (s : State) (q p : Nat) : Bool :=
  s.seqSystem q && p < 32 && s.bit (R.qmPortRx p) 0 && s.fld (R.qmPortRx p) 2 1 == q

def State.seqCard (s : State) (q n : Nat) : Card := (s.seq q).cards.get 0 n
def State.seqOrigin (s : State) (q n : Nat) : Nat := (s.seq q).origins.get 0xFFF n
def State.setSeqCard (s : State) (q n : Nat) (c : Card) : State :=
  s.modSeq q fun z => { z with cards := z.cards.set 0 n c }
def State.setOrigin (s : State) (q n o : Nat) : State :=
  s.modSeq q fun z => { z with origins := z.origins.set 0xFFF n o }

/-- A register that names a queue; a value that is no queue number names none. -/
def queueNo (v : Word) : Nat := min v.toNat 4095

/-! ### Registers, branches and data memory (R278, R279) -/

def stgAlu (fn : Nat) (a b : Word) : Word :=
  let sh := b.toNat % 64
  match fn with
  | 0 => a + b | 1 => a - b | 2 => a &&& b | 3 => a ||| b | 4 => a ^^^ b
  | 5 => a <<< sh | 6 => a >>> sh | 7 => a.sshiftRight sh
  | 8 => if a.slt b then a else b
  | 9 => if a.slt b then b else a
  | 10 => if a.ult b then a else b
  | 11 => if a.ult b then b else a
  | 12 => if a = b then 1 else 0
  | 13 => if a.slt b then 1 else 0
  | 14 => if a.ult b then 1 else 0
  | _ => a * b

def stgCond (c : Nat) (a b : Word) : Bool :=
  match c with
  | 0 => a == b | 1 => a != b | 2 => a.slt b | 3 => !a.slt b | 4 => a.ult b | 5 => !a.ult b | _ => true

def execNop (q : Fin 4) (s : State) : Res := .next (s.seqDo q 0x00 fun s _ => s.seqNext q)

def execAlu (q : Fin 4) (s : State) : Res :=
  .next (s.seqDo q 0x01 fun s w => s.seqPut q w (stgAlu (bits w 3 0) (s.g q (swB w)) (s.g q (swC w))))

def execAddi (q : Fin 4) (s : State) : Res :=
  .next (s.seqDo q 0x02 fun s w => s.seqPut q w (s.g q (swB w) + swImm18 w))

def execStgLi (q : Fin 4) (s : State) : Res := .next (s.seqDo q 0x03 fun s w => s.seqPut q w (swImm22 w))

/-- LIW takes a second word. -/
def execLiw (q : Fin 4) (s : State) : Res :=
  .next (s.seqDo q 0x04 fun s w =>
    let imm := ((s.seq q).code[s.seqPc q + 1]?).getD 0
    let v : Word := if bits w 0 0 = 0 then BitVec.ofInt 64 (signed 32 imm.toNat)
      else setBits (s.g q (swA w)) 63 32 imm.toNat
    (s.setSeqPc q (s.seqPc q + 1)).seqPut q w v)

def execStgBr (q : Fin 4) (s : State) : Res :=
  .next (s.seqDo q 0x05 fun s w =>
    if stgCond (bits w 17 15) (s.g q (swA w)) (s.g q (swB w)) then
      (match s.seqCtx q with | some x => s.account x 5 2 | none => s).seqGoto q (bits w 13 0)
    else s.seqNext q)

def execStgCall (q : Fin 4) (s : State) : Res :=
  .next (s.seqDo q 0x06 fun s w =>
    (s.modSeq q fun z => { z with link := some (s.seqPc q + 1) }).seqGoto q (bits w 13 0))

def execStgRet (q : Fin 4) (s : State) : Res :=
  .next (s.seqDo q 0x07 fun s _ =>
    (s.modSeq q fun z => { z with link := none }).seqGoto q ((s.seq q).link.getD 0))

def execHalt (q : Fin 4) (s : State) : Res := .next (s.seqDo q 0x08 fun s _ => (s.setSeqState q 4).intEvent (408 + q) 0)

/-- LDD's and STD's address, when it is a place of data memory. -/
def State.dataAddr (s : State) (q : Nat) (w : BitVec 32) : Option Nat :=
  let a := (s.g q (swB w) + swImm18 w).toNat
  if a % 8 = 0 ∧ a < 0x8000 then some a else none

def execLdd (q : Fin 4) (s : State) : Res :=
  .next (s.seqDo q 0x09 fun s w =>
    match s.dataAddr q w with
    | some a => s.seqPut q w (BitVec.ofNat 64 ((s.seq q).data.readLE a 8))
    | none => s.stageFault q 1)

def execStd (q : Fin 4) (s : State) : Res :=
  .next (s.seqDo q 0x0A fun s w =>
    match s.dataAddr q w with
    | some a => (s.modSeq q fun z => { z with data := z.data.writeLE a 8 (s.g q (swA w)).toNat }).seqNext q
    | none => s.stageFault q 1)

/-! ### Stage memory (R280) -/

/-- Account for bytes that a CONTEXT program moves (Table 13-5). -/
def State.seqBytes (s : State) (q n : Nat) : State := match s.seqCtx q with | some x => s.account x 6 n | none => s

/-- A word that a sequencer reads and that cannot be delivered (R217, Table 8-5): its code to the context. -/
def State.seqLost (s : State) (q w : Nat) : State :=
  s.raise { code := lostCode (s.memClass w), ctx := s.seqCtx q, detail := smDetail s w (128 + q) [], loc := smTier w }

/-- Read an 8-aligned word for an instruction: the state and the word, or none where it cannot be delivered. -/
def State.seqRead (s : State) (q a : Nat) : State × Option Word :=
  let (t, bs, lost) := s.memRead a 8
  match lost with
  | some w => (t.seqLost q w, none)
  | none => (t.seqBytes q 8, some (BitVec.ofNat 64 (leNat bs)))

def execLds (q : Fin 4) (upsets : List Upset) (s : State) : Res :=
  .next (s.seqDo q 0x0B fun s w =>
    let a := (s.g q (swB w) + swImm18 w).toNat
    if a % 8 ≠ 0 ∨ ¬ s.seqReach q a 8 then s.stageFault q 2
    else if s.seqWaits q a 8 then s.seqHold q
    else match (s.memUpset upsets).seqRead q a with
      | (s, some v) => s.seqPut q w v
      | (s, none) => s.seqNext q)

def execSts (q : Fin 4) (s : State) : Res :=
  .next (s.seqDo q 0x0C fun s w =>
    let a := (s.g q (swB w) + swImm18 w).toNat
    if a % 8 ≠ 0 ∨ ¬ s.seqReach q a 8 then s.stageFault q 2
    else if s.seqWaits q a 8 then s.seqHold q
    else ((s.memWrite a (natLE 8 (s.g q (swA w)).toNat)).seqBytes q 8).seqNext q)

def execMcas (q : Fin 4) (upsets : List Upset) (s : State) : Res :=
  .next (s.seqDo q 0x0D fun s w =>
    let a := (s.g q (swB w)).toNat
    if a % 8 ≠ 0 ∨ ¬ s.seqReach q a 8 then s.stageFault q 2
    else if s.seqWaits q a 8 then s.seqHold q
    else match (s.memUpset upsets).seqRead q a with
      | (s, some v) =>
        let s := if v = s.g q (swC w) then s.memWrite a (natLE 8 (s.g q (swD w)).toNat) else s
        s.seqPut q w v
      | (s, none) => s.seqNext q)

def cntKind : Nat → CntKind | 0 => .eq | 1 => .gt | 2 => .lt | 3 => .nan | 4 => .inf | _ => .nonfin

def execMcnt (q : Fin 4) (upsets : List Upset) (s : State) : Res :=
  .next (s.seqDo q 0x0E fun s w =>
    let a := (s.g q (swB w)).toNat
    let n := (s.g q (swC w)).toNat
    let f := fmtOf (bits w 9 5)
    if a % esizeAlignOf (countBytes f) ≠ 0 ∨ ¬ s.seqReach q a n then s.stageFault q 2
    else if s.seqWaits q a n then s.seqHold q
    else
      let (s', bs, lost) := (s.memUpset upsets).memRead a n
      match lost with
      | some x => (s'.seqLost q x).seqNext q
      | none => (s'.seqBytes q n).seqPut q w (BitVec.ofNat 64 (countRun f (cntKind (bits w 4 2)) (s.g q (swD w)).toNat
          (bs.take (n / countBytes f * countBytes f)))))
where
  /-- Alignment of a packing unit: that of the ESIZE of its length (Table 5-2); three bytes need none. -/
  esizeAlignOf (n : Nat) : Nat := if n = 3 then 1 else n

/-! ### Events and time (R281) -/

def execTime (q : Fin 4) (s : State) : Res :=
  .next (s.seqDo q 0x0F fun s w => s.seqPut q w (if bits w 0 0 = 0 then BitVec.ofNat 64 s.epoch else s.rd R.fabTime))

def execWatch (q : Fin 4) (s : State) : Res :=
  .next (s.seqDo q 0x10 fun s w =>
    let v := (s.g q (swB w)).toNat
    let ok : Bool := v == 0xFFF || (v < 4095 && s.seqQueue q v) || (0x1000 ≤ v && s.seqPort q (v - 0x1000))
    if ok then (s.modSeq q fun z => { z with watch := z.watch.set 0xFFF (bits w 2 0) v }).seqNext q
    else s.stageFault q 6)

/-- The source of a watch slot is non-empty. -/
def State.watchReady (s : State) (v : Nat) : Bool :=
  if v < 4095 then s.qEn v && !s.qEmpty v
  else if 0x1000 ≤ v then !(s.rx (v - 0x1000)).fifo.isEmpty else false

/-- The events that are true: watch slots at [7:0], latched events above. -/
def State.seqEvents (s : State) (q : Nat) : Nat :=
  ((List.range 8).foldl (fun n k => if s.watchReady ((s.seq q).watch.get 0xFFF k) then n + 2 ^ k else n) 0)
    ||| (s.seq q).events

def execWaite (q : Fin 4) (s : State) : Res :=
  .next (s.seqDo q 0x11 fun s w =>
    let ev := s.seqEvents q &&& bits w 11 0
    if ev = 0 then (if s.seqState q = 3 then s.globalEvent (41 + q) 2 1 else s).seqHold q
    else (s.modSeq q fun z => { z with events := z.events - (z.events &&& ev) }).seqPut q w (BitVec.ofNat 64 ev))

def execTset (q : Fin 4) (s : State) : Res :=
  .next (s.seqDo q 0x12 fun s w =>
    (s.modSeq q fun z => { z with timer := (s.g q (swB w)).toNat % 2 ^ 32, timerAt := s.ltime }).seqNext q)

/-- `TIMER_EXPIRY`: the timer has counted down. -/
def execTimerExpiry (q : Fin 4) (s : State) : Res :=
  .next (if (s.seq q).timer = 0 then s else
    (s.localTo ((s.seq q).timerAt + uclk (s.seq q).timer)).modSeq q fun z => { z with timer := 0, events := z.events ||| 512 })

def execEwait (q : Fin 4) (s : State) : Res :=
  .next (s.seqDo q 0x13 fun s w =>
    if (s.g q (swB w)).toNat ≤ s.epoch then s.seqNext q
    else (if s.seqState q = 3 then s.globalEvent (41 + q) 2 1 else s).seqHold q)

/-! ### Cards and queues (R282–R284) -/

def execDeq (q : Fin 4) (s : State) : Res :=
  .next (s.seqDo q 0x18 fun s w =>
    let n := swN w
    let qu := queueNo (s.g q (swB w))
    let ctx := s.seqCtx q
    match s.dequeue .seq ctx qu (s.otherCtx qu ctx) with
    | (s, .card c) => ((s.setSeqCard q n c).setOrigin q n qu).seqPut q w 0
    | (s, .empty) => ((s.setSeqCard q n idleCard).setOrigin q n qu).seqPut q w 1
    | (s, .refused) => s.seqPut q w 2
    | (s, .other) => s.seqPut q w 3)

def execEnq (q : Fin 4) (s : State) : Res :=
  .next (s.seqDo q 0x19 fun s w =>
    let qu := queueNo (s.g q (swB w))
    let c := s.forced q (s.seqCard q (swN w))
    if s.qClass qu = 0 then (s.cardEvent 0x4002 (s.seqCtx q) (some qu) c).seqPut q w 2
    else
      let (s, r) := s.offer .seq (s.seqCtx q) qu c
      s.seqPut q w (BitVec.ofNat 64 r.code))

def execCget (q : Fin 4) (s : State) : Res :=
  .next (s.seqDo q 0x1A fun s w =>
    s.seqPut q w (BitVec.ofNat 64 (Card.get (s.seqCard q (swN w)) (bits w 9 4) (2 ^ bits w 3 2))))

def execCput (q : Fin 4) (s : State) : Res :=
  .next (s.seqDo q 0x1B fun s w =>
    let c := Card.put (s.seqCard q (swN w)) (bits w 9 4) (2 ^ bits w 3 2) (s.g q (swB w)).toNat
    (s.setSeqCard q (swN w) c).seqNext q)

def execCclr (q : Fin 4) (s : State) : Res :=
  .next (if bits (s.seqWord q) 0 0 = 0 then
    s.seqDo q 0x1C fun s w => ((s.setSeqCard q (swN w) 0).setOrigin q (swN w) 0xFFF).seqNext q
  else s)

def execCcopy (q : Fin 4) (s : State) : Res :=
  .next (if bits (s.seqWord q) 0 0 = 1 then
    s.seqDo q 0x1C fun s w =>
      ((s.setSeqCard q (swN w) (s.seqCard q (swM w))).setOrigin q (swN w) (s.seqOrigin q (swM w))).seqNext q
  else s)

/-- A queue that the program may flush (Table 10-3): of a CONTEXT program one of its own, or a DONE or EVENT queue in which
no card of another context stands. -/
def State.mayFlush (s : State) (q qu : Nat) : Bool :=
  s.qEn qu && (match s.seqCtx q with
    | some x =>
      if s.qClass qu == 1 || s.qClass qu == 2 then (s.qCards qu).all fun c => c.ctx == x
      else decide (3 ≤ s.qClass qu) && s.qCtx qu == x
    | none => s.qClass qu != 0)

def execQflush (q : Fin 4) (s : State) : Res :=
  .next (s.seqDo q 0x1D fun s w =>
    let qu := queueNo (s.g q (swB w))
    (if s.mayFlush q qu then s.flushQueue qu else s.raise { code := 0x4002, ctx := s.seqCtx q }).seqNext q)

/-- A card of the packet that is current on a direct port (R260). -/
def currentAfter (cur : Bool) (c : Card) : Bool := if Card.tag c = 0x12 then !Card.last c else cur

def execRxdeq (q : Fin 4) (s : State) : Res :=
  .next (s.seqDo q 0x1E fun s w =>
    let p := (s.g q (swB w)).toNat
    if ¬ s.seqPort q p then s.stageFault q 6
    else match (s.rx p).fifo with
      | [] => s.seqPut q w 1
      | c :: rest =>
        let s := s.setRx p { s.rx p with fifo := rest, current := currentAfter (s.rx p).current c }
        ((s.setSeqCard q (swN w) c).setOrigin q (swN w) 0xFFF).seqPut q w 0)

def execRxdrop (q : Fin 4) (s : State) : Res :=
  .next (s.seqDo q 0x1F fun s w =>
    let p := (s.g q (swB w)).toNat
    if ¬ s.seqPort q p then s.stageFault q 6 else (s.rxDrop p).seqNext q)

/-! ### Jobs and schedule tables (R266–R268, R285–R288) -/

/-- The job card that DISP offers: forced to the program's own context where it has one. -/
def State.dispCard (s : State) (q : Nat) (w : BitVec 32) : Card := s.forced q (s.seqCard q (swN w))

def execDisp (q : Fin 4) (s : State) : Res :=
  .next (s.seqDo q 0x20 fun s w =>
    let c := s.dispCard q w
    if c.tag ≠ 0x01 ∨ 170 < c.jUnit then s.stageFault q 5
    else
      let (s, r) := s.offer .seq (s.seqCtx q) (4 * c.jUnit) c
      s.seqPut q w (BitVec.ofNat 64 r.code))

/-- A schedule table entry (Table 9-11). -/
abbrev SchedEntry := BitVec 32
def SchedEntry.op (e : SchedEntry) : Nat := bits e 3 0
def SchedEntry.vstage (e : SchedEntry) : Nat := bits e 7 4
def SchedEntry.mb (e : SchedEntry) : Nat := bits e 13 8

/-- The entries up to the first END, among at most 4,096. -/
def State.tableEntries (s : State) (a : Nat) : Nat → Option (List SchedEntry)
  | 0 => none
  | n + 1 =>
    let e : SchedEntry := BitVec.ofNat 32 (leNat (s.memBytes a 4))
    if SchedEntry.op e = 0 then (if bits e 31 14 = 0 then some [] else none)
    else if 5 < SchedEntry.op e ∨ bits e 31 14 ≠ 0 then none
    else (s.tableEntries (a + 4) n).map fun t => e :: t

/-- Check 2 for one pair: one FWD, then nothing, one BWD, or one BWD_IN followed by one BWD_W. -/
def pairOk (fwdOnly : Bool) (ops : List Nat) : Bool :=
  ops == [1, 2] || ops == [1, 3, 4] || (fwdOnly && ops == [1])

/-- Check 4: the pairs that hold shelves, in table order. -/
def shelvesOk (setOf : Nat → Nat) (room : Nat → Nat) : List SchedEntry → List (Nat × Nat) → Bool
  | [], _ => true
  | e :: t, held =>
    let p := (SchedEntry.vstage e, SchedEntry.mb e)
    let held := if SchedEntry.op e = 1 then held ++ [p] else held
    let here := held.filter fun h => setOf h.1 == setOf p.1
    here.length ≤ room (setOf p.1) && held.length ≤ 64 &&
      shelvesOk setOf room t (if SchedEntry.op e = 2 ∨ SchedEntry.op e = 4 then held.erase p else held)

/-- UPDATE entries (check 3): at most one to a virtual stage, after every backward entry of it. -/
def updatesOk : List SchedEntry → Bool
  | [] => true
  | e :: t =>
    (SchedEntry.op e != 5 || t.all fun f => SchedEntry.vstage f != SchedEntry.vstage e ||
      (SchedEntry.op f != 5 && SchedEntry.op f != 2 && SchedEntry.op f != 3 && SchedEntry.op f != 4)) && updatesOk t

/-- The checks of R268 on the table of sequencer `q`. -/
def State.tableOk (s : State) (q : Nat) (es : List SchedEntry) : Bool :=
  let jobs := es.filter fun e => SchedEntry.op e != 5
  let fwdOnly := es.all fun e => SchedEntry.op e == 1 || SchedEntry.op e == 5
  let pairs := (es.map fun e => (SchedEntry.vstage e, SchedEntry.mb e)).eraseDups
  let setOf (v : Nat) : Nat := s.fld (R.qmVsmap q v) 52 48
  es.all (fun e => s.bit (R.qmVsmap q (SchedEntry.vstage e)) 53)
    && pairs.all (fun p => pairOk fwdOnly ((jobs.filter fun e => SchedEntry.vstage e == p.1 && SchedEntry.mb e == p.2).map
        SchedEntry.op))
    && updatesOk es
    && (fwdOnly || shelvesOk setOf (fun k => s.fld (R.qmShelfCfg k) 7 1) jobs [])

/-- What TBIND holds of a sound table at `a`, in the partition of context `x` (R266). -/
def bindTable (a x accBase : Nat) (es : List SchedEntry) : BoundTable :=
  { addr := a, entries := es.length, ctx := x, accBase
    fwdOnly := es.all fun e => SchedEntry.op e == 1 || SchedEntry.op e == 5
    maxMb := es.foldl (fun n e => max n (SchedEntry.mb e)) 0 }

/-- The entries that a bind reads: through the first END or the first that breaks check 1, among at most 4,096. -/
def State.tableRead (s : State) (a : Nat) : Nat → Nat
  | 0 => 0
  | n + 1 =>
    let e : SchedEntry := BitVec.ofNat 32 (leNat (s.memBytes a 4))
    if SchedEntry.op e = 0 ∨ 5 < SchedEntry.op e ∨ bits e 31 14 ≠ 0 then 1 else s.tableRead (a + 4) n + 1

def execTbind (q : Fin 4) (s : State) : Res :=
  .next (s.seqDo q 0x21 fun s w =>
    let a := (s.g q (swB w)).toNat
    let x := s.granOwner (smGranule a)
    let n := 4 * s.tableRead a 4096
    if ¬ s.seqReach q a n then s.stageFault q 6
    else if s.seqWaits q a n then s.seqHold q
    else
      let (s', _, lost) := s.memRead a n
      let s' := s'.seqBytes q n
      match lost with
      | some k => (s'.seqLost q k).seqNext q
      | none =>
        match s.tableEntries a 4096 with
        | none => (s'.raise { code := 0x400F, ctx := some x }).seqNext q
        | some es =>
          if s'.tableOk q es then
            (s'.modSeq q fun z => { z with table := some (bindTable a x (s'.g q (swC w)).toNat es) }).seqNext q
          else (s'.raise { code := 0x400F, ctx := some x }).seqNext q)

/-- SHELF_OP of an entry (R267). -/
def shelfOpOf (fwdOnly : Bool) (op : Nat) : Nat :=
  if op = 1 then (if fwdOnly then 0 else 1) else if op = 2 ∨ op = 4 then 3 else if op = 3 then 2 else 0

/-- The job card that TNEXT fills in (R287). -/
def tableCard (b : BoundTable) (e : SchedEntry) (acc set : Nat) : Card :=
  let c : Card := mkHeader 0x01 b.ctx acc 0 0 0 0
  let c := c.put 19 1 (SchedEntry.op e - 1)
  setBits (setBits c 182 178 set) 184 183 (shelfOpOf b.fwdOnly (SchedEntry.op e))

def execTnext (q : Fin 4) (upsets : List Upset) (s : State) : Res :=
  .next (s.seqDo q 0x22 fun s w =>
    match (s.seq q).table with
    | none => s.stageFault q 7
    | some b =>
     if ¬ s.seqReach q (b.addr + 4 * b.ptr) 4 then s.stageFault q 6
     else if s.seqWaits q (b.addr + 4 * b.ptr) 4 then s.seqHold q
     else
      let (s', bs, lost) := (s.memUpset upsets).memRead (b.addr + 4 * b.ptr) 4
      match lost with
      | some x => (s'.seqLost q x).seqNext q
      | none =>
        let e : SchedEntry := BitVec.ofNat 32 (leNat bs)
        let v := s'.rd (R.qmVsmap q (SchedEntry.vstage e))
        if SchedEntry.op e = 0 then
          let s := s'.seqPut q w 0
          match s.seqCtx q with | some x => s.scheduleEnd x | none => s
        else if bits v 53 53 = 0 then s.stageFault q 7
        else
          let acc := (b.accBase + if SchedEntry.op e = 5 then b.maxMb else SchedEntry.mb e) % 2 ^ 32
          let s := (s'.seqBytes q 4).modSeq q fun z => { z with table := some { b with ptr := b.ptr + 1 } }
          let s := (s.setSeqCard q (swN w) (tableCard b e acc (bits v 52 48))).setOrigin q (swN w) 0xFFF
          s.seqPut q w (BitVec.ofNat 64 (e.toNat + acc * 2 ^ 32)))

def execJlink (q : Fin 4) (s : State) : Res :=
  .next (s.seqDo q 0x23 fun s w =>
    let m := s.seqCard q (swM w)
    let c := s.seqCard q (swN w)
    if m.tag ≠ 0x10 ∧ m.tag ≠ 0x11 then s.stageFault q 5
    else
      let c : Card := setBits (setBits c 115 96 m.srcChip) 127 116 m.slice
      let c : Card := setBits c 511 500 (m.get 38 2 % 4096)
      let c : Card := setBits (setBits c 486 480 m.xPool) 498 487 m.xFirst
      let c : Card := if m.tag = 0x11 then setBits c 499 499 1 else c
      (s.setSeqCard q (swN w) c).seqNext q)

def execPwin (q : Fin 4) (s : State) : Res :=
  .next (s.seqDo q 0x24 fun s w =>
    let h := (s.g q (swA w)).toNat
    let n := (s.g q (swB w)).toNat
    let b := (s.g q (swC w)).toNat
    let z := (s.g q (swD w)).toNat
    let p := s.progs.get {} h
    let reach : Bool := h < 1024 && (match s.seqCtx q with | some x => !p.code.isEmpty && p.ctx == x | none => true)
    if reach ∧ n < 16 ∧ b % 4096 = 0 ∧ z % 4096 = 0 ∧ b < 2 ^ 34 ∧ z < 2 ^ 35 then
      ({ s with wintab := s.wintab.set (0, 0) (16 * h + n) (b, z) }).seqNext q
    else s.stageFault q 6)

/-! ### Transfers (R289–R296) -/

/-- The CREDIT_REQ of a slot (R291). -/
def State.slotRequest (s : State) (q k : Nat) : State :=
  let c := s.forced q (s.slot q k).card
  let tag := s.slotGen q k * 64 + q * 16 + k
  let p := mkCreditReq c.sDest s.chip c.slice c.sPool c.sCount tag
  if c.sDest = s.chip then s.toChip (32 + q) p else (s.sendPkt p (some c.ctx)).1

def execXreq (q : Fin 4) (s : State) : Res :=
  .next (s.seqDo q 0x28 fun s w =>
    let k := swK w
    let c := s.seqCard q (swN w)
    if s.slotState q k ≠ 0 ∧ s.slotState q k ≠ 3 then s.stageFault q 3
    else if ¬ c.sendOk then s.stageFault q 4
    else
      let s := if s.slotState q k = 3 then s.advanceTo ((s.slot q k).since + uclk 64) else s
      let s := s.setSlot q k { card := c, origin := s.seqOrigin q (swN w), since := s.now }
      let s := s.setFld (R.stgXslot q k) 24 23 (s.slotGen q k + 1)
      ((s.setSlotState q k 1).slotRequest q k).seqNext q)

def execXstat (q : Fin 4) (s : State) : Res :=
  .next (s.seqDo q 0x29 fun s w => s.seqPut q w (BitVec.ofNat 64 (s.fld (R.stgXslot q (swK w)) 22 0)))

/-- The XLEAD of a transfer whose card asks for it. -/
def State.sendLead (s : State) (q k : Nat) : State :=
  if (s.slot q k).card.sLead then s.sendXfer q k (s.xferCard q k 0x11) else s

def execXmove (q : Fin 4) (upsets : List Upset) (s : State) : Res :=
  .next (s.seqDo q 0x2A fun s w =>
    let k := swK w
    let c := (s.slot q k).card
    if s.slotState q k ≠ 2 then s.stageFault q 3
    else if ¬ s.seqReach q c.sSrc c.sBytes then s.stageFault q 2
    else if s.seqWaits q c.sSrc c.sBytes then s.seqHold q
    else
      let s := ((s.memUpset upsets).sendLead q k).setSlotState q k 6
      ((s.setSlot q k { s.slot q k with moving := true, sent := 0 }).pump q k pumpFuel).seqNext q)

def execXbind (q : Fin 4) (s : State) : Res :=
  .next (s.seqDo q 0x2B fun s w =>
    let k := swK w
    let b := 16 * q.val + bits w 7 4
    let taken := (List.range 16).any fun j => s.slotState q j == 7 && (s.slot q j).buffer == some b
    if s.slotState q k ≠ 2 ∨ taken then s.stageFault q 3
    else
      let x : XSlot := { s.slot q k with buffer := some b, unit := (s.g q (swB w)).toNat, accepting := true }
      let s := (s.setSlot q k x).setSlotState q k 7
      (s.sendLead q k).seqNext q)

def execXdone (q : Fin 4) (s : State) : Res :=
  .next (s.seqDo q 0x2C fun s w =>
    let k := swK w
    let st := s.slotState q k
    if s.seqState q = 3 then s
    else if st = 6 ∨ st = 7 ∨ st = 8 ∨ st = 10 then
      let s := if st = 7 then s.setSlot q k { s.slot q k with accepting := false } else s
      let s := (s.seqHold q).modSeq q fun z => { z with xdone := some k }
      s.xdoneTry q k
    else s.stageFault q 3)

def execXfree (q : Fin 4) (s : State) : Res :=
  .next (s.seqDo q 0x2D fun s w =>
    let k := swK w
    let st := s.slotState q k
    if st = 3 ∨ st = 4 ∨ st = 9 then ((s.setSlot q k {}).setSlotState q k 0).seqNext q
    else if st = 5 then
      (if (s.slot q k).freeing then s
       else s.setSlot q k { s.slot q k with freeing := true, epoch := s.epoch + 2 }).seqNext q
    else s.stageFault q 3)

def execCrel (q : Fin 4) (s : State) : Res :=
  .next (s.seqDo q 0x2E fun s w =>
    let i := (s.g q (swB w)).toNat
    let first := (s.g q (swC w)).toNat
    let n := (s.g q (swD w)).toNat
    let reach : Bool := i < 128 && (match s.seqCtx q with | some x => s.poolCtx i == x | none => true)
    if ¬ reach then s.stageFault q 6
    else
      let z := s.poolSlots i
      let ks := slotRun z first (min n 4096)
      if z ≤ first ∨ z < n ∨ ks.any fun k => (s.pool i).slots.get 0 k != 2 then
        (s.raise { code := 0x300A, ctx := some (s.poolCtx i), loc := i,
                   detail := smDetail s (s.poolBase i + min first 4095 * s.slotSize i) (128 + q) [] }).seqNext q
      else (s.releaseSlots i ks).seqNext q)

/-- Tags that XCARD may send (Table 10-3). -/
def State.xcardTag (s : State) (q t : Nat) : Bool :=
  t == 0x12 || t == 0x14 || (0xF0 ≤ t && t ≤ 0xFF) || (t == 0x13 && s.seqSystem q)

def execXcard (q : Fin 4) (s : State) : Res :=
  .next (s.seqDo q 0x2F fun s w =>
    let d := (s.g q (swB w)).toNat % 2 ^ 20
    let c := s.forced q (s.seqCard q (swN w))
    if ¬ s.xcardTag q c.tag then s.stageFault q 5
    else
      let p := mkCard d s.chip c.slice c
      let s := if d = s.chip then s.toChip 32 p else ((s.sendPkt p (some c.ctx)).1).account c.ctx 7 (16 + 64)
      s.seqNext q)

/-! ### Run control (R274, R299) -/

/-- The state that a program starts with. -/
def State.seqStart (s : State) (q : Nat) : State :=
  let z := s.seq q
  let z' : Seqr := { loaded := true, code := z.code, entry := z.entry, level := z.level, ctx := z.ctx, init := z.init,
                     digest := z.digest, data := Tab.writeBytes [] 0 z.init }
  let s := s.setSeq q z'
  let s := s.clearRegs ((List.range 16).map (R.stgGreg q) ++ (List.range 16).map (R.stgXslot q))
  let s := s.setG q 1 (BitVec.ofNat 64 q)
  let s := s.setG q 2 (BitVec.ofNat 64 (if z.level = 1 then 0x1FF else z.ctx))
  let s := s.setG q 3 (if s.rollDone then BitVec.ofNat 64 s.chip else 0)
  s.setSeqPc q z.entry

/-- RUN is set: a program loaded and not yet started, halted or faulted starts at ENTRY; a stopped one goes on. -/
def State.seqRun (s : State) (q : Nat) : State :=
  if s.bit (R.stgSeqCtrl q) 0 ∨ ¬ (s.seq q).loaded then s
  else
    let st := s.seqState q
    let s := if (s.seq q).fresh ∨ st = 4 ∨ st = 5 then s.seqStart q else s
    (s.setBit (R.stgSeqCtrl q) 0 true).setSeqState q 2

/-- RUN is cleared: the sequencer stops at the instruction boundary; a wait in progress is abandoned. -/
def State.seqStop (s : State) (q : Nat) : State :=
  let s := s.setBit (R.stgSeqCtrl q) 0 false
  let s := s.modSeq q fun z => { z with xdone := none }
  if s.seqState q = 2 ∨ s.seqState q = 3 then s.setSeqState q 1 else s

/-- `RUN`: a write of SEQ_CTRL.RUN = 1. -/
def execRun (q : Fin 4) (s : State) : Res := .next (s.seqRun q)

/-- `RUN_CLEAR`: a write of SEQ_CTRL.RUN = 0. -/
def execRunClear (q : Fin 4) (s : State) : Res := .next (s.seqStop q)

/-- XTIMEOUT in ticks (Table 10-11). -/
def State.xtimeout (s : State) (q : Nat) : Nat := uclk (max 1 (s.fld (R.stgXtimeout q) 23 0))

/-- `XTIMEOUT`: a requested slot has had no reply for XTIMEOUT (R290, R379). -/
def execXtimeout (q : Fin 4) (k : Fin 16) (s : State) : Res :=
  .next (if s.slotState q k = 1 then
    let x := s.slot q k
    let s := s.advanceTo (x.since + s.xtimeout q)
    if x.closing then (s.setSlot q k {}).setSlotState q k 0 else s.setSlotState q k 5
  else s)

/-! ### Closing a stopped sequencer's transfers (R379) -/

def State.closeSlot (s : State) (q k : Nat) : State :=
  let st := s.slotState q k
  let x := s.slot q k
  if st = 0 then s
  else if st = 1 then s.setSlot q k { x with closing := true }
  else if st = 3 ∨ st = 4 ∨ st = 9 then (s.setSlot q k {}).setSlotState q k 0
  else if st = 5 then
    s.setSlot q k { x with closing := true, freeing := true, epoch := if x.freeing then x.epoch else s.epoch + 2 }
  else ((s.setSlot q k { x with closing := true, accepting := false, staging := [] }).settleWaits q).closeTry q k

/-- The sequencers that run, or ran when they were stopped, a CONTEXT program of context `x`. -/
def State.ctxSeqs (s : State) (x : Nat) : List Nat :=
  (List.range 4).filter fun q => (s.seq q).loaded && s.seqCtx q == some x

def State.closeSlots (s : State) (x : Nat) : State :=
  (s.ctxSeqs x).foldl (fun (st : State) q =>
    (List.range 16).foldl (fun (z : State) k => if (z.slot q k).closing then z else z.closeSlot q k) st) s

/-- No transfer slot of the context's sequencers waits for landing writes: each is IDLE, or waits for its epoch or for a
reply to a request that stands (R378, R379). -/
def State.slotsIdle (s : State) (x : Nat) : Bool :=
  (s.ctxSeqs x).all fun q => (List.range 16).all fun k => [0, 1, 5].contains (s.slotState q k)

end Sys2Proof.Machine
end

