-- ==== Sys2Proof/Machine/Contexts.lean ====
section
/-! DEFINITION. Context commands, the end of tear-down and halt, spill and restore, energy accounts (R369, R378–R383). -/

namespace Sys2Proof.Machine

/-- A command or write of the CTX page is refused. -/
def State.ctxErr (s : State) : State := s.intEvent 497 0

/-- CREATE (Table 13-2): accounts and C_MEAS zeroed (R472), C_CAUSE cleared, the context's time origin taken (R447). -/
def State.ctxCreate (s : State) (x : Nat) : State :=
  if s.ctxState x = 0 then
    let s := s.clearRegs ((List.range 11).map (R.ctxselAcc x) ++ (List.range 12).map (R.trustselCMeas x))
    let s := s.wr (R.ctxselCCause x) 0
    let s := { s with recov := { s.recov with energy := s.recov.energy.set 0 x 0 } }
    let s := { s with obs := { s.obs with origin := s.obs.origin.set 0 x s.ltime } }
    s.setCtxState x 1
  else s.ctxErr

def State.ctxResume (s : State) (x : Nat) : State := if s.ctxState x = 1 then s.setCtxState x 2 else s.ctxErr

/-- HALT (R380): no new job starts, and RUN is cleared on the context's sequencers. -/
def State.ctxHalt (s : State) (x : Nat) : State :=
  if s.ctxState x = 2 then (s.setCtxState x 3).stopSeqs x else s.ctxErr

/-- TEARDOWN (R378), with the steps that nothing waits for. -/
def State.ctxTeardown (s : State) (x : Nat) : State :=
  if s.ctxState x = 2 ∨ s.ctxState x = 3 then
    ((s.raise { code := 0x7006, ctx := some x }).closeSlots x).tearSettle x
  else s.ctxErr

/-- Anything configurable of the context is enabled (R381). -/
def State.ctxEnabled (s : State) (x : Nat) : Bool :=
  !(s.ctxQueues x).isEmpty || (List.range 128).any (fun i => s.poolEn i && s.poolCtx i == x)
    || (List.range 32).any (fun k => s.bit (R.qmShelfCfg k) 0 && s.fld (R.qmShelfCfg k) 16 8 == x)
    || (List.range 16).any (fun k => s.bit (R.qmAsmCfg k) 0 && s.qCtx (s.fld (R.qmAsmCfg k) 26 15) == x)

/-- The granules of a context's partition. -/
def State.partition (s : State) (x : Nat) : List Nat :=
  (List.range 512).filter fun g => s.granValid g && s.granOwner g == x

/-- SPILL begins: C_GRANULES records the partition; the class of each granule is kept for RESTORE. -/
def State.ctxSpill (s : State) (x : Nat) : State :=
  if s.ctxState x = 1 ∧ ¬ s.ctxEnabled x then
    let gs := s.partition x
    let word (i : Nat) : Nat := (gs.filter fun g => g / 32 == i).foldl (fun a g => a + 2 ^ (g % 32)) 0
    let s := (List.range 16).foldl (fun (st : State) i => st.wr (R.ctxselCGranules x i) (BitVec.ofNat 64 (word i))) s
    let cls := gs.foldl (fun t g => t.set 0 (512 * x + g) (s.granClass g + 1)) s.recov.spilled
    ({ s with recov := { s.recov with spilled := cls } }).setCtxState x 6
  else s.ctxErr

/-- The granules that C_GRANULES records. -/
def State.recorded (s : State) (x : Nat) : List Nat :=
  (List.range 512).filter fun g => s.bit (R.ctxselCGranules x (g / 32)) (g % 32)

/-- The context holds exactly the recorded granules, each with its former class. -/
def State.heldAgain (s : State) (x : Nat) : Bool :=
  s.partition x == s.recorded x && (s.recorded x).all fun g => s.recov.spilled.get 0 (512 * x + g) == s.granClass g + 1

/-- RESTORE begins. -/
def State.ctxRestore (s : State) (x : Nat) : State :=
  if s.ctxState x = 5 ∧ s.heldAgain x then s.setCtxState x 7 else s.ctxErr

/-- Give a granule back (R212). -/
def State.returnGranule (s : State) (g : Nat) : State := s.granuleWrite g (setBits (s.rd (R.smemcGranule g)) 9 9 0)

/-- RELEASE: handles unloaded, queues and pools disabled, granules returned, the debug unlock ended (R480). -/
def State.ctxRelease (s : State) (x : Nat) : State :=
  if s.ctxState x = 1 ∨ s.ctxState x = 5 then
    let hs := (s.progs.filter fun p => p.2.ctx == x).map (·.1)
    let s := { s with progs := s.progs.filter fun p => p.2.ctx != x,
                      wintab := s.wintab.filter fun w => !hs.contains (w.1 / 16) }
    let s := (s.ctxSeqs x).foldl (fun (st : State) q => (st.setSeq q {}).setSeqState q 0) s
    let s := s.withdraw x
    let s := (s.partition x).foldl (fun (st : State) g => st.returnGranule g) s
    let s := (s.setBit (R.trustselCSigpol x) 5 false).setBit (R.obsselCBufBase x) 0 false
    s.setCtxState x 0
  else s.ctxErr

/-- A command of Table 13-2 by its code: refused until PHASE has reached READY (R536); CREATE, under a device-wide
debug unlock (R479). -/
def State.ctxCommand (s : State) (op x : Nat) : State :=
  if op = 0 then s
  else if ¬ s.start.ready ∨ (op = 1 ∧ s.bit R.trustLifecycle 2 ∧ s.fld R.trustLifecycle 1 0 = 1) then s.ctxErr
  else match op with
    | 1 => s.ctxCreate x
    | 2 => s.ctxResume x
    | 3 => s.ctxHalt x
    | 4 => s.ctxTeardown x
    | 5 => s.ctxSpill x
    | 6 => s.ctxRestore x
    | _ => s.ctxRelease x

def execCreate (ctx : Fin 512) (s : State) : Res := .next (s.ctxCommand 1 ctx)
def execResumeCtx (ctx : Fin 512) (s : State) : Res := .next (s.ctxCommand 2 ctx)
def execHaltCtx (ctx : Fin 512) (s : State) : Res := .next (s.ctxCommand 3 ctx)
def execTeardown (ctx : Fin 512) (s : State) : Res := .next (s.ctxCommand 4 ctx)
def execSpill (ctx : Fin 512) (s : State) : Res := .next (s.ctxCommand 5 ctx)
def execRestore (ctx : Fin 512) (s : State) : Res := .next (s.ctxCommand 6 ctx)
def execRelease (ctx : Fin 512) (s : State) : Res := .next (s.ctxCommand 7 ctx)

/-- HALTED is reached: C_CAUSE.VALID, and the advisory CTX_HALTED with the cause. -/
def State.haltReached (s : State) (x : Nat) : State :=
  let cause := s.fld (R.ctxselCCause x) 15 0
  let s := (s.setBit (R.ctxselCCause x) 16 true).setCtxState x 1
  s.raise { code := 0x7007, ctx := some x, detail := [(2, cause)] }

/-- R378 step 8, R380: everything a tear-down or halt waits for is done. -/
def execCtxHalted (ctx : Fin 512) (s : State) : Res :=
  let x := ctx.val
  if s.ctxState x = 4 then
    if (s.ctxUnits x).isEmpty then
      let s := (s.closeSlots x).withdraw x
      .next (if s.slotsIdle x then (s.haltReached x).repairEnd 4 else s)
    else .next s
  else if s.ctxState x = 3 then
    if (s.ctxUnits x).isEmpty ∧ (s.ctxSeqs x).all fun q => !s.bit (R.stgSeqCtrl q) 0 then
      .next ((s.setFld (R.ctxselCCause x) 15 0 0).haltReached x)
    else .next s
  else .next s

/-! ### Spill and restore (R381) -/

/-- SPILL_ABORT. -/
def State.spillAbort (s : State) (x back : Nat) : State :=
  ((s.setCtxState x back).intEvent 497 2).raise { code := 0x7008, ctx := some x }

/-- Bytes of a partition moved by the host port for its context. -/
def State.accountMove (s : State) (x : Nat) : State :=
  let n := (s.recorded x).length * 2 ^ 25
  (((s.account x 9 n).account x 6 n).globalEvent 49 (if s.ctxState x = 6 then 2 else 1) n)

/-- One spill write (R492): 512 bytes at `a` go to host address `h`; of a word that is lost the bytes are open. -/
def State.spillWrite (s : State) (a h : Nat) : State :=
  let (s, bs, lost) := s.memRead a 512
  let bs := if lost.isSome then natLE 512 (Config.freeBits s.freeCtr) else bs
  { s with freeCtr := s.freeCtr + (if lost.isSome then 1 else 0), host := { s.host with out := s.host.out ++ [(h, bs)] } }

/-- The spill image, 32 MiB to each granule in ascending order. -/
def State.spillOut (s : State) (x : Nat) : State :=
  let base := s.fld (R.ctxselCSpill x) 63 12 * 4096
  (s.partition x).zipIdx.foldl (fun (st : State) (p : Nat × Nat) =>
    (List.range 65536).foldl (fun (z : State) j => z.spillWrite (p.1 * 2 ^ 25 + 512 * j) (base + p.2 * 2 ^ 25 + 512 * j)) st) s

/-- The last spill write completes, or the host port fails. -/
def execSpillDone (ctx : Fin 512) (ok : Bool) (s : State) : Res :=
  let x := ctx.val
  if s.ctxState x ≠ 6 then .next s
  else if ok then
    let s := (s.accountMove x).spillOut x
    let s := (s.partition x).foldl (fun (st : State) g => st.returnGranule g) s
    .next (s.setCtxState x 5)
  else .next (s.spillAbort x 1)

/-- A restore fails: the granules are returned to FREE as they came, and zeroed (Table 13-5). -/
def State.restoreAbort (s : State) (x : Nat) : State :=
  let s := s.spillAbort x 5
  (s.partition x).foldl (fun (st : State) g => (st.zeroGranule g).setBit (R.smemcGranule g) 12 true) s

/-- The restore copy ends: `image` is what host memory held, as runs of bytes at their local addresses. -/
def execRestoreDone (ctx : Fin 512) (ok : Bool) (image : List (Nat × List Byte)) (s : State) : Res :=
  let x := ctx.val
  if s.ctxState x ≠ 7 then .next s
  else if ok then
    let s := s.accountMove x
    let gs := s.partition x
    let s := (image.filter fun r => (granulesOf r.1 r.2.length).all gs.contains).foldl
      (fun (st : State) r => st.memWrite r.1 r.2) s
    .next (s.setCtxState x 1)
  else .next (s.restoreAbort x)

/-! ### Energy (R383) -/

/-- Add nanojoules to a context's account, or (512) to IDLE_ENERGY. -/
def State.addEnergy (s : State) (x nj : Nat) : State :=
  let n := s.recov.energy.get 0 x + nj
  let s := { s with recov := { s.recov with energy := s.recov.energy.set 0 x (n % 1000) } }
  if x < 512 then s.account x 10 (n / 1000) else s.count64 R.ctxIdleEnergy (n / 1000)

/-- The energy of one domain since the last apportionment, by the activity of each context in it; what division leaves
is shared in the next interval. -/
def State.shareEnergy (s : State) (d : Nat) (acts : List (Nat × Nat)) : State :=
  let e := s.power.unshared.get 0 d
  let acts := if d = 47 then [] else acts.filter fun a => a.1 < 512
  let total := (acts.map (·.2)).sum
  let shared := (acts.map fun a => e * a.2 / total).sum
  let s := { s with power := { s.power with unshared := s.power.unshared.set 0 d (if total = 0 then 0 else e - shared) } }
  if total = 0 then s.addEnergy 512 e
  else acts.foldl (fun (z : State) a => z.addEnergy a.1 (e * a.2 / total)) s

/-- One interval: for each domain in order, the activity (Table 13-6) of each context in it. -/
def execEnergyApportion (acts : List (List (Nat × Nat))) (s : State) : Res :=
  .next ((List.range 48).foldl (fun (st : State) d => st.shareEnergy d (acts.getD d [])) s)

end Sys2Proof.Machine
end

