-- ==== Sys2Proof/Machine/Sparing.lean ====
section
/-! DEFINITION. Sparing thresholds, slot retirement, array self-test, the queue manager's copies, and the recovery
machine's commands (R393–R399, R410). -/

namespace Sys2Proof.Machine

/-! ### Clearing -/

/-- The registers of a page take their reset values. -/
def State.clearPage (s : State) (pg : Nat) : State := { s with regs := s.regs.filter fun e => e.1 / 4096 != pg }

/-- The scratchpad and the engines of a core are cleared. -/
def State.wipeCore (s : State) (c : Nat) : State :=
  let lo := spadKey c 0
  let hi := spadKey (c + 1) 0
  let s := { s with spad := s.spad.clearRange lo hi, spadEcc := s.spadEcc.clearRange lo hi,
                    spadOwed := s.spadOwed.filter fun k => k < lo || hi ≤ k, cores := s.cores.erase c }
  (s.clearPage c).clearPage (256 + c)

/-! ### Retiring a slot (R394) -/

/-- Every unit that shares a core with pod `p`. -/
def podUnits (p : Nat) : List Nat := (List.range 171).filter fun u => overlap u (128 + p)

/-- A slot serves one of its pod's cores (R14). -/
def State.slotServes (s : State) (slot : Nat) : Bool :=
  (List.range 4).any fun i => s.fld (R.podSlotMap (slot / 5)) (3 * i + 2) (3 * i) == slot % 5

/-- A slot is to be retired: idle units of its pod go out of service at once.  One that serves no core is retired
already. -/
def State.retireSlot (s : State) (slot : Nat) : State :=
  if s.recov.retiring.contains slot ∨ s.recov.podsOut.contains (slot / 5) ∨ ¬ s.slotServes slot then s
  else
    let s := { s with recov := { s.recov with retiring := s.recov.retiring ++ [slot] } }
    let s := s.repairStart 0 0
    (podUnits (slot / 5)).foldl (fun (st : State) u => if st.unitState u = 0 then st.setUnit u 3 none else st) s

/-- The units of a pod return to idle, where nothing else keeps them out. -/
def State.returnUnits (s : State) (p : Nat) : State :=
  (podUnits p).foldl (fun (st : State) u => if st.unitState u = 3 ∧ ¬ st.unitOut u then st.setUnit u 0 none else st) s

/-- The retirement of a slot is no longer pending. -/
def State.retireEnds (s : State) (slot : Nat) : State :=
  { s with recov := { s.recov with retiring := s.recov.retiring.erase slot } }

/-- A pod is out of use. -/
def State.takePodOut (s : State) (p : Nat) : State :=
  { s with recov := { s.recov with podsOut := s.recov.podsOut ++ [p] } }

/-- The pages, scratchpad and arrays of position `i` of pod `p` follow to a slot that has just been powered (R551, R422); the
unit keeps its state. -/
def State.newSlot (s : State) (p i : Nat) : State :=
  (s.wipeCore (4 * p + i)).wr (R.udState (4 * p + i)) (s.rd (R.udState (4 * p + i)))

/-- R394 steps 2 and 3; `testOk`: the spare slot passed its self-test. -/
def execSlotRetired (pod : Fin 32) (testOk : Bool) (s : State) : Res :=
  match s.recov.retiring.find? fun k => k / 5 == pod.val with
  | none => .next s
  | some slot =>
    if (podUnits pod.val).any fun u => s.unitState u != 3 then .next s
    else
      let s := s.retireEnds slot
      let k := R.podSlotMap pod.val
      let pos := (List.range 4).find? fun i => s.fld k (3 * i + 2) (3 * i) == slot % 5
      match s.bit k 15 || s.recov.badSpares.contains pod.val, testOk, pos with
      | false, true, some i =>
        let sp := s.fld k 14 12
        let s := ((s.setFld k (3 * i + 2) (3 * i) sp).setFld k 14 12 (slot % 5)).setBit k 15 true
        let v := (s.rd k).toNat % 65536
        let s := s.modLedger fun l => { l with spares := (bump l.spares pod.val 1).set 0 (32 + pod.val) v }
        let s := (s.newSlot pod.val i).returnUnits pod.val
        .next (((s.raise { code := 0xF103 }).advise 5).repairEnd 0)
      | _, _, _ =>
        .next ((((s.takePodOut pod).raise { code := 0xF104 }).advise 5).repairEnd 0)

/-! ### Array self-test (R395, R101) -/

/-- A self-test of an array is due. -/
def State.askSelfTest (s : State) (arr col : Nat) : State :=
  if s.recov.selfTests.any fun e => e.1 == arr then s
  else ({ s with recov := { s.recov with selfTests := s.recov.selfTests ++ [(arr, col)] } }).repairStart 1 0

/-- Map logical column `col` of array `arr` (4·core + array) to a free spare column, or retire the slot. -/
def State.spareColumn (s : State) (arr col : Nat) : State :=
  let k := R.coreArrColmap (arr / 4) (arr % 4)
  let done (s : State) : State :=
    (s.modLedger fun l => { l with spares := bump l.spares (64 + arr) 1 }).raise { code := 0xF105, core := arr / 4 }
  if s.fld k 6 0 = col ∨ s.fld k 14 8 = col then s
  else if s.fld k 6 0 = 0x7F then done (s.setFld k 6 0 col)
  else if s.fld k 14 8 = 0x7F then done (s.setFld k 14 8 col)
  else s.retireSlot (s.slotOf (arr / 4))

/-- The test of an array of an idle core ends: the logical columns that failed. -/
def execArraySelfTest (core : Fin 128) (arr : Fin 4) (failing : List Nat) (s : State) : Res :=
  let a := 4 * core.val + arr.val
  if ¬ s.recov.selfTests.any (fun e => e.1 == a) ∨ (unitsOf core).any (fun u => s.hasJob u) then .next s
  else
    let s := { s with recov := { s.recov with selfTests := s.recov.selfTests.filter fun e => e.1 != a } }
    let s := ((failing.filter (· < 64)).eraseDups).foldl (fun (st : State) c => st.spareColumn a c) s
    .next (s.repairEnd 1)

/-! ### The queue manager's copies (R396) -/

/-- The active copy quiesces, or QM_LOST where the spare copy has been used. -/
def State.askQmSwitch (s : State) : State :=
  if s.recov.repairs.contains 3 then s
  else if s.bit R.qmStatus 1 then s.raise { code := 0xF002 }
  else (s.setBit R.qmStatus 2 true).repairStart 3 0

/-- The copies switch once every unit is idle or parked; `readable`: the active copy could be read. -/
def execQmSwitched (readable : Bool) (s : State) : Res :=
  if ¬ s.recov.repairs.contains 3 ∨ (List.range 171).any (fun u => s.unitState u == 1) then .next s
  else if ¬ readable then .next (s.raise { code := 0xF002 })
  else
    let s := (s.setBit R.qmStatus 1 true).setBit R.qmStatus 2 false
    let s := s.modLedger fun l => { l with spares := bump l.spares 664 1 }
    .next ((s.raise { code := 0xF106 }).repairEnd 3)

/-! ### Thresholds (Table 14-6) -/

/-- One hour and one day of local time. -/
def hourTicks : Nat := 5760000000000
def dayTicks : Nat := 24 * hourTicks

/-- How often an observation was made in the last `w` ticks. -/
def State.seen (s : State) (kind key w : Nat) : Nat :=
  (s.recov.events.filter fun e => e.1 == kind && e.2.1 == key && s.ltime < e.2.2 + w).length

/-- Rows of a bank that are spared. -/
def State.sparedRows (s : State) (t b : Nat) : Nat := 64 - s.spareRows t b

/-- A threshold is crossed and has not acted in its window. -/
def State.crosses (s : State) (th kind key n w : Nat) : Bool :=
  n ≤ s.seen kind key w && !(s.recov.fired.any fun f => f.1 == th && f.2.1 == key && s.ltime < f.2.2 + w)

def State.fire (s : State) (th key : Nat) : State :=
  { s with recov := { s.recov with fired := s.recov.fired ++ [(th, key, s.ltime)] } }

/-- A row that qualifies is spared; a bank with more than 32 spared rows, or none free, is declared failed. -/
def State.spareOrFail (s : State) (key : Nat) : State :=
  let row := key % 16384
  let b := key / 16384 % 290
  let t := key / 16384 / 290
  if s.spareRows t b = 0 then s.bankFailed t b
  else
    let s := s.spareRow t b row
    if 32 < s.sparedRows t b then s.bankFailed t b else s

def State.ceRate (s : State) : State := s.raise { code := 0xF102 }

/-- The action of one observation's thresholds. -/
def State.judge (s : State) (kind key : Nat) : State :=
  let once (s : State) (th n w : Nat) (act : State → State) : State :=
    if s.crosses th kind key n w then act (s.fire th key) else s
  match kind with
  | 0 =>
    let s := once s 0 16 dayTicks State.ceRate
    once s 1 64 dayTicks fun s => ((s.retireSlot key).ceRate).advise 3
  | 1 => once s 2 2 dayTicks fun s => s.retireSlot key
  | 2 => once s 3 1 dayTicks fun s => s.retireSlot key
  | 3 =>
    let s := if 2 ≤ s.seen 3 key dayTicks then once s 5 2 dayTicks fun s => s.spareColumn (key / 64) (key % 64) else s
    once s 4 1 dayTicks fun s => s.askSelfTest (key / 64) (key % 64)
  | 5 => once s 6 1 dayTicks fun s => (s.retireSlot key).advise 4
  | 6 => once s 7 8 dayTicks fun s => s.spareOrFail key
  | 7 => once s 8 1 dayTicks fun s => s.spareOrFail key
  | 8 => once s 9 4096 hourTicks fun s => s.ceRate.advise 3
  | 9 => once s 10 2 hourTicks State.askQmSwitch
  | _ => s

/-- The evaluation of once per second: every observation of the last day. -/
def execThresholdEvaluation (s : State) : Res :=
  let s := { s with recov := { s.recov with
    events := s.recov.events.filter fun e => s.ltime < e.2.2 + dayTicks
    fired := s.recov.fired.filter fun e => s.ltime < e.2.2 + dayTicks } }
  .next (((s.recov.events.map fun e => (e.1, e.2.1)).eraseDups).foldl (fun (st : State) e => st.judge e.1 e.2) s)

/-! ### The recovery machine's commands (R399, R410) -/

/-- The cause that isolated the chip has cleared. -/
def State.causeCleared (s : State) : Bool :=
  let c := s.fld R.mgtRecCause 15 0
  if c = 0x6007 then s.bit R.fabStatus 2 else if c = 0x600B then s.recov.swapped else false

def State.cmdErr (s : State) : State := s.setBit R.mgtRecState 10 true

def State.rejoin (s : State) : State :=
  if s.fld R.mgtRecState 1 0 = 2 ∧ s.recov.repairs = [] ∧ s.causeCleared then
    ({ s with recov := { s.recov with torn := [], left := [] } }).setRecState 0 0
  else s.cmdErr

def execRejoin (s : State) : Res := .next s.rejoin

/-- Reclaim one open grant (R410). -/
def State.reclaim (s : State) (i : Nat) (g : Grant) : State :=
  let x := s.poolCtx i
  ((s.reclaimGrant i g).count R.mgtReclaimCnt 1).raise { code := 0xF109, ctx := some x }

def State.reclaimChip (s : State) : State :=
  let chip := s.fld R.mgtReclaimChip 19 0
  (List.range 128).foldl (fun (st : State) i =>
    if st.poolEn i then
      let st := (st.openGrants i).foldl (fun (z : State) g => if g.chip = chip then z.reclaim i g else z) st
      st.setPool i { st.pool i with waiting := (st.pool i).waiting.filter fun w => w.chip ≠ chip }
    else st) s

def execReclaim (s : State) : Res := .next s.reclaimChip

/-- A grant of pool `pool` has been open longer than GRANT_LIFE (R410): the oldest one. -/
def execGrantAge (pool : Fin 128) (s : State) : Res :=
  let life := 1600000 * max 1 (s.fld R.mgtGrantLife 15 0)
  match s.openGrants pool with
  | [] => .next s
  | g0 :: rest =>
    let g := rest.foldl (fun (a : Grant) b => if b.time < a.time then b else a) g0
    .next ((s.advanceTo (g.time + life + 1)).reclaim pool g)

end Sys2Proof.Machine
end

