-- ==== Sys2Proof/Machine/Power.lean ====
section
/-! DEFINITION. Clocks, the limiters, telemetry, power domains, temperature, supplies and margins (chapter 15), and
the device-fatal events of Table 14-4. -/

namespace Sys2Proof.Machine

/-! ### Faults of the page (R436) -/

/-- Raise a power or thermal code: domain or rail, sensor or ring, reading, applied step and LIMIT (R436, R566). -/
def State.powerRaise (s : State) (code bit dom sensor reading : Nat) (ctx : Option Nat := none) (unit : Nat := 0xFF) :
    State :=
  let d := [(1, dom), (1, sensor), (2, reading), (1, s.fld R.clkCclkStatus 2 0), (1, s.fld R.clkCclkStatus 13 8)]
  (if bit < 8 then s.intEvent 498 bit else s).raise { code, ctx, unit, detail := d }

/-! ### The CCLK step (R417–R420) -/

/-- START_STATUS.PHASE (Table 19-4). -/
def State.phase (s : State) : Nat := s.fld R.mgtStartStatus 3 0

/-- Divider and core voltage, in mV, of a step (Table 15-2). -/
def stepDiv (k : Nat) : Nat := [4, 5, 6, 8].getD k 16
def stepMv (k : Nat) : Nat := [850, 780, 740, 700].getD k 650

/-- Phase 4 has ended: the limiters decide (R527). -/
def State.stepsFree (s : State) : Bool := s.start.freed

/-- The largest STEP demanded by any limiter in force (R419). -/
def State.wantStep (s : State) : Nat :=
  if s.stepsFree then s.power.demands.foldl (fun (m : Nat) d => max m d.2) 0 else 4

def State.curStep (s : State) : Nat := s.fld R.clkCclkStatus 2 0

/-- CCLK_STATUS.LIMIT: the limiters in force that demand the applied step. -/
def State.showLimit (s : State) : State :=
  let m := if s.stepsFree then
      (s.power.demands.filter fun d => d.2 == s.curStep && d.1 < 6).foldl (fun (a : Nat) d => a + 2 ^ d.1) 0
    else 0
  s.setFld R.clkCclkStatus 13 8 m

/-- VOUT_COMMAND on both core rails. -/
def State.commandVout (s : State) (mv : Nat) : State :=
  if s.power.vset = mv then s else { s with power := { s.power with vold := s.power.vset, vset := mv } }

/-- The single computation of R419 from all demands: a raise commands its voltage first, a lower step waits for the
next step edge.  A trip holds the step 4 voltage and stops CCLK until a reset (R431). -/
def State.applyLimits (s : State) : State :=
  if s.power.trip then s
  else
  let t := s.wantStep
  let s := s.setFld R.clkCclkStatus 5 3 t
  let s := s.setBit R.clkCclkStatus 6 (decide (t < s.curStep))
  (s.commandVout (stepMv (min t s.curStep))).showLimit

/-- Limiter `i` demands step `k`; 0 withdraws. -/
def State.demand (s : State) (i k : Nat) : State :=
  { s with power := { s.power with demands := s.power.demands.set 0 i k } }
def State.demandOf (s : State) (i : Nat) : Nat := s.power.demands.get 0 i

/-- A step edge (R418, R420); `vout`: both rails read within 10 mV of the target. -/
def execCclkStepEdge (vout : Bool) (s : State) : Res :=
  let t := s.fld R.clkCclkStatus 5 3
  if s.power.trip ∨ t = s.curStep ∨ (t < s.curStep ∧ ¬ vout) then .next s
  else
    let s := s.setFld R.clkCclkStatus 2 0 t
    let s := (s.setBit R.clkCclkStatus 6 false).commandVout (stepMv t)
    .next (((s.count R.clkStepChgCnt 1).showLimit).intEvent 499 0)

/-! ### Telemetry and the peak window (R423–R426) -/

/-- The step the peak-window limiter predicts from a sample (R425), in units of 0.125 W. -/
def State.peakStep (s : State) (p pod : Nat) : Nat :=
  let f := s.curStep
  let lim := 8 * s.fld R.pwrPSust 10 0
  (((List.range 5).filter fun k => f < k).find? fun k =>
    decide ((p - pod) * stepDiv k + pod * stepDiv f ≤ lim * stepDiv k)).getD 4

/-- The peak-window limiter makes a demand. -/
def State.peakDemand (s : State) (k : Nat) : State :=
  ((s.demand 1 k).count R.pwrPeakStepCnt 1).powerRaise 0x8001 0 0xFF 0xFF 0

/-- The mean of some samples; how it is rounded is left open. -/
def meanOf (l : List Nat) : Nat :=
  let n := l.length
  let q := l.sum / max n 1
  if l.sum % max n 1 ≠ 0 ∧ Config.showUp l.sum then q + 1 else q

/-- What advances once per minute of ACLK (R458). -/
def State.ledgerMinute (s : State) : State :=
  let t := s.fld R.pwrTempMax 11 0
  let p := s.fld R.pwrPkgPower1ms 15 0 / 8
  let tb := if t < 360 then 0 else min 15 ((t / 8 - 40) / 5)
  s.modLedger fun l => { l with
    life := bump (bump l.life 0 1) (9 + s.curStep) 1
    temps := bump l.temps tb 1
    powers := bump l.powers (min 15 (p / 150)) 1 }

/-- Record one sample: powers and energies by domain, in units of 0.125 W. -/
def State.recordSample (s : State) (powers : List Nat) : State :=
  let w := (List.range 48).map fun d => powers.getD d 0
  let p := w.sum
  let pw := s.power
  let pw := (List.range 48).foldl (fun (x : PowerState) d =>
    let e := 125 * w.getD d 0
    { x with energy := x.energy.set 0 d (x.energy.get 0 d + e), unshared := x.unshared.set 0 d (x.unshared.get 0 d + e) }) pw
  let n := pw.samples + 1
  let kept := pw.overs.filter fun i => n < i + 50000
  let pw := { pw with samples := n, recent := (p :: pw.recent).take 1000 }
  let pw := if 8 * s.fld R.pwrPSust 10 0 < p then { pw with overs := kept ++ [n] } else { pw with overs := kept }
  let s := { s with power := pw }
  let s := (List.range 48).foldl (fun (st : State) d =>
    st.wr (R.pwrDomainEnergy d) (BitVec.ofNat 64 (min (pw.energy.get 0 d / 1000) (2 ^ 64 - 1)))) s
  let s := s.wr R.pwrPkgPower (BitVec.ofNat 64 (min p 65535))
  let s := s.wr R.pwrPkgPower1ms (BitVec.ofNat 64 (min (meanOf pw.recent) 65535))
  let s := s.wr R.pwrExc (BitVec.ofNat 64 pw.overs.length)
  let s := s.count64 (R.clkTimeAtStep s.curStep) 1
  if n % 60000000 = 0 then s.ledgerMinute else s

/-- Judge the peak window after a sample. -/
def State.judgePeak (s : State) (powers : List Nat) : State :=
  let w := (List.range 48).map fun d => powers.getD d 0
  let p := w.sum
  let pod := (w.take 32).sum
  let exc := s.fld R.pwrExc 15 0
  let k := s.peakStep p pod
  if s.power.standing then
    if exc ≤ 4000 then { s with power := { s.power with standing := false, demands := s.power.demands.set 0 1 0 } }
    else if 8 * s.fld R.pwrPSust 10 0 < p ∧ s.demandOf 1 < k then s.peakDemand k else s
  else if 4998 ≤ exc then ({ s with power := { s.power with standing := true } }).peakDemand k
  else s

/-- Each microsecond (R423); `powers`: each domain's average power, in units of 0.125 W. -/
def execPowerSample (powers : List Nat) (s : State) : Res :=
  let s := (s.recordSample powers).judgePeak powers
  .next ((s.demand 0 (s.fld R.clkCclkMax 2 0)).applyLimits)

/-! ### Power domains (R421, R422, R436) -/

/-- The contents of stage-memory tier `t` are cleared, with fresh check bits. -/
def State.clearTier (s : State) (t : Nat) : State :=
  let mine (k : Nat) : Bool := smTier (k % 2 ^ 40) == t
  let m := { s.smem with
    ecc := s.smem.ecc.filter fun e => !mine e.1
    owed := s.smem.owed.filter fun w => !mine w
    lostRows := s.smem.lostRows.filter fun r => r.1 != t
    rebuilds := s.smem.rebuilds.set none t none }
  ({ s with mem := s.mem.filter fun e => !mine e.1, smem := m }).clearPage (384 + t)

/-- GROUP and EN of a strap preset (Table 11-3). -/
def presetCfg (preset p : Nat) : Nat :=
  let g := match preset with
    | 1 => if p < 8 then 0 else if p < 16 then 1 else 2
    | 2 => if p < 4 then 0 else if p < 8 then 1 else 2
    | 3 => p / 8
    | 4 => p / 4
    | 5 => p / 16
    | _ => 0
  if preset ≤ 5 then 1 + 2 * g else 0

/-- PORT_CFG's reset value: REACH, GROUP and EN are the strap preset's (R312, R338). -/
def State.presetPort (s : State) (p : Nat) : State := s.setFld (R.lnkPortCfg p) 5 0 (presetCfg s.start.preset p)

def State.clearPort (s : State) (p : Nat) : State :=
  (({ s with ports := s.ports.erase p }).clearPage (448 + p)).presetPort p

/-- A domain that comes ON holds nothing: memory is zero and registers take their reset values. -/
def State.clearDomain (s : State) (d : Nat) : State :=
  if d < 32 then
    let s := (List.range 4).foldl (fun (st : State) i => st.wipeCore (4 * d + i)) s
    s.clearRegs ((List.range 16).map (R.podFlag d))
  else if d < 40 then s.clearTier (d - 32)
  else if 42 ≤ d ∧ d < 46 then (List.range 8).foldl (fun (st : State) i => st.clearPort (8 * (d - 42) + i)) s
  else if d = 46 then
    let h := s.host
    let h : HostState := { staging := h.staging, loads := h.loads, resp := h.resp, mctpDrops := h.mctpDrops,
                           eid := h.eid, i3cAddr := h.i3cAddr, out := h.out }
    ({ s with host := h }).clearPage 503
  else s

/-- A domain goes OFF: every bit it held is lost, and the units of a pod leave service (Table 15-5). -/
def State.domainOff (s : State) (d : Nat) : State :=
  let s := s.setBit R.pwrDomainState d false
  let s := s.clearDomain d
  if d < 32 then (podUnits d).foldl (fun (st : State) u => if st.hasJob u then st else st.setUnit u 3 none) s else s

/-- The condition of Table 15-5 for switching domain `d` OFF. -/
def State.mayOff (s : State) (d : Nat) : Bool :=
  if d < 32 then !(podUnits d).any s.hasJob
  else if d < 40 then (List.range 512).all fun g => g / 256 != (d - 32) / 4 || !s.granValid g
  else if d < 42 then false
  else if d < 46 then (List.range 8).all fun i =>
    let st := s.fld (R.lnkStatus (8 * (d - 42) + i)) 3 0
    st == 0 || st == 8 || st == 9
  else if d = 46 then s.fld R.hostStatus 1 0 == 0
  else false

/-- A write of DOMAIN_EN by the management controller, bit by bit. -/
def State.domainEn (s : State) (v : Nat) : State :=
  (List.range 47).foldl (fun (st : State) d =>
    let want : Bool := v / 2 ^ d % 2 == 1
    if want = st.bit R.pwrDomainEn d then st
    else if want then st.setBit R.pwrDomainEn d true
    else if st.mayOff d then (st.setBit R.pwrDomainEn d false).domainOff d
    else st.intEvent 498 7) s

def execDomainEn (value : Word) (s : State) : Res := .next (s.domainEn value.toNat)

/-- A domain fails to reach or hold ON: the jobs on a failed pod end and their contexts are torn down (R436). -/
def State.domainFail (s : State) (d : Nat) : State :=
  let s := s.setBit R.pwrDomainState d false
  if d < 32 then
    let us := (podUnits d).filter s.hasJob
    let s := if us.isEmpty then s.powerRaise 0x800A 6 d 0xFF 0
      else us.foldl (fun (st : State) u => st.powerRaise 0x800A 6 d 0xFF 0 (some (st.job u).ctx) u) s
    (podUnits d).foldl (fun (st : State) u => if st.hasJob u then st else st.setUnit u 3 none) s
  else s.powerRaise 0x800B 8 d 0xFF 0

/-- A domain is switched ON by the ROM or the firmware and reaches ON. -/
def State.domainUp (s : State) (d : Nat) : State :=
  ((s.setBit R.pwrDomainEn d true).clearDomain d).setBit R.pwrDomainState d true

/-- The domains that a trip switches off (R431). -/
def tripDomains : List Nat := (List.range 32) ++ [42, 43, 44, 45, 46]

/-- A domain whose enable bit is set reaches ON, or fails to (R422, R436); a trip keeps the domains it switched off so
until a reset (R431). -/
def execDomainOn (domain : Fin 48) (ok : Bool) (s : State) : Res :=
  let d := domain.val
  if ¬ s.bit R.pwrDomainEn d ∨ s.bit R.pwrDomainState d ∨ (s.power.trip ∧ tripDomains.contains d) then .next s
  else if ¬ ok then .next (s.domainFail d)
  else
    let s := (s.clearDomain d).setBit R.pwrDomainState d true
    .next (if d < 32 ∧ s.stepsFree then s.returnUnits d else s)

/-- A domain, or a slot switch of a pod, that was ON fails to hold it. -/
def execDomainFail (domain : Fin 48) (s : State) : Res :=
  if s.bit R.pwrDomainState domain then .next (s.domainFail domain) else .next s

/-! ### Temperature (R428, R429, R431) -/

/-- The highest reading and its sensor, the lowest index on a tie. -/
def hottest (rs : List Nat) : Nat × Nat :=
  (rs.zipIdx).foldl (fun (m : Nat × Nat) r => if m.1 < r.1 then (r.1, r.2) else m) (rs.headD 0, 0)

/-- The trip (R431). -/
def State.thermTrip (s : State) (t d : Nat) : State :=
  let s := { s with power := { s.power with trip := true } }
  let s := s.modLedger fun l => { l with life := bump l.life 7 1 }
  let s := s.powerRaise 0x8003 8 d d t
  let s := tripDomains.foldl (fun (st : State) k => st.domainOff k) s
  s.commandVout (stepMv 4)

/-- The sensors are read, every 10 µs; `readings` in units of 0.125 °C, by domain. -/
def execTemperatureRead (readings : List Nat) (s : State) : Res :=
  let rs := (List.range 48).map fun d => min 4095 (readings.getD d 0)
  let before := s.fld R.pwrTempMax 11 0
  let s := (rs.zipIdx).foldl (fun (st : State) r => st.wr (R.pwrTemp r.2) (BitVec.ofNat 64 r.1)) s
  let (t, d) := hottest rs
  let s := s.wr R.pwrTempMax (BitVec.ofNat 64 (t + 4096 * d))
  let th := 8 * s.fld R.pwrThrottleTemp 6 0
  let cool : Bool := rs.all fun r => decide (r + 24 < th)
  let s := { s with power := { s.power with hot := decide (th ≤ t), cool } }
  let s := if th ≤ t ∧ before < th then
      ((s.demand 2 (min 4 (s.curStep + 1))).powerRaise 0x8002 1 d d t).applyLimits
    else s
  .next (if 920 ≤ t ∧ ¬ s.power.trip then s.thermTrip t d else s)

/-- 100 µs have passed hot, or 1 ms cool, since the thermal limiter's latest step (R429). -/
def execThermalLimiterInterval (s : State) : Res :=
  let k := s.demandOf 2
  if s.power.hot then .next ((s.demand 2 (min 4 (k + 1))).applyLimits)
  else if s.power.cool then .next ((s.demand 2 (k - 1)).applyLimits)
  else .next s

/-! ### Supplies (R432, R433) -/

/-- Set point in µV, warning, undervoltage and overvoltage limits in per cent (Table 15-7) of rail `r`; 0: no limit. -/
def railLimits (r : Nat) : Nat × Nat × Nat × Nat :=
  match r with
  | 0 | 1 => (0, 5, 10, 8)
  | 5 => (1200000, 4, 8, 8)
  | 7 => (1800000, 5, 10, 10)
  | 8 => (800000, 5, 10, 0)
  | _ => (750000, 4, 8, 8)

/-- One reading of rail `r`, in µV: (warning breach, fault breach). -/
def State.railBreach (s : State) (r v : Nat) : Bool × Bool :=
  let (sp, w, lo, hi) := railLimits r
  let up := if r < 2 then 1000 * max s.power.vset s.power.vold else sp
  let dn := if r < 2 then 1000 * min s.power.vset s.power.vold else sp
  (decide (v * 100 < up * (100 - w)),
    (lo != 0 && decide (v * 100 < up * (100 - lo))) || (hi != 0 && decide (dn * (100 + hi) < v * 100)))

/-- Judge rail `r`: a breach counts when it holds for 1 µs, ten samples.  The fault breach of VDD_AON (8) is answered by a
power-on reset (`execSupplySample`). -/
def State.judgeRail (s : State) (r v : Nat) : State :=
  let (wb, fb) := s.railBreach r v
  let nw := if wb then s.power.warnRun.get 0 r + 1 else 0
  let nf := if fb then s.power.badRun.get 0 r + 1 else 0
  let s := { s with power := { s.power with warnRun := s.power.warnRun.set 0 r nw, badRun := s.power.badRun.set 0 r nf } }
  let was := s.bit R.pwrSupplyStatus r
  let s := s.setBit R.pwrSupplyStatus r (decide (10 ≤ nw) || (was && wb))
  let s := if 10 ≤ nw ∧ ¬ was then s.powerRaise 0x8004 2 (64 + r) 0xFF (v / 1000) else s
  if nf = 10 ∧ r ≠ 8 then
    let s := (s.setBit R.pwrSupplyStatus (10 + r) true).modLedger fun l => { l with life := bump l.life 8 1 }
    s.powerRaise 0x8005 8 (64 + r) 0xFF (v / 1000)
  else s

/-- The supply-warning limiter: one step more for each 100 µs of a core warning, one less for each 1 ms without. -/
def State.supplyLimit (s : State) : State :=
  let warn : Bool := s.bit R.pwrSupplyStatus 0 || s.bit R.pwrSupplyStatus 1
  let k := s.demandOf 3
  if warn then
    let n := s.power.warned + 1
    let s := { s with power := { s.power with warned := n, clear := 0 } }
    if n % 1000 = 0 then (s.demand 3 (min 4 (k + 1))).applyLimits else s
  else
    let n := s.power.clear + 1
    let s := { s with power := { s.power with warned := 0, clear := n } }
    if n % 10000 = 0 then (s.demand 3 (k - 1)).applyLimits else s

def execPwrBrakeAssert (s : State) : Res :=
  if s.power.brake then .next s
  else
    let s := { s with power := { s.power with brake := true } }
    .next (((s.demand 4 3).powerRaise 0x8009 5 0xFF 0xFF 0).applyLimits)

/-- 1 ms after PWR_BRAKE_N returned high. -/
def execPwrBrakeRelease (s : State) : Res :=
  .next ((({ s with power := { s.power with brake := false } }).demand 4 0).applyLimits)

/-! ### Margins and wear (R434, R435) -/

/-- The domain of a ring. -/
def ringDomain (r : Nat) : Nat := if r < 160 then r / 5 else if r < 168 then 32 + (r - 160) else 40 + (r - 168)

/-- A ring is powered: its domain is ON, and a spare slot's only once brought in. -/
def State.ringOn (s : State) (r : Nat) : Bool :=
  s.bit R.pwrDomainState (ringDomain r) &&
    (decide (160 ≤ r) || s.bit (R.podSlotMap (r / 5)) 15 || s.fld (R.podSlotMap (r / 5)) 14 12 != r % 5)

/-- One ring's quotient, in units of 2⁻¹⁵. -/
def State.ringMeasure (s : State) (r q : Nat) : State :=
  let q := q % 65536
  let low := if q * 100 < 95 * 32768 then min 3 ((s.power.rings.get (0, 0) r).2 + 1) else 0
  let was := (s.power.rings.get (0, 0) r).2
  let s := { s with power := { s.power with rings := s.power.rings.set (0, 0) r (q, low) } }
  if low = 3 ∧ was < 3 then
    let s := s.modLedger fun l => { l with errors := bump l.errors (240 + r) 1 }
    let s := s.powerRaise 0x8006 3 (ringDomain r) r q
    if r < 160 then s.observe 5 r else s.advise 4
  else s

/-- Every 10 ms: the quotient of each ring in order; a ring without power reads zero. -/
def execRingOscillatorMeasure (quotients : List Nat) (s : State) : Res :=
  .next ((List.range 170).foldl (fun (st : State) r =>
    if st.ringOn r then (if r < quotients.length then st.ringMeasure r (quotients.getD r 0) else st)
    else { st with power := { st.power with rings := st.power.rings.set (0, 0) r (0, 0) } }) s)

/-- The voltage budget is exhausted: step 1 from then on (R435). -/
def State.vmaxDemand (s : State) : State :=
  if s.fld R.pwrVmaxBudget 31 0 ≤ s.fld R.pwrVmaxUsed 31 0 then s.demand 5 1 else s

/-- A minute at the step 0 voltage. -/
def execVmaxMinute (s : State) : Res :=
  if s.power.vset ≠ 850 then .next s
  else
    let s := s.count R.pwrVmaxUsed 1
    let s := s.modLedger fun l => { l with life := l.life.set 0 14 (s.fld R.pwrVmaxUsed 31 0) }
    let n := s.fld R.pwrVmaxUsed 31 0
    let b := s.fld R.pwrVmaxBudget 31 0
    let s := if n * 10 = b * 9 then s.powerRaise 0x8007 4 0xFF 0xFF 0 else s
    let s := if n = b then s.powerRaise 0x8008 4 0xFF 0xFF 0 else s
    .next s.vmaxDemand.applyLimits

/-! ### Device-fatal events (Table 14-4) -/

def execD2dLost (s : State) : Res := .next (s.raise { code := 0xF001 })

/-- The root PLL loses lock after it has locked; `ref`: its reference is gone too (R416). -/
def execPllLost (ref : Bool) (s : State) : Res :=
  if ¬ s.bit R.clkPllStatus 0 then .next s
  else
    let s := (s.setBit R.clkPllStatus 0 false).setBit R.clkPllStatus 1 true
    let s := if ref then (s.setBit R.clkPllStatus 2 false).intEvent 499 1 else s
    .next (s.raise { code := 0xF003 })

def execCtrlStoreUe (s : State) : Res := .next (s.raise { code := 0xF004 })
def execMcWatchdog (s : State) : Res := .next (s.raise { code := 0xF005 })

end Sys2Proof.Machine
end

