-- ==== Sys2Proof/Machine/ObsCmds.lean ====
section
/-! DEFINITION. Freezes, NS2 samples, tensor dumps, buffer and profile writes, and the ledger (R444, R445,
R448–R454, R457, R458). -/

namespace Sys2Proof.Machine

/-- A write, arm or enable of the OBS page is refused. -/
def State.obsErr (s : State) : State := s.intEvent 500 4

/-- A source no longer keeps a unit parked (R132). -/
def State.releasePark (s : State) (reason u : Nat) : State :=
  if s.hasJob u then s.setJob u { s.job u with parkReqs := (s.job u).parkReqs.filter (· != reason) } else s

/-! ### Freeze (R449, R450) -/

def State.freezeArm (s : State) : State :=
  if s.bit R.obsCtrl 1 ∨ (s.rd R.obsFreezeAt).toNat ≤ s.now then s.obsErr else s.setBit R.obsCtrl 2 true

def execFreezeArm (s : State) : Res := .next s.freezeArm

/-- The counters of core `c`, in the order of FRZ. -/
def coreCounters (c : Nat) : List Nat :=
  (List.range 8).map (R.corePmc c) ++ [R.coreCycles c, R.coreBundles c] ++ (List.range 4).map (R.coreArrStall c)

/-- Every counter is copied into its frozen copy. -/
def State.freezeCopy (s : State) : State :=
  let s := (List.range 128).foldl (fun (st : State) c =>
    (coreCounters c).zipIdx.foldl (fun (z : State) p => z.wr (R.coreFrz c p.2) (s.rd p.1)) st) s
  (List.range 16).foldl (fun (st : State) i => st.wr (R.obsGfrz i) (st.rd (R.obsGcnt i))) s

/-- Park what is in scope. -/
def State.freezePark (s : State) : State :=
  if s.bit R.obsCtrl 3 then
    let sc : Option Nat := if s.bit R.obsFreezeScope 9 then none else some (s.fld R.obsFreezeScope 8 0)
    let s := { s with obs := { s.obs with freeze := some sc } }
    (List.range 171).foldl (fun (st : State) u =>
      if st.unitState u = 1 ∧ st.frozen (st.job u).ctx then st.parkReq 1 u else st) s
  else s

/-- The first tick at or after FREEZE_AT. -/
def execFreeze (s : State) : Res :=
  if ¬ s.bit R.obsCtrl 2 then .next s
  else
    let t := (s.rd R.obsFreezeAt).toNat
    let s := (s.advanceTo t).freezeCopy
    let un := if s.bit R.fabStatus 2 then 0 else 1
    let s := s.sysRecord 0x20 1 0x3FF s.now [(8, t), (1, Config.freezeScope (s.fld R.obsFreezeScope 9 0)), (1, un)]
    let s := (s.setBit R.obsCtrl 2 false).setBit R.obsStatus 0 true
    .next (s.intEvent 500 0).freezePark

def State.unfreeze (s : State) : State :=
  let s := { s with obs := { s.obs with freeze := none } }
  let s := (List.range 171).foldl (fun (st : State) u => st.releasePark 1 u) s
  s.setBit R.obsStatus 0 false

def execUnfreeze (s : State) : Res := .next s.unfreeze

/-! ### NS2 samples (R451, R452) -/

/-- The low 48 bits of a counter. -/
def State.low48 (s : State) (k : Nat) : Nat × Nat := (8, (s.rd k).toNat % 2 ^ 48)

/-- The sums of CPMC0–3 over the cores of a unit. -/
def State.cpmcSums (s : State) (u : Nat) : List (Nat × Nat) :=
  (List.range 4).map fun k => (8, ((unitCores u).map fun c => (s.rd (R.coreCpmc c k)).toNat).sum % 2 ^ 48)

/-- The records of one period: each core's counters, the global ones, each running unit's. -/
def State.ns2Write (s : State) : State :=
  let us := s.ltime / 1600
  let s := (List.range 128).foldl (fun (st : State) c =>
    st.sysRecord 0x10 2 c us ((coreCounters c).map st.low48)) s
  let s := [0, 8].foldl (fun (st : State) i =>
    st.sysRecord 0x11 2 0x3FF us ((List.range 8).map fun k => st.low48 (R.obsGcnt (i + k)))) s
  (List.range 171).foldl (fun (st : State) u =>
    if st.hasJob u then
      let j := st.job u
      st.ctxRecord j.ctx 0x12 1 (unitSrc u) (st.localTime j.ctx u) ((4, j.card.accession) :: st.cpmcSums u)
    else st) s

/-- One period; `late`: the period before it had not been written. -/
def execNs2Sample (late : Bool) (s : State) : Res :=
  if ¬ s.bit R.obsCtrl 0 ∨ ¬ s.bit R.obsCtrl 1 then .next s
  else if late then .next ((s.count R.obsSampleOvfCnt 1).intEvent 500 3)
  else .next s.ns2Write

/-! ### Buffers and profiles (R444, R445) -/

/-- A context buffer's bytes lie in the context's granules. -/
def State.ctxRing (s : State) (x base size : Nat) : Bool :=
  decide (4096 ≤ size) && decide (base + size ≤ smSize)
    && (granulesOf base size).all fun g => s.granValid g && s.granOwner g == x

/-- The privileged buffer lies in granules with VALID = 0. -/
def State.sysRing (s : State) (base size : Nat) : Bool :=
  decide (4096 ≤ size) && decide (base + size ≤ smSize) && (granulesOf base size).all fun g => !s.granValid g

def State.sbufEnable (s : State) : State :=
  if s.bit R.obsSbufBase 0 ∨ ¬ s.sysRing (s.fld R.obsSbufBase 33 12 * 4096) (s.fld R.obsSbufSize 33 12 * 4096) then s.obsErr
  else
    let s := (s.setBit R.obsSbufBase 0 true).wr R.obsSbufWr 0
    { s with obs := { s.obs with seqS := 0 } }

def State.cbufEnable (s : State) (x : Nat) : State :=
  let k := R.obsselCBufBase x
  if s.bit k 0 ∨ ¬ s.ctxRing x (s.fld k 33 12 * 4096) (s.fld (R.obsselCBufSize x) 33 12 * 4096) then s.obsErr
  else
    let s := (s.setBit k 0 true).wr (R.obsselCBufWr x) 0
    { s with obs := { s.obs with seqC := s.obs.seqC.set 0 x 0 } }

/-- EN of a buffer is written: the privileged one, or a context's. -/
def execBufferEnable (ctx : Option (Fin 512)) (s : State) : Res :=
  .next (match ctx with | none => s.sbufEnable | some x => s.cbufEnable x)

/-- C_PROF (R444). -/
def State.profileWrite (s : State) (x : Nat) (v : Word) : State :=
  if (List.range 4).all fun k => eventCode (bits v (8 * k + 7) (8 * k)) then
    s.wr (R.obsselCProf x) (BitVec.ofNat 64 (bits v 38 0))
  else s.obsErr

def execProfileWrite (ctx : Fin 512) (value : Word) (s : State) : Res := .next (s.profileWrite ctx value)

/-! ### The tensor dump (R453, R454) -/

def State.dumpArm (s : State) : State :=
  let cfg := s.rd R.obsDumpCfg
  if bits cfg 10 10 = 1 ∨ ¬ s.ctxRing (bits cfg 8 0) (s.fld R.obsDumpBuf 33 12 * 4096) (s.fld R.obsDumpSize 33 12 * 4096)
  then s.obsErr
  else s.setBit R.obsDumpCfg 10 true

def execDumpArm (s : State) : Res := .next s.dumpArm

/-- Bytes of a length, cut or filled with zeros. -/
def fitBytes (n : Nat) (bs : List Byte) : List Byte := bs.take n ++ List.replicate (n - bs.length) 0

/-- The dump of one core: its DUMP header and the bytes its output descriptor walked. -/
def State.coreDump (s : State) (u c seq iseq call : Nat) (d : Desc) (len : Nat) : List Byte :=
  let n := d.total * len
  let j := s.job u
  let head := natLE 1 0x22 ++ natLE 1 2 ++ natLE 2 c ++ natLE 4 seq ++ natLE 8 (s.localTime j.ctx u)
  head ++ fitBytes 48 (Config.dumpFields [c, iseq, call, j.card.accession, n]) ++ natLE 64 d.toNat
    ++ (List.range d.total).flatMap fun i => (List.range len).map fun b => s.spad.get 0 (spadKey c (d.unitByte (d.addr i) b))

/-- The dump ends: its record, and the unit is released. -/
def State.dumpEnd (s : State) (u status n : Nat) : State :=
  let x := s.fld R.obsDumpCfg 8 0
  let s := s.wr R.obsDumpStatus (BitVec.ofNat 64 status)
  let s := s.ctxRecord x 0x21 1 (unitSrc u) (s.localTime x u) [(4, status), (4, n), (8, 0)]
  let s := (s.setBit R.obsStatus 1 false).intEvent 500 1
  ({ s with obs := { s.obs with dumpUnit := none } }).releasePark 2 u

/-- Once the unit is DRAINED, or torn down before that. -/
def execDumpCopy (s : State) : Res :=
  match s.obs.dumpUnit with
  | none => .next s
  | some u =>
    if ¬ s.hasJob u ∨ (s.job u).torn then .next (s.dumpEnd u 2 0)
    else if s.unitState u ≠ 2 ∨ ¬ (unitCores u).all (fun c => (s.core c).drained) then .next s
    else
      let base := s.fld R.obsDumpBuf 33 12 * 4096
      let size := s.fld R.obsDumpSize 33 12 * 4096
      let bs := (unitCores u).foldl (fun (a : List Byte × Nat) c => match (s.core c).dumpLast with
        | some (iseq, call, d, len) => (a.1 ++ s.coreDump u c (a.2 + 1) iseq call d len, a.2 + 1)
        | none => a) ([], 0)
      let out := bs.1.take size
      let s := s.memWrite base out
      .next (s.dumpEnd u (if size < bs.1.length then 1 else 0) out.length)

/-! ### The ledger (R457, R458) -/

/-- The ledger's contents as the 64 KiB of a copy (Table 16-5). -/
def Ledger.image (l : Ledger) (gen : Nat) : List Byte :=
  let cart (c : LedgCart) : List (Nat × Nat) := [(c.serial, c.vendor), (c.port, c.matings), (c.laser, if c.warned then 1 else 0),
    (if c.worn then 1 else 0, c.first), (c.last, 0)]
  let body := fitBytes 1024 (Config.ledgerSection 0 l.life)
    ++ fitBytes 1024 (Config.ledgerSection 1 (l.temps ++ l.powers))
    ++ fitBytes 1024 (Config.ledgerSection 2 l.spares) ++ fitBytes 1024 (Config.ledgerSection 3 l.errors)
    ++ fitBytes 1024 (Config.ledgerSection 4 (l.ports.flatMap fun p => [(p.1, p.2.1), (p.1, p.2.2)]))
    ++ fitBytes 16384 (Config.ledgerSection 5 (l.carts.flatMap cart))
    ++ (List.range 256).flatMap (fun i => natLE 64 (l.faults.get 0 i).toNat)
  let body := fitBytes (65536 - 64) body
  fitBytes 64 ([0x4E, 0x4C, 0x44, 0x47] ++ natLE 2 1 ++ natLE 2 0 ++ natLE 8 gen ++ natLE 4 (crc32 body)) ++ body

/-- The ledger goes into the older copy; `verified`: the flash write verified. -/
def State.ledgerWrite (s : State) (verified : Bool) : State :=
  if verified then
    let gen := s.obs.ledger.gen + 1
    let b : Bool := !s.obs.ledger.useB
    let im := s.obs.ledger.image gen
    let s := s.modLedger fun l =>
      if b then { l with copyB := im, gen, useB := b } else { l with copyA := im, gen, useB := b }
    let s := { s with obs := { s.obs with saved := s.obs.ledger } }
    ((s.setBit R.ledgStatus 0 b).wr R.ledgGen (BitVec.ofNat 64 gen)).intEvent 501 0
  else (s.count R.ledgWriteErrCnt 1).intEvent 501 1

def execLedgerWrite (verified : Bool) (s : State) : Res := .next (s.ledgerWrite verified)
def execSync (verified : Bool) (s : State) : Res := .next (s.ledgerWrite verified)

end Sys2Proof.Machine
end

