-- ==== Sys2Proof/Machine/CheckOps.lean ====
section
/-! DEFINITION. The loader's checks of one operation that no control path decides (R71, R138, Tables 3-4, 4-15,
5-5, 6-11): the codes it breaks. -/

namespace Sys2Proof.Machine

/-- Codes of load-error group 0x02 (Tables 4-15, 5-5 and 6-11) and 0x04 (Table 20-2). -/
def leFormatCode : Nat := 0x0201
def leFormatPair : Nat := 0x0202
def leFormatMode : Nat := 0x0203
def leOutFormat : Nat := 0x0204
def leSparseFormat : Nat := 0x0205
def lePassLength : Nat := 0x0206
def leArrayMask : Nat := 0x0207
def leAccChain : Nat := 0x0208
def leHeldChain : Nat := 0x0209
def leWidth : Nat := 0x020A
def leSlot : Nat := 0x020B
def leBranchTarget : Nat := 0x020C
def leCallDepth : Nat := 0x020D
def leCodeSize : Nat := 0x020E
def leFallOff : Nat := 0x020F
def leLoopNest : Nat := 0x0210
def leFlagNumber : Nat := 0x0211
def leFlagScope : Nat := 0x0212
def leSignalTarget : Nat := 0x0213
def leCertificate : Nat := 0x0214
def leWaitExp : Nat := 0x0215
def leScratchInit : Nat := 0x0216
def leCallnum : Nat := 0x0217
def leSyncField : Nat := 0x0218
def leBundleForm : Nat := 0x0219
def leDescField : Nat := 0x0220
def leDescEsize : Nat := 0x0221
def leDescAlign : Nat := 0x0222
def leDescImm : Nat := 0x0223
def leVeFormat : Nat := 0x0240
def leVeChain : Nat := 0x0241
def leVeEsize : Nat := 0x0242
def leVeRole : Nat := 0x0243
def leVeReduce : Nat := 0x0244
def leScImm : Nat := 0x0245
def leStatusSelect : Nat := 0x0246
def leSparseDataflow : Nat := 0x0401
def leSrOverlap : Nat := 0x0402

def chk (bad : Bool) (code : Nat) : List Nat := if bad then [code] else []

/-- What a check needs to know of the program: WIDTH, the call numbers, the bundles, and the loop bodies (the LOOP's
bundle, first and last bundle). -/
structure Prog where
  width : Nat
  ncall : Nat
  n : Nat
  bodies : List (Nat × Nat × Nat)

def inRange (v lo hi : Int) : Bool := lo ≤ v && v ≤ hi
def imm16Bad (v : Int) : Bool := !inRange v (-32768) 32767
def opndRegs : Opnd → List Nat | .reg n => [n] | .imm _ => []
def opndImm : Opnd → Option Int | .reg _ => none | .imm v => some v

/-- The slot of an operation, in the order SC, SY, MX, VE, LD, ST (R138). -/
def slotHome : SlotOp → Nat | .sc _ => 0 | .sy _ => 1 | .mx _ => 2 | .ve _ => 3 | .ld _ => 4 | .st _ => 5

/-! ### Flags and synchronisation fields (R113, R114, R115, R119) -/

def flagBad (p : Prog) (f : Nat) : List Nat :=
  chk (127 < f) leBundleForm ++ chk (96 ≤ f && f ≤ 127) leFlagNumber ++ chk (64 ≤ f && f < 96 && p.width == 1) leFlagScope
def countBad (n : Nat) : List Nat := chk (n == 0) leSyncField ++ chk (255 < n) leBundleForm

def syncBad (p : Prog) (mx : Bool) (y : SyncF) : List Nat :=
  (match y.wflag with | some f => flagBad p f ++ countBad y.wcount | none => [])
    ++ (match y.sflag with | some f => flagBad p f ++ countBad y.scount | none => [])
    ++ (match y.tl with | some l => chk (mx || decide (5 < l)) leSyncField | none => chk (y.tile && !mx) leBundleForm)

/-! ### The scalar slot (R123, R124, R157, R162, R165, R169) -/

/-- A branch's target: outside the code, or inside a body that the branch is not in (R123). -/
def targetBad (p : Prog) (i t : Nat) : Bool :=
  p.n ≤ t || p.bodies.any fun (_, f, l) => (f ≤ t && t ≤ l) && !(f ≤ i && i ≤ l)

def dfieldNo : DField → Nat | .count n => n | .stride n => n | _ => 0

/-- An immediate written to a descriptor field (Table 5-5; R140 for values that DESC_IMM does not name). -/
def dsetBad (f : DField) (v : Int) : List Nat :=
  match f with
  | .count _ => chk (!inRange v 1 65536) leDescImm
  | .stride _ => chk (!inRange v (-524288) 524287) leDescImm
  | .step => chk (!inRange v (-524288) 524287) leDescImm
  | .base => chk (0x7FFFF < v) leDescImm ++ chk (v < 0) leBundleForm
  | .rbase => chk (v % 64 ≠ 0) leDescImm ++ chk (v < 0 || 0x7FFC0 < v) leBundleForm
  | .rsize => chk (v % 64 ≠ 0 || 524288 < v) leDescImm ++ chk (v < 0) leBundleForm
  | .esize => chk (!inRange v 0 7) leBundleForm
  | .sshift => chk (!inRange v 0 15) leBundleForm

def scRegs : ScOp → List Nat
  | .alu _ d a b => d :: a :: opndRegs b
  | .li d _ => [d]
  | .lih d _ => [d]
  | .fop _ d a b => [d, a, b]
  | .fma d a b c => [d, a, b, c]
  | .fcvtF d a => [d, a]
  | .fcvtI d a => [d, a]
  | .ldn _ _ d a _ => [d, a]
  | .stn _ a _ b => [a, b]
  | .sread d _ => [d]
  | .br _ => []
  | .brc _ a b _ => [a, b]
  | .loop c _ => opndRegs c
  | .call _ => []
  | .ret => []
  | .endp => []
  | .dset d _ v => d :: opndRegs v
  | .dadd d v => d :: opndRegs v
  | .dcopy d e => [d, e]

/-- MIN, MAX, MINU and MAXU take no immediate (Table 6-1). -/
def aluImm : AluF → Bool | .min => false | .max => false | .minu => false | .maxu => false | _ => true

def scBad (p : Prog) (i : Nat) (o : ScOp) : List Nat :=
  chk ((scRegs o).any (31 < ·)) leBundleForm ++ (match o with
  | .alu f _ _ (.imm v) => chk (imm16Bad v) leScImm ++ chk (!aluImm f) leBundleForm
  | .li _ v => chk (!inRange v (-2147483648) 4294967295) leScImm
  | .lih _ v => chk (!inRange v (-2147483648) 4294967295) leScImm
  | .ldn n _ _ _ v => chk (imm16Bad v) leScImm ++ chk (!([1, 2, 4, 8].contains n)) leBundleForm
  | .stn n _ v _ => chk (imm16Bad v) leScImm ++ chk (!([1, 2, 4, 8].contains n)) leBundleForm
  | .sread _ k => chk (6 < k) leStatusSelect
  | .br t => chk (targetBad p i t) leBranchTarget
  | .brc _ _ _ t => chk (targetBad p i t) leBranchTarget
  | .call t => chk (targetBad p i t) leBranchTarget
  | .loop c l => (match c with | .imm v => chk (!inRange v 1 65536) leScImm | .reg _ => [])
      ++ chk (p.n ≤ l) leBranchTarget ++ chk (l < i + 1) leLoopNest
      ++ chk (p.bodies.any fun (_, f, e) => f ≤ i && i ≤ e && e < l) leLoopNest
  | .dset _ f v => chk (5 < dfieldNo f) leBundleForm ++ (match v with
      | .imm x => dsetBad f x
      | .reg _ => chk (f == .esize) leDescEsize)
  | .dadd _ (.imm v) => chk (!inRange v (-524288) 524287) leBundleForm
  | _ => [])

/-! ### The SY slot (R114) -/

def syBad (p : Prog) : SyOp → List Nat
  | .wait f n => flagBad p f ++ countBad n
  | .waitNc f n => flagBad p f ++ countBad n
  | .signal f n => flagBad p f ++ countBad n
  | .waitSignal f n g m => flagBad p f ++ countBad n ++ flagBad p g ++ countBad m
  | .set f v => flagBad p f ++ chk (65535 < v) leBundleForm
  | .idle m => chk (15 < m) leBundleForm

/-! ### The matrix slot (Table 3-4) -/

/-- The class of a format in Table 2-3: operands of one class form a pair, where one is given. -/
def pairClass : Fmt → Option Nat
  | .e2m1 => some 0 | .mxfp4 => some 1
  | .e4m3 => some 2 | .e5m2 => some 2 | .e3m2 => some 2 | .e2m3 => some 2
  | .mxfp8e4m3 => some 3 | .mxfp8e5m2 => some 3 | .mxfp6e3m2 => some 3 | .mxfp6e2m3 => some 3
  | .int8 => some 4 | .mxint8 => some 5 | .fp16 => some 6 | .bf16 => some 6 | _ => none

/-- FA and FB form a pair of Table 2-3 (R42). -/
def fmtPair (a b : Nat) : Bool :=
  match (Fmt.ofCode a).bind pairClass, (Fmt.ofCode b).bind pairClass with
  | some x, some y => x == y
  | _, _ => false

def isMma (k : MxKind) : Bool := k == .mmaOs || k == .mmaWs || k == .mmaWt
def fmtBad (c : Nat) : Bool := (Fmt.ofCode c).isNone
def codeMx (c : Nat) : Bool := match Fmt.ofCode c with | some f => f.isMx | none => false

/-- FOUT against ACC and the pair class (Table 3-4). -/
def outBad (fout : Nat) (exact int8 : Bool) : Bool :=
  (fout == 0x10 && !(int8 && !exact)) || (fout == 0x11 && !exact)

/-- Descriptors that the operation requires and does not name (Tables 3-2, 3-3 and 5-3). -/
def mxMissing (o : MxOp) : Bool :=
  match o.kind with
  | .mmaOs => (if o.sparse then (o.amask % 4 ≠ 0 && o.da.isNone) || (o.amask / 4 ≠ 0 && o.da2.isNone) || o.dmeta.isNone
      else o.da.isNone) || o.db.isNone || (!o.hold && o.dc.isNone) || (o.init == .load && o.dl.isNone)
  | .mmaWs => o.da.isNone || (!o.wHold && o.db.isNone) || (!o.hold && o.dc.isNone) || (o.init == .load && o.dl.isNone)
  | .mmaWt => o.da.isNone || (!o.wHold && o.db.isNone) || (!o.hold && o.dc.isNone) || (o.init == .load && o.dl.isNone)
  | .ewmul => o.da.isNone || o.db.isNone || o.dc.isNone
  | .accDrain => o.dc.isNone

/-- KP, NP, NT, TOK or N outside its range in Table 3-3. -/
def passBad (o : MxOp) : Bool :=
  match o.kind with
  | .mmaOs => !(inRange o.kp 1 (if o.sparse then 64 else 128) && inRange o.np 1 4096 && inRange o.nt 1 65535)
  | .mmaWs => !(inRange o.np 1 4096 && inRange o.nt 1 65535 && inRange o.tok 1 16)
  | .mmaWt => !(inRange o.np 1 4096 && inRange o.nt 1 65535 && inRange o.tok 1 8)
  | .ewmul => !inRange o.n 64 65536 || o.n % 64 ≠ 0
  | .accDrain => false

def mxDescs (o : MxOp) : List Nat :=
  opt o.da ++ opt o.da2 ++ opt o.db ++ opt o.dmeta ++ opt o.dsa ++ opt o.dsb ++ opt o.dc ++ opt o.dsc ++ opt o.dl

def srBad (base stride : Nat) : Bool := 2 ^ 64 ≤ base || 2 ^ 32 ≤ stride

def callBad (p : Prog) (c : Option Nat) : List Nat := match c with | some k => chk (p.ncall ≤ k) leCallnum | none => []

def mxBad (p : Prog) (o : MxOp) : List Nat :=
  let two : Bool := o.kind ≠ .accDrain
  let mma := isMma o.kind
  chk ((two && (fmtBad o.fa || fmtBad o.fb)) || fmtBad o.fout) leFormatCode
    ++ chk (two && !fmtPair o.fa o.fb) leFormatPair
    ++ chk (mma && o.exact && (o.fa == 2 || o.fb == 2)) leFormatMode
    ++ chk (o.fout == 0x0F || fmtBad o.fout || (codeMx o.fout && o.dsc.isNone) || (mma && outBad o.fout o.exact (o.fa == 8))
        || (o.kind == .ewmul && outBad o.fout false (o.fa == 8))) leOutFormat
    ++ chk (two && o.sparse && !(o.fa == o.fb && (o.fa == 7 || o.fa == 0x0D))) leSparseFormat
    ++ chk (passBad o) lePassLength
    ++ chk (o.amask == 0 || (o.kind == .ewmul && !([1, 2, 4, 8].contains o.amask))) leArrayMask
    ++ chk ((o.kind == .mmaWs || o.kind == .mmaWt) && o.wHold && o.np ≠ 1) leHeldChain
    ++ callBad p o.call ++ syncBad p true o.sync
    ++ chk (mxMissing o || (mxDescs o).any (31 < ·) || 15 < o.amask || (o.exact && !inRange o.ew (-512) 511)
        || srBad o.srBase o.srStride || !inRange o.srTstep (-(2 ^ 63)) (2 ^ 63 - 1)) leBundleForm

/-! ### The vector slot (Table 6-11) -/

def veReadable (c : Nat) : Bool := [0, 1, 2, 0x0F, 0x10].contains c

/-- The sources a step reads. -/
def stepArity : StepOp → Nat
  | .fma => 3 | .sel => 3
  | .abs => 1 | .neg => 1 | .rcp => 1 | .sqrt => 1 | .rsqrt => 1 | .exp2 => 1 | .log2 => 1 | .tanh => 1 | .sigmoid => 1
  | _ => 2
def stepSrcs (t : LaneStep) : List Src := [t.a, t.b, t.c].take (stepArity t.op)

/-- The sources that the operation uses: of its steps, OUTT where it writes DZ, RSRC where it reduces. -/
def veSrcs (o : VeOp) : List Src :=
  (o.steps.map stepSrcs).flatten ++ (if o.vred then [] else o.outt.toList) ++ (if o.red == .none then [] else o.rsrc.toList)

/-- A temporary is read before a step has written it (R175). -/
def chainBad : List Nat → List LaneStep → List Src → Bool
  | w, [], tail => tail.any fun z => match z with | .t n => !w.contains n | _ => false
  | w, t :: ts, tail => ((stepSrcs t).any fun z => match z with | .t n => !w.contains n | _ => false) || chainBad (t.dst :: w) ts tail

/-- A stream's use: whether its source is read, its format and its descriptor. -/
def veStreams (o : VeOp) : List (Bool × Option Nat × Option Nat) :=
  let us := veSrcs o
  [(us.contains .x || o.vred, o.fx, o.dx), (us.contains .y, o.fy, o.dy), (us.contains .w, o.fw, o.dw),
   (us.contains .g, o.fg, o.dg), (us.contains .h, o.fh, o.dh)]

def srcForm (o : VeOp) : Src → Bool
  | .k n => 3 < n || o.k.length ≤ n
  | .t n => 7 < n
  | .sa => o.sa.isNone
  | .sb => o.sb.isNone
  | _ => false

def isCountRed : RedKind → Bool | .argmax => true | .nonfinite => true | .nonzero => true | _ => false

def rtgtDr : RTgt → Bool | .dr => true | _ => false
def rtgtScalar : RTgt → Option (Nat × Nat) | .scalar d f => some (d, f) | _ => Option.none
def rtgtNone : RTgt → Bool | .none => true | _ => false

def veBad (p : Prog) (o : VeOp) : List Nat :=
  let ss := veStreams o
  let fs : List Nat := ss.filterMap fun x => if x.1 || x.2.2.isSome then x.2.1 else none
  let out : Bool := !o.vred || rtgtDr o.rtgt
  let red : Bool := o.red ≠ .none
  let tail := (if o.vred then [] else o.outt.toList) ++ (if red then o.rsrc.toList else [])
  chk ((opt o.fx ++ opt o.fy ++ opt o.fw ++ opt o.fg ++ opt o.fh ++ [o.fout]).any fmtBad) leFormatCode
    ++ (match rtgtScalar o.rtgt with | some (_, f) => flagBad p f | none => [])
    ++ callBad p o.call ++ syncBad p false o.sync
    ++ chk ((o.steps.any fun t => 7 < t.dst) || o.sa == some 0 || o.sb == some 0 || (opt o.sa ++ opt o.sb).any (31 < ·)
        || (veSrcs o).any (srcForm o) || 4 < o.k.length || o.k.any (2 ^ 32 ≤ ·)
        || (ss.any fun x => x.1 && x.2.2.isSome && x.2.1.isNone) || (!o.vred && o.outt.isNone)
        || (red && (o.rsrc.isNone || rtgtNone o.rtgt)) || (!red && (o.vred || !rtgtNone o.rtgt))
        || !inRange o.srCols 1 65536 || srBad o.srBase o.srStride
        || (match rtgtScalar o.rtgt with | some (d, _) => 31 < d | none => false)
        || (opt o.dx ++ opt o.dy ++ opt o.dw ++ opt o.dg ++ opt o.dh ++ opt o.dz ++ opt o.dzs ++ opt o.dr).any (31 < ·))
        leBundleForm
    ++ chk ((fs.any fun c => if o.b16 then c ≠ 2 else !veReadable c) || (out && o.fout == 0x11)) leVeFormat
    ++ chk (16 < o.steps.length || chainBad [] o.steps tail || (o.b16 && o.steps.any fun t => 3 < stepLat t.op)
        || 56 < o.steps.foldl (fun n t => n + stepLat t.op) 0) leVeChain
    ++ chk (o.vred == o.dz.isSome || (o.dzs.isSome && !codeMx o.fout) || (codeMx o.fout && o.dzs.isNone)
        || (ss.any fun x => x.1 != x.2.2.isSome) || rtgtDr o.rtgt != o.dr.isSome) leVeRole
    ++ chk (6 < o.rl) leVeReduce
    ++ chk (red && (o.b16 || (match rtgtScalar o.rtgt with | some (d, _) => o.rl ≠ 6 || d == 0 | none => false)
        || (rtgtDr o.rtgt && isCountRed o.red && o.fout ≠ 0x10))) leVeReduce

/-! ### The load and store slots (R120, R140, R148, R195–R199, R222, R223) -/

def tgtBad (p : Prog) (rl : Nat) (t : CntTgt) : List Nat :=
  chk (6 < rl) leBundleForm ++ (match t with
    | .scalar d f => chk (31 < d) leBundleForm ++ flagBad p f
    | .dm d => chk (31 < d) leBundleForm)

def ldBad (p : Prog) : LdOp → List Nat
  | .ld w off n f y => chk (15 < w || 31 < off || 31 < n || 31 < f) leBundleForm ++ syncBad p false y
  | .scnt ds fmt _ sv rl t y => chk (fmtBad fmt) leFormatCode ++ chk (31 < ds || 31 < sv) leBundleForm ++ tgtBad p rl t ++ syncBad p false y
  | .scas a v se sn d f y => chk ([a, se, sn, d].any (31 < ·) || imm16Bad v) leBundleForm ++ flagBad p f ++ syncBad p false y
  | .smcnt w off ds fmt _ sv rl t y => chk (fmtBad fmt) leFormatCode
      ++ chk (15 < w || 31 < off || 31 < ds || 31 < sv) leBundleForm ++ tgtBad p rl t ++ syncBad p false y
  | .smcas w off v se sn d f y => chk (15 < w || [off, se, sn, d].any (31 < ·) || imm16Bad v) leBundleForm
      ++ flagBad p f ++ syncBad p false y

def stBad (p : Prog) : StOp → List Nat
  | .st w off n f y => chk (15 < w || 31 < off || 31 < n || 31 < f) leBundleForm ++ syncBad p false y
  | .stLink b n f y => chk (63 < b || 31 < n || 31 < f) leBundleForm ++ syncBad p false y
  | .stSignal u f n y => chk (127 < f) leBundleForm ++ chk (63 < f && f ≤ 127) leFlagNumber ++ chk (p.width == 1) leFlagScope
      ++ chk (p.width ≤ u) leSignalTarget ++ countBad n ++ syncBad p false y

/-- The codes that an operation in slot `slot` of bundle `i` breaks, paths apart. -/
def opBad (p : Prog) (i slot : Nat) (o : SlotOp) : List Nat :=
  chk (slotHome o ≠ slot) leSlot ++ (match o with
  | .sc o => scBad p i o
  | .sy o => syBad p o
  | .mx o => mxBad p o
  | .ve o => veBad p o
  | .ld o => ldBad p o
  | .st o => stBad p o)

/-- The slots of a bundle in the order of R138. -/
def rawSlots (b : RawBundle) : List (Nat × SlotOp) :=
  [(0, b.sc), (1, b.sy), (2, b.mx), (3, b.ve), (4, b.ld), (5, b.st)].filterMap fun (k, o) => o.map fun o => (k, o)

/-- The operations of one kind, wherever they stand. -/
def rawSc (b : RawBundle) : Option ScOp := (rawSlots b).findSome? fun (_, o) => match o with | .sc o => some o | _ => none

/-- The bundle as the sequencer runs it, once every operation stands in its own slot. -/
def rawPlaced (b : RawBundle) : Bundle :=
  { sc := b.sc.bind fun o => match o with | .sc o => some o | _ => none,
    sy := b.sy.bind fun o => match o with | .sy o => some o | _ => none,
    mx := b.mx.bind fun o => match o with | .mx o => some o | _ => none,
    ve := b.ve.bind fun o => match o with | .ve o => some o | _ => none,
    ld := b.ld.bind fun o => match o with | .ld o => some o | _ => none,
    st := b.st.bind fun o => match o with | .st o => some o | _ => none }

end Sys2Proof.Machine
end

