-- ==== Sys2Proof/Machine/CheckPaths.lean ====
section
/-! DEFINITION. The loader's walk of every control path of a compute program (R75, R90, R123–R126, R138, R162,
R171) and the checks that follow from it; the mode combinations of Table 20-2. -/

namespace Sys2Proof.Machine

/-- How a set came to be held (R75): the kind of MMA, the arrays it selected, ACC, EW, and whether by an INT8 pair. -/
structure HoldSig where
  kind : MxKind
  amask : Nat
  exact : Bool
  ew : Int
  int8 : Bool
  deriving DecidableEq, Repr

/-- Where a control path stands before a bundle: open loops, innermost first (first and last bundle); the open call's
return index and the loops open at it; the sets held on each array, oldest first; the format of the tile each array
holds; and the ESIZE of each descriptor. -/
structure Path where
  pc : Nat
  loops : List (Nat × Nat) := []
  call : Option (Nat × Nat) := none
  holds : List (List HoldSig) := [[], [], [], []]
  tiles : List (Option Nat) := [none, none, none, none]
  es : List Nat := []
  deriving DecidableEq, Repr

/-- A load error found: bundle, rank in the order of R138 (0 BUNDLE_FORM, 1–6 the slots, 7 the bundle), code. -/
structure LoadErr where
  bundle : Nat
  rank : Nat
  code : Nat
  deriving DecidableEq, Repr

def LoadErr.before (a b : LoadErr) : Bool :=
  a.bundle < b.bundle || (a.bundle == b.bundle && (a.rank < b.rank || (a.rank == b.rank && a.code < b.code)))

/-- The error that R138 reports. -/
def firstError : List LoadErr → Option LoadErr
  | [] => none
  | e :: t => match firstError t with
    | some f => if f.before e then some f else some e
    | none => some e

def slotErrs (i slot : Nat) (cs : List Nat) : List LoadErr :=
  cs.map fun c => ⟨i, if c = leBundleForm then 0 else slot + 1, c⟩

/-! ### What the operations of a bundle need and leave -/

def mxSig (o : MxOp) : HoldSig := ⟨o.kind, o.amask, o.exact, if o.exact then o.ew else 0, o.fa == 8⟩
def updAt {α : Type} (l : List α) (as : List Nat) (f : α → α) : List α :=
  l.zipIdx.map fun (x, k) => if as.contains k then f x else x

/-- ESIZE of each role that Table 5-3 gives the operation: descriptor and required code. -/
def mxEsizes (o : MxOp) : List (Nat × Nat) :=
  let one (d : Option Nat) (b : Bool) (e : Nat) : List (Nat × Nat) := if b then d.toList.map fun x => (x, e) else []
  match o.kind with
  | .ewmul => one o.da true 5 ++ one o.db true 5 ++ one o.dc true 5 ++ one o.dsa (codeMx o.fa) 0 ++ one o.dsb (codeMx o.fb) 0
      ++ one o.dsc (codeMx o.fout) 0
  | .accDrain => one o.dc true 5 ++ one o.dl true 5 ++ one o.dsc (codeMx o.fout) 5
  | _ => one o.da true 6 ++ one o.da2 o.sparse 6 ++ one o.db (!(isMma o.kind && o.kind ≠ .mmaOs && o.wHold)) 6
      ++ one o.dmeta o.sparse 6 ++ one o.dsa (codeMx o.fa) 6 ++ one o.dsb (codeMx o.fb) 6 ++ one o.dc true 5 ++ one o.dl true 5
      ++ one o.dsc (codeMx o.fout) 5

def Path.esizeOf (p : Path) (d : Nat) : Nat := p.es.getD d 0
def Path.heldOn (p : Path) (a : Nat) : List HoldSig := p.holds.getD a []

/-- An MX operation on a path: the codes it breaks there, and the path after it (R75, R90, R162). -/
def Path.mx (p : Path) (o : MxOp) : List Nat × Path :=
  let as := mxArrays o
  let sig := mxSig o
  let eBad := chk ((mxEsizes o).any fun (d, e) => p.esizeOf d ≠ e) leDescEsize
  match o.kind with
  | .ewmul => (eBad, p)
  | .accDrain => (eBad ++ chk (as.any fun a => (p.heldOn a).isEmpty) leAccChain,
      { p with holds := updAt p.holds as fun _ => [] })
  | k =>
    let keep : Bool := o.init == .keep
    let accBad := chk (keep && as.any fun a => (p.heldOn a).isEmpty ||
      (p.heldOn a).any fun h => h.kind ≠ sig.kind || h.amask ≠ sig.amask || h.exact != sig.exact || h.ew ≠ sig.ew) leAccChain
    let tileBad := chk (k ≠ .mmaOs && o.wHold && as.any fun a =>
      match p.tiles.getD a none with | some f => !fmtPair o.fa f | none => true) leHeldChain
    let cont (l : List HoldSig) : List HoldSig := if keep then l.drop (min o.nt l.length) else l
    let after (l : List HoldSig) : List HoldSig :=
      if o.hold then (let all := cont l ++ List.replicate (min o.nt 2) sig; all.drop (all.length - 2)) else []
    (eBad ++ accBad ++ tileBad,
      { p with
        holds := updAt p.holds as after,
        tiles := if k ≠ .mmaOs ∧ ¬ o.wHold then updAt p.tiles as (fun _ => some o.fb) else p.tiles })

/-- ESIZE of a vector format (Table 6-3). -/
def veEsize (c : Nat) : Nat :=
  let b := (fmtOf c).bits
  if b = 32 then 2 else if b = 16 then 1 else if b = 6 then 7 else 0

/-- A vector operation names a descriptor of another ESIZE than Table 6-3 gives. -/
def Path.veBad (p : Path) (o : VeOp) : Bool :=
  let bad (d : Option Nat) (e : Nat) : Bool := match d with | some d => p.esizeOf d ≠ e | none => false
  ((veStreams o).any fun (_, f, d) => match f with | some f => bad d (veEsize f) | none => false)
    || bad o.dz (veEsize o.fout) || bad o.dzs 0 || bad o.dr (veEsize o.fout)

/-- The codes that a descriptor write breaks on the path, and the ESIZEs after it (R157, R162). -/
def Path.sc (p : Path) (o : ScOp) : List Nat × Path :=
  let al (d : Nat) (v : Int) : List Nat := chk (v % (esizeAlign (p.esizeOf d) : Int) ≠ 0) leDescAlign
  match o with
  | .dset d .esize (.imm v) => ([], if 0 ≤ v ∧ v ≤ 7 then { p with es := p.es.set d v.toNat } else p)
  | .dset d .base (.imm v) => (al d v, p)
  | .dset d .step (.imm v) => (al d v, p)
  | .dset d (.stride _) (.imm v) => (al d v, p)
  | .dadd d (.imm v) => (al d v, p)
  | .dcopy d e => ([], { p with es := p.es.set d (p.esizeOf e) })
  | _ => ([], p)

/-- Every operation of a bundle, read before the bundle's SC write (R106, R160). -/
def Path.bundle (p : Path) (b : RawBundle) : List LoadErr × Path :=
  let (es, q) := (rawSlots b).foldl (fun (acc : List LoadErr × Path) (x : Nat × SlotOp) =>
    match x.2 with
    | .mx o => let r := acc.2.mx o; (acc.1 ++ slotErrs p.pc x.1 r.1, r.2)
    | .ve o => (acc.1 ++ slotErrs p.pc x.1 (chk (p.veBad o) leVeEsize), acc.2)
    | .ld (.ld _ _ n f _) => (acc.1 ++ slotErrs p.pc x.1 (chk (p.esizeOf n ≠ p.esizeOf f) leDescEsize), acc.2)
    | .st (.st _ _ n f _) => (acc.1 ++ slotErrs p.pc x.1 (chk (p.esizeOf n ≠ p.esizeOf f) leDescEsize), acc.2)
    | .st (.stLink _ n f _) => (acc.1 ++ slotErrs p.pc x.1 (chk (p.esizeOf n ≠ p.esizeOf f) leDescEsize), acc.2)
    | _ => acc) ([], p)
  (rawSlots b).foldl (fun (acc : List LoadErr × Path) (x : Nat × SlotOp) =>
    match x.2 with
    | .sc o => let r := acc.2.sc o; (acc.1 ++ slotErrs p.pc x.1 r.1, r.2)
    | _ => acc) (es, q)

/-! ### Control flow (R123–R126) -/

/-- Loops that a bundle of the path may end: those opened since the open call. -/
def Path.own (p : Path) : Nat := match p.call with | some (_, m) => p.loops.length - m | none => p.loops.length

/-- What follows bundle `pc` in program flow: a back edge or the loop's end, innermost loop first; `n` loops may
end. -/
def flowAfter (pc : Nat) : Nat → List (Nat × Nat) → List (Nat × List (Nat × Nat))
  | n + 1, (f, l) :: t => if l = pc then (f, (f, l) :: t) :: flowAfter pc n t else [(pc + 1, (f, l) :: t)]
  | _, ls => [(pc + 1, ls)]

/-- A taken branch ends every loop that it leaves. -/
def flowLeave (t : Nat) : Nat → List (Nat × Nat) → List (Nat × Nat)
  | n + 1, (f, l) :: ls => if f ≤ t ∧ t ≤ l then (f, l) :: ls else flowLeave t n ls
  | _, ls => ls

/-- The paths that follow the bundle's control operation, and the codes it breaks on this path. -/
def Path.flow (p : Path) (n : Nat) (o : Option ScOp) : List Nat × List Path :=
  let next : List Path := (flowAfter p.pc p.own p.loops).map fun (k, ls) => { p with pc := k, loops := ls }
  let taken (t : Nat) : List Path := if t < n then [{ p with pc := t, loops := flowLeave t p.own p.loops }] else []
  match o with
  | some .endp => ([], [])
  | some (.br t) => ([], taken t)
  | some (.brc _ _ _ t) => ([], taken t ++ next)
  | some (.call t) =>
    if p.call.isSome then ([leCallDepth], [])
    else ([], if t < n then next.map fun q => { q with pc := t, call := some (q.pc, q.loops.length) } else [])
  | some .ret => match p.call with
    | some (r, m) => ([], [{ p with pc := r, loops := p.loops.drop (p.loops.length - m), call := none }])
    | none => ([leCallDepth], [])
  | some (.loop c l) =>
    if l < p.pc + 1 ∨ n ≤ l then ([], [])
    else if 4 ≤ p.loops.length ∨ 0 < p.own ∧ (p.loops.headD (0, l)).2 < l then ([leLoopNest], [])
    else ([], { p with pc := p.pc + 1, loops := (p.pc + 1, l) :: p.loops } ::
      (match c with
      | .reg _ => (flowAfter l p.own p.loops).map fun (k, ls) => { p with pc := k, loops := ls }
      | .imm _ => []))
  | _ => ([], next)

def ctlSlot (b : RawBundle) : Nat :=
  ((rawSlots b).find? fun x => match x.2 with | .sc _ => true | _ => false).elim 0 Prod.fst

/-- One bundle of one path: the errors it shows and the paths that follow. -/
def Path.step (p : Path) (code : List (Option RawBundle)) : List LoadErr × List Path :=
  let n := code.length
  match code[p.pc]? with
  | some (some b) =>
    let (es, q) := p.bundle b
    let (cs, nx) := q.flow n (rawSc b)
    let off := nx.any fun x => n ≤ x.pc
    (es ++ slotErrs p.pc (ctlSlot b) cs ++ (if off then [⟨n - 1, 7, leFallOff⟩] else []), nx.filter fun x => x.pc < n)
  | _ => ([], [])

/-- Walk every control path: work list, paths seen, errors found. -/
def explore (code : List (Option RawBundle)) : Nat → List Path → List Path → List LoadErr → List Path × List LoadErr
  | 0, _, seen, es => (seen, es)
  | _, [], seen, es => (seen, es)
  | fuel + 1, p :: work, seen, es =>
    if seen.contains p then explore code fuel work seen es
    else
      let (bad, nx) := p.step code
      explore code fuel (nx ++ work) (p :: seen) (es ++ bad)

/-! ### What an ACC.DRAIN drains on any path (R75), and the whole program -/

/-- The sets held, on any path, on the arrays that the ACC.DRAIN of bundle `i` selects. -/
def drainSets (seen : List Path) (i : Nat) (o : MxOp) : List HoldSig :=
  ((seen.filter fun p => p.pc = i).map fun p => ((mxArrays o).map p.heldOn).flatten).flatten

def drainBad (seen : List Path) (i : Nat) (o : MxOp) : List Nat :=
  match drainSets seen i o with
  | [] => []
  | h :: t =>
    if t.any fun g => g.exact != h.exact || g.ew ≠ h.ew || g.int8 != h.int8 then [leAccChain]
    else chk (outBad o.fout h.exact h.int8) leOutFormat

/-- The loop bodies of the code that lie within it. -/
def loopBodies (code : List (Option RawBundle)) : List (Nat × Nat × Nat) :=
  code.zipIdx.filterMap fun (b, i) => match b.bind rawSc with
    | some (.loop _ l) => if i + 1 ≤ l ∧ l < code.length then some (i, i + 1, l) else none
    | _ => none

/-- Every error of step 3 of R138 but those of paths. -/
def staticErrs (p : Prog) (code : List (Option RawBundle)) (seen : List Path) : List LoadErr :=
  (code.zipIdx.map fun (b, i) => match b with
    | none => [⟨i, 0, leBundleForm⟩]
    | some b => ((rawSlots b).map fun (k, o) => slotErrs i k (opBad p i k o ++
        (match o with | .mx m => (if m.kind = .accDrain then drainBad seen i m else []) | _ => []))).flatten).flatten

/-- The row length L of R541: for ACC.DRAIN, of the sets it drains. -/
def srRow (seen : List Path) (i : Nat) (o : MxOp) : Nat :=
  match o.kind with
  | .mmaWt => 128
  | .accDrain => if (drainSets seen i o).any fun h => h.kind == .mmaWt then 128 else 64
  | _ => 64

/-- Step 4 of R138: the mode combinations (Table 20-2), slot by slot. -/
def modeErrs (code : List (Option RawBundle)) (seen : List Path) : List LoadErr :=
  (code.zipIdx.map fun (b, i) => match b with
    | none => []
    | some b => ((rawSlots b).map fun (k, o) => match o with
      | .mx m => slotErrs i k (chk (m.sparse && m.kind ≠ .mmaOs) leSparseDataflow
          ++ chk (m.rnd == .sr && m.srStride < srRow seen i m) leSrOverlap)
      | .ve v => slotErrs i k (chk (!v.vred && v.rnd == .sr && v.srStride < v.srCols) leSrOverlap)
      | _ => []).flatten).flatten

/-- Steps 3 and 4 of R138. -/
def codeError (width ncall entry : Nat) (es : List Nat) (code : List (Option RawBundle)) : Option LoadErr :=
  let p : Prog := ⟨width, ncall, code.length, loopBodies code⟩
  let r := explore code (2 ^ 64) [{ pc := entry, es := es }] [] []
  match firstError (staticErrs p code r.1 ++ r.2) with
  | some e => some e
  | none => firstError (modeErrs code r.1)

end Sys2Proof.Machine
end

