-- ==== Sys2Proof/Machine/Trust.lean ====
section
/-! DEFINITION. Measurement registers, key slots and signature blocks (R467–R476). -/

namespace Sys2Proof.Machine

/-- Bytes held in consecutive 32-bit registers, low byte first. -/
def State.regBytes (s : State) (key : Nat → Nat) (n : Nat) : List Byte :=
  ((List.range n).map fun w => natLE 4 (s.rd (key w)).toNat).flatten

def State.putBytes (s : State) (key : Nat → Nat) (n : Nat) (bs : List Byte) : State :=
  (List.range n).foldl (fun (st : State) w => st.wr (key w) (BitVec.ofNat 64 (leNat ((bs.drop (4 * w)).take 4)))) s

def State.mreg (s : State) (i : Nat) : List Byte := s.regBytes (R.trustMreg i) 12
def State.cMeas (s : State) (x : Nat) : List Byte := s.regBytes (R.trustselCMeas x) 12

/-- MREG[i] := SHA-384(MREG[i] ‖ d) (R471). -/
def State.extend (s : State) (i : Nat) (d : List Byte) : State :=
  s.putBytes (R.trustMreg i) 12 (sha384 (s.mreg i ++ d))

/-- C_MEAS is extended in the same way (R472). -/
def State.extendCtx (s : State) (x : Nat) (d : List Byte) : State :=
  s.putBytes (R.trustselCMeas x) 12 (sha384 (s.cMeas x ++ d))

/-- ASCII bytes of a label (Table 17-6). -/
def label (t : String) : List Byte := t.toList.map fun c => BitVec.ofNat 8 c.toNat

/-! ### Signature blocks (R469, R474, Table 17-5) -/

def sigBytes : Nat := 5462

/-- The SHA-384 hashes of the two public keys in a block, joined. -/
def sigHashes (b : List Byte) : List Byte := sha384 ((b.drop 8).take 97) ++ sha384 ((b.drop 0x69).take 1952)

/-- A block verifies a message: its form, its key hashes against the accepted pairs, and both signatures. -/
def sigOk (accepted : List (List Byte)) (msg b : List Byte) : Bool :=
  b.length == sigBytes && leNat (b.take 2) == 1 && ((b.drop 2).take 6).all (· == 0)
    && accepted.contains (sigHashes b) && Config.sigVerify msg b

/-- The enabled key slots of a context (R475). -/
def State.ctxKeys (s : State) (x : Nat) : List (List Byte) :=
  ((List.range 4).filter fun k => s.bit (R.trustselCSigpol x) (1 + k)).map fun k => s.regBytes (R.trustselCKey x k) 24

def State.sigRequired (s : State) (x : Nat) : Bool := s.bit (R.trustselCSigpol x) 0

/-- The enabled SYS_KEY slots (R476). -/
def State.sysKeys (s : State) : List (List Byte) :=
  ((List.range 2).filter fun j => s.bit R.trustSysKeyEn j).map fun j => s.regBytes (R.trustSysKey j) 24

/-- A random draw of `n` bytes (R468: the device's random source). -/
def State.draw (s : State) (n : Nat) : State × List Byte :=
  ({ s with freeCtr := s.freeCtr + 1 }, natLE n (Config.random s.freeCtr n))

end Sys2Proof.Machine
end

