-- ==== Sys2Proof/Machine/Container.lean ====
section
/-! DEFINITION. Compute containers (R136–R139): their structure, the container checks and the program checks that
belong to no bundle (R138). -/

namespace Sys2Proof.Machine

/-- `n` bytes at an offset as a number; bytes that were not delivered read as zero (R136). -/
def le (bs : List Byte) (off n : Nat) : Nat := leNat ((bs.drop off).take n)
def zeroAt (bs : List Byte) (off n : Nat) : Bool := ((bs.drop off).take n).all (· == 0)

/-- A section table entry (Table 4-12). -/
structure Section where
  type : Nat
  flags : Nat
  off : Nat
  size : Nat
  rsv : Nat
  deriving DecidableEq, Repr

def sectionCount (bs : List Byte) : Nat := le bs 0x0E 2

def sections (bs : List Byte) : List Section :=
  (List.range (min (sectionCount bs) (bs.length / 16))).map fun i =>
    let o := 0x80 + 16 * i
    ⟨le bs o 2, le bs (o + 2) 2, le bs (o + 4) 4, le bs (o + 8) 4, le bs (o + 12) 4⟩

def Section.bytes (t : Section) (bs : List Byte) : List Byte := (bs.drop t.off).take t.size

/-- The bytes of the section of a type; `none` where there is none. -/
def sectionOf (bs : List Byte) (type : Nat) : Option (List Byte) :=
  ((sections bs).find? fun t => t.type = type).map fun t => t.bytes bs

/-- Reserved bytes of a section's contents (0x0105): of the certificate and of each call number. -/
def Section.reservedBad (t : Section) (bs : List Byte) : Bool :=
  if t.type = 3 then !(((t.bytes bs).drop 2).take 6).all (· == 0)
  else if t.type = 4 then ((t.bytes bs).zipIdx.any fun (b, i) => 6 ≤ i % 8 && i / 8 < (t.bytes bs).length / 8 && b ≠ 0)
  else false

def overlaps : List Section → Bool
  | [] => false
  | t :: ts => (ts.any fun u => t.off < u.off + u.size && u.off < t.off + t.size) || overlaps ts

def hasDup : List Nat → Bool
  | [] => false
  | t :: ts => ts.contains t || hasDup ts

/-- DIGEST of Table 4-11: bytes 0x30–0x4F read as zero, the SIGNATURE section left out. -/
def containerDigest (bs : List Byte) : List Byte :=
  let z := bs.take 0x30 ++ List.replicate 0x20 0 ++ bs.drop 0x50
  match (sections bs).find? fun t => t.type = 6 with
  | some t => sha256 (z.take t.off ++ z.drop (t.off + t.size))
  | none => sha256 z

def storedDigest (bs : List Byte) : List Byte := (bs.drop 0x30).take 32

/-- The container checks in the order of Table 4-14. -/
def containerError (bs : List Byte) (require : Bool) (accepted : List (List Byte)) : Option Nat :=
  let total := le bs 0x10 4
  let ts := sections bs
  let n := sectionCount bs
  let named := ts.filter fun t => 1 ≤ t.type && t.type ≤ 7
  let sig := sectionOf bs 6
  (chk (le bs 0 4 ≠ 0x424F4B53) 0x0101
    ++ chk (le bs 5 1 ≠ 1 || le bs 6 2 ≠ 128) 0x0102
    ++ chk (le bs 8 4 ≠ 0x00040001) 0x0103
    ++ chk (2 ^ 24 < total || total ≠ bs.length) 0x0104
    ++ chk (!zeroAt bs 0x18 24 || !zeroAt bs 0x50 48 || (ts.any fun t => 1 < t.flags || t.rsv ≠ 0)
        || ts.any fun t => t.reservedBad bs) 0x0105
    ++ chk (n == 0 || 64 < n || total < 0x80 + 16 * n || (ts.any fun t => t.off < 0x80 + 16 * n || total < t.off + t.size)
        || overlaps ts) 0x0106
    ++ chk (hasDup (named.map (·.type))) 0x0107
    ++ chk ((sectionOf bs 1).isNone || (sectionOf bs 2).isNone || (sectionOf bs 3).isNone
        || ts.any fun t => (t.type == 0 || 8 ≤ t.type) && t.flags % 2 == 1) 0x0108
    ++ chk (storedDigest bs ≠ containerDigest bs) 0x0109
    ++ chk (match sig with | some b => !sigOk accepted (label "NS4-OBJ1" ++ storedDigest bs) b | none => false) 0x010A
    ++ chk (require && sig.isNone) 0x010B).head?

/-! ### The program (Table 4-13, R143, R162) -/

/-- SCRATCH_INIT records; `none` where one reaches beyond 512 KiB or they do not fill the section exactly. -/
def scratchRecords : Nat → List Byte → Option (List (Nat × List Byte))
  | 0, [] => some []
  | 0, _ => none
  | _, [] => some []
  | fuel + 1, bs =>
    let a := le bs 0 4
    let n := le bs 4 4
    if bs.length < 8 + n ∨ 0x80000 < a + n then none
    else (scratchRecords fuel (bs.drop (8 + n))).map fun t => (a, (bs.drop 8).take n) :: t

/-- Reserved bits of Table 5-1 are zero and RSIZE is at most 8,192. -/
def Desc.fieldsOk (d : Desc) : Bool :=
  d.f 0 19 19 == 0 && d.f 0 23 23 == 0 && d.f 0 31 28 == 0 && d.f 0 63 52 == 0 && d.f 1 15 13 == 0 && d.f 1 63 30 == 0
    && (List.range 6).all (fun n => d.f (2 + n) 63 36 == 0) && d.f 1 29 16 ≤ 8192

def descsOf (bs : List Byte) : List Desc := (List.range 32).map fun i => BitVec.ofNat 512 (le bs (64 * i) 64)

def certOk (bs : List Byte) : Bool :=
  bs.length == 32 && le bs 0 2 == 1 && le bs 8 8 == le bs 16 8 + le bs 24 8 && 1 ≤ le bs 8 8 && le bs 8 8 < 2 ^ 48

/-- The bundles that the container holds (R6, R136). -/
def codeImage (bs : List Byte) : CodeImage := Config.decodeCode ((sectionOf bs 1).getD [])

/-- Steps 2 to 4 of R138: the error and the bundle index of the response. -/
def programError (bs : List Byte) : Option (Nat × Nat) :=
  let width := le bs 0x0C 1
  let wait := le bs 0x0D 1
  let code := (sectionOf bs 1).getD []
  let img := codeImage bs
  let descs := (sectionOf bs 2).getD []
  let ds := descsOf descs
  let scratch := (sectionOf bs 5).getD []
  let calls := ((sectionOf bs 4).getD []).length
  let first := (chk (!([1, 4, 16, 64, 128].contains width)) leWidth
    ++ chk (wait < 12 || 30 < wait) leWaitExp
    ++ chk (!certOk ((sectionOf bs 3).getD [])) leCertificate
    ++ chk (65536 < code.length || img.partialTail) leCodeSize
    ++ chk (img.bundles.length ≤ le bs 0x14 4) leBranchTarget
    ++ chk (descs.length ≠ 2048 || ds.any fun d => !d.fieldsOk) leDescField
    ++ chk ((scratchRecords scratch.length scratch).isNone) leScratchInit
    ++ chk (calls % 8 ≠ 0) leCallnum).head?
  match first with
  | some c => some (c, 0xFFFFFFFF)
  | none => (codeError width (calls / 8) (le bs 0x14 4) (ds.map Desc.esize) img.bundles).map fun e => (e.code, e.bundle)

/-- The bytes that the program region holds of a program (R371): CODE, DESCRIPTORS, SCRATCH_INIT. -/
def imageBytes (bs : List Byte) : List Byte :=
  (sectionOf bs 1).getD [] ++ (sectionOf bs 2).getD [] ++ (sectionOf bs 5).getD []

/-- The program that a container which passed every check holds, placed at `place`. -/
def programOf (x : Nat) (bs : List Byte) (place : Nat) : Program :=
  let calls := (sectionOf bs 4).getD []
  { ctx := x, width := le bs 0x0C 1, waitExp := le bs 0x0D 1, entry := le bs 0x14 4,
    code := (codeImage bs).bundles.filterMap fun b => b.map rawPlaced,
    descs := descsOf ((sectionOf bs 2).getD []),
    cert := le ((sectionOf bs 3).getD []) 8 8,
    callnums := (List.range (calls.length / 8)).map fun k => (le calls (8 * k) 2, le calls (8 * k + 2) 2, le calls (8 * k + 4) 2),
    scratch := (scratchRecords ((sectionOf bs 5).getD []).length ((sectionOf bs 5).getD [])).getD [],
    place := place, size := (imageBytes bs).length, digest := storedDigest bs }

end Sys2Proof.Machine
end

