-- ==== Sys2Proof/Machine/StageLoad.lean ====
section
/-! DEFINITION. Stage containers (R301–R303): the header checks, the checks of each word, of every control path and
of the translation. -/

namespace Sys2Proof.Machine

/-! ### Words (Table 10-4) -/

/-- The bits that Table 10-4 lists for an opcode, below bits [31:26]; none for a reserved opcode. -/
def wordMask : Nat → Option Nat
  | 0x00 => some 0
  | 0x01 => some 0x3FFC00F
  | 0x02 => some 0x3FFFFFF
  | 0x03 => some 0x3FFFFFF
  | 0x04 => some 0x3C00001
  | 0x05 => some 0x3FFBFFF
  | 0x06 => some 0x0003FFF
  | 0x07 => some 0
  | 0x08 => some 0
  | 0x09 => some 0x3FFFFFF
  | 0x0A => some 0x3FFFFFF
  | 0x0B => some 0x3FFFFFF
  | 0x0C => some 0x3FFFFFF
  | 0x0D => some 0x3FFFC00
  | 0x0E => some 0x3FFFFFC
  | 0x0F => some 0x3C00001
  | 0x10 => some 0x03C0007
  | 0x11 => some 0x3C00FFF
  | 0x12 => some 0x03C0000
  | 0x13 => some 0x03C0000
  | 0x18 => some 0x3FC3000
  | 0x19 => some 0x3FC3000
  | 0x1A => some 0x3C033FC
  | 0x1B => some 0x03C33FC
  | 0x1C => some 0x0003C01
  | 0x1D => some 0x03C0000
  | 0x1E => some 0x3FC3000
  | 0x1F => some 0x03C0000
  | 0x20 => some 0x3C03000
  | 0x21 => some 0x03FC000
  | 0x22 => some 0x3C03000
  | 0x23 => some 0x0003C00
  | 0x24 => some 0x3FFFC00
  | 0x28 => some 0x000300F
  | 0x29 => some 0x3C0000F
  | 0x2A => some 0x000000F
  | 0x2B => some 0x03C00FF
  | 0x2C => some 0x3C0000F
  | 0x2D => some 0x000000F
  | 0x2E => some 0x03FFC00
  | 0x2F => some 0x03C3000
  | 0x30 => some 0x3FC0000
  | 0x31 => some 0x03FC000
  | _ => none

/-- Which words are the second word of an LIW. -/
def liwTails : Bool → List (BitVec 32) → List Bool
  | _, [] => []
  | true, _ :: ws => true :: liwTails false ws
  | false, w :: ws => false :: liwTails (swOp w == 0x04) ws

/-- The codes that word `w` breaks (Table 10-10, step 3 of R302). -/
def wordBad (n : Nat) (tails : List Bool) (level : Nat) (w : BitVec 32) : List Nat :=
  let op := swOp w
  match wordMask op with
  | none => [0x0309]
  | some m =>
    let low := bits w 25 0
    let size := 2 ^ bits w 3 2
    let off := bits w 9 4
    let t := bits w 13 0
    chk (low &&& m ≠ low || (op == 0x05 && (bits w 17 15 == 7 || (bits w 17 15 == 6 && (swA w ≠ 0 || swB w ≠ 0))))
        || (op == 0x0E && (5 < bits w 4 2 || 0x11 < bits w 9 5)) || (op == 0x11 && bits w 11 11 == 1)) 0x030A
      ++ chk (((op == 0x1A || op == 0x1B) && (off % size ≠ 0 || 64 < off + size)) || (op == 0x11 && bits w 11 0 == 0)) 0x030B
      ++ chk ((op == 0x05 || op == 0x06) && (n ≤ t || tails.getD t false)) 0x030C
      ++ chk (level == 0 && (op == 0x1E || op == 0x1F || (op == 0x0F && bits w 0 0 == 1))) 0x030D

/-- The first word that breaks a check, and its lowest code. -/
def wordsError (level : Nat) (ws : List (BitVec 32)) : Option (Nat × Nat) :=
  let tails := liwTails false ws
  (ws.zipIdx.zip tails).findSome? fun ((w, i), tail) =>
    if tail then none else (wordBad ws.length tails level w).head?.map fun c => (c, i)

/-! ### Paths (step 4 of R302) -/

/-- What may follow the word at `pc` with the open call's return `ret`, and whether it breaks SC_CALL. -/
def wordFlow (w : BitVec 32) (pc : Nat) (ret : Option Nat) : Bool × List (Nat × Option Nat) :=
  match swOp w with
  | 0x08 => (false, [])
  | 0x05 => (false, (bits w 13 0, ret) :: (if bits w 17 15 = 6 then [] else [(pc + 1, ret)]))
  | 0x06 => if ret.isSome then (true, []) else (false, [(bits w 13 0, some (pc + 1))])
  | 0x07 => match ret with | some r => (false, [(r, none)]) | none => (true, [])
  | 0x04 => (false, [(pc + 2, ret)])
  | _ => (false, [(pc + 1, ret)])

/-- Every path: the errors found, as (word, code). -/
def stagePaths (ws : List (BitVec 32)) : Nat → List (Nat × Option Nat) → List (Nat × Option Nat) → List (Nat × Nat) →
    List (Nat × Nat)
  | 0, _, _, es => es
  | _, [], _, es => es
  | fuel + 1, p :: work, seen, es =>
    if seen.contains p then stagePaths ws fuel work seen es
    else match ws[p.1]? with
      | none => stagePaths ws fuel work (p :: seen) es
      | some w =>
        let (bad, nx) := wordFlow w p.1 p.2
        let es := (if bad then [(p.1, 0x030E)] else []) ++ (if nx.any fun q => ws.length ≤ q.1 then [(p.1, 0x030F)] else []) ++ es
        stagePaths ws fuel (nx.filter (fun q => q.1 < ws.length) ++ work) (p :: seen) es

/-- The path error reported: the lowest word, then the lowest code. -/
def lowestPair : List (Nat × Nat) → Option (Nat × Nat)
  | [] => none
  | p :: ps => match lowestPair ps with
    | some q => if q.1 < p.1 ∨ (q.1 = p.1 ∧ q.2 < p.2) then some q else some p
    | none => some p

/-! ### The container (Table 10-9) -/

def stageWords (bs : List Byte) : List (BitVec 32) :=
  (List.range (le bs 8 4)).map fun i => BitVec.ofNat 32 (le bs (64 + 4 * i) 4)
def stageData (bs : List Byte) : List Byte := (bs.drop (64 + 4 * le bs 8 4)).take (le bs 0x0C 4)
def stageSig (bs : List Byte) : List Byte := bs.drop (64 + 4 * le bs 8 4 + le bs 0x0C 4)
def stageDigest (bs : List Byte) : List Byte :=
  let b := bs.take (64 + 4 * le bs 8 4 + le bs 0x0C 4)
  sha256 (b.take 0x18 ++ List.replicate 32 0 ++ b.drop 0x38)
def stageStored (bs : List Byte) : List Byte := (bs.drop 0x18).take 32

/-- Step 1 of R302: the header in the order of Table 10-10. -/
def stageHeader (bs : List Byte) (level : Nat) (require : Bool) (accepted : List (List Byte)) : Option Nat :=
  let cw := le bs 8 4
  let db := le bs 0x0C 4
  let sb := le bs 0x38 4
  (chk (le bs 0 4 ≠ 0x43534B53) 0x0301
    ++ chk (le bs 5 1 ≠ 1) 0x0302
    ++ chk (cw == 0 || 16384 < cw || 32768 < db || db % 8 ≠ 0 || 64 + 4 * cw + db + sb ≠ bs.length) 0x0303
    ++ chk (le bs 0x14 4 ≠ 0 || le bs 0x3C 4 ≠ 0 || le bs 6 2 ≠ level || 1 < le bs 6 2) 0x0304
    ++ chk (stageStored bs ≠ stageDigest bs) 0x0305
    ++ chk (if sb = 0 then require else !sigOk accepted (label "NS4-STG1" ++ stageStored bs) (stageSig bs)) 0x0306).head?

/-- The sequencer may take a program: RUN is clear and no transfer slot holds an open grant (0x0308). -/
def State.seqFree (s : State) (q : Nat) : Bool :=
  !s.bit (R.stgSeqCtrl q) 0 && (List.range 16).all fun k => !([2, 6, 7, 8, 10].contains (s.slotState q k))

/-- A context whose partition is on the chip, resident (R302): HALTED, ACTIVE, HALTING, and TEARDOWN, which keeps what the
context has stored (Table 13-1). -/
def State.resident (s : State) (x : Nat) : Bool := x < 512 && [1, 2, 3, 4].contains (s.ctxState x)

/-- The checks of R302: the error and the word index of the response. -/
def State.stageError (s : State) (bs : List Byte) (level x q : Nat) : Option (Nat × Nat) :=
  let accepted := if level = 1 then s.sysKeys else s.ctxKeys x
  match stageHeader bs level (level = 0 && s.sigRequired x) accepted with
  | some c => some (c, 0xFFFFFFFF)
  | none =>
    if (level = 1 ∧ le bs 0x38 4 = 0) ∨ (level = 0 ∧ ¬ s.resident x) then some (0x0307, 0xFFFFFFFF)
    else if ¬ s.seqFree q then some (0x0308, 0xFFFFFFFF)
    else
      let ws := stageWords bs
      let entry := le bs 0x10 4
      match wordsError level ws with
      | some e => some e
      | none =>
        if ws.length ≤ entry ∨ (liwTails false ws).getD entry false then some (0x030C, 0xFFFFFFFF)
        else match lowestPair (stagePaths ws (2 ^ 64) [(entry, none)] [] []) with
          | some (i, c) => some (c, i)
          | none => if 32768 < Config.microOps ws then some (0x0310, 0xFFFFFFFF) else none

/-- The program is taken into the sequencer: loaded, stopped, not yet started (R274, R301). -/
def State.loadStage (s : State) (bs : List Byte) (level x q : Nat) : State :=
  let s := s.setSeq q { loaded := true, fresh := true, code := stageWords bs, entry := le bs 0x10 4, level := level,
                        ctx := if level = 0 then x else 0, init := stageData bs, digest := stageStored bs }
  let s := s.clearRegs ((List.range 16).map (R.stgXslot q))
  let s := (s.setFld (R.stgSeqStatus q) 3 3 level).setFld (R.stgSeqStatus q) 12 4 (if level = 0 then x else 0)
  let s := s.setSeqState q 1
  if level = 1 then s.extend 4 (stageStored bs) else s.extendCtx x (stageStored bs)

end Sys2Proof.Machine
end

