-- ==== Sys2Proof/Machine/Loader.lean ====
section
/-! DEFINITION. The management transports (R506, R507) and the loader's requests (R138, R301, R371, R472).  Transport
0 is I3C, 1 is PCIe VDM.  A response is a status of Table 18-8 and its bytes: of a load, the load error (2 bytes), the
bundle or word index (4 bytes) and the handle (2 bytes). -/

namespace Sys2Proof.Machine

def State.respond (s : State) (t status : Nat) (bs : List Byte) : State :=
  s.modHost fun h => { h with resp := h.resp.put t (status, bs) }

/-- A Dreutlan management message is served: the firmware runs, and over PCIe VDM the link is up; there it is
accepted only while HOST_PRIV = 1 (R506). -/
def State.mgmt (s : State) (t : Nat) (f : State → State) : State :=
  if ¬ s.firmware ∨ (t = 1 ∧ ¬ s.hostUp) then s
  else if t = 1 ∧ ¬ s.bit R.trustAccess 0 then s.respond t 4 []
  else f s

/-! ### Staging and placement -/

/-- Bytes written at an offset of a buffer, which grows with zeros where it must. -/
def overlay (old : List Byte) (off : Nat) (bs : List Byte) : List Byte :=
  old.take off ++ List.replicate (off - old.length) 0 ++ bs ++ old.drop (off + bs.length)

/-- `LOAD_DATA`. -/
def execLoadData (transport : Fin 2) (offset : BitVec 32) (data : List Byte) (s : State) : Res :=
  .next (s.mgmt transport fun s =>
    if 1024 < data.length ∨ 2 ^ 24 < offset.toNat + data.length then s.respond transport 7 []
    else (s.modHost fun h =>
      { h with staging := h.staging.set [] transport (overlay (h.staging.get [] transport) offset.toNat data) }).respond transport 0 [])

/-- The lowest address of the context's program region with room for `n` bytes (R371; the first fit is a choice of
this model); none where the region lacks room or does not lie in its class W granules. -/
def State.place (s : State) (x n : Nat) : Option Nat :=
  let base := s.fld (R.ctxselCProgBase x) 33 12 * 4096
  let size := s.fld (R.ctxselCProgSize x) 34 12 * 4096
  let used := (s.progs.filter fun p => p.2.ctx = x).map fun p => (p.2.place, p.2.size)
  let ok : Bool := base + size ≤ smSize && (granulesOf base size).all fun g => s.granValid g && s.granOwner g == x && s.granClass g == 0
  if ¬ ok then none
  else
    let fits (a : Nat) : Bool := base ≤ a && a + n ≤ base + size && used.all fun u => a + n ≤ u.1 || u.1 + u.2 ≤ a
    ((base :: used.map fun u => u.1 + u.2).filter fits).foldl (fun (b : Option Nat) a =>
      match b with | some c => some (min a c) | none => some a) none

def State.freeHandle (s : State) : Option Nat := (List.range 1024).find? fun h => !s.progs.any fun p => p.1 == h

def loadReply (err idx handle : Nat) : List Byte := natLE 2 err ++ natLE 4 idx ++ natLE 2 handle

/-! ### The loads -/

/-- A compute container has been delivered. -/
def State.loadCompute (s : State) (t x : Nat) (bs : List Byte) : State :=
  match containerError bs (s.sigRequired x) (s.ctxKeys x) with
  | some c => s.respond t 1 (loadReply c 0xFFFFFFFF 0)
  | none => match programError bs with
    | some (c, i) => s.respond t 1 (loadReply c i 0)
    | none => match s.place x (imageBytes bs).length, s.freeHandle with
      | some a, some h =>
        let s := { s with progs := s.progs.put h (programOf x bs a) }
        ((s.memWrite a (imageBytes bs)).extendCtx x (storedDigest bs)).respond t 0 (loadReply 0 0xFFFFFFFF h)
      | _, _ => s.respond t 2 []

/-- A stage container has been delivered. -/
def State.loadStageFor (s : State) (t level x q : Nat) (bs : List Byte) : State :=
  match s.stageError bs level x q with
  | some (c, i) => s.respond t 1 (loadReply c i 0)
  | none => (s.loadStage bs level x q).respond t 0 (loadReply 0 0xFFFFFFFF 0)

def State.loadDelivered (s : State) (t : Nat) (l : HostLoad) (bs : List Byte) : State :=
  if l.kind = 0 then s.loadCompute t l.ctx bs else s.loadStageFor t l.level l.ctx l.seqr bs

def State.setLoad (s : State) (t : Nat) (l : Option HostLoad) : State := s.modHost fun h => { h with loads := h.loads.set none t l }

/-- Read on from host memory, or judge the container once all of it has come (R507). -/
def State.loadMore (s : State) (t : Nat) (l : HostLoad) : State :=
  let done := l.got.length
  if l.size ≤ done then (s.setLoad t none).loadDelivered t l l.got
  else
    let a := l.addr + done
    match (if s.hostUp then s.hostRead 1 t a (min (l.size - done) (4096 - a % 4096)) false else none) with
    | some s => s.setLoad t (some l)
    | none => (s.setLoad t none).respond t 8 []

/-- `LOAD`: without an address it reads the staging buffer, which it empties; otherwise so many bytes of host memory. -/
def execLoad (transport : Fin 2) (kind ctx seqr level : Nat) (addr : Option (BitVec 64)) (size : BitVec 32) (s : State) : Res :=
  .next (s.mgmt transport fun s =>
    if (s.host.loads.get none transport).isSome then s.respond transport 3 []
    else if 1 < kind ∨ 511 < ctx ∨ (kind = 1 ∧ (3 < seqr ∨ 1 < level)) then s.respond transport 7 []
    else
      match addr with
      | none =>
        let bs := s.host.staging.get [] transport
        (s.modHost fun h => { h with staging := h.staging.set [] transport [] }).loadDelivered transport
          { kind, ctx, seqr, level, addr := 0, size := 0 } bs
      | some a => s.loadMore transport { kind, ctx, seqr, level, addr := a.toNat, size := size.toNat })

/-- A handle is unloaded; a job that runs its program keeps the code that its cores hold. -/
def State.unload (s : State) (h : Nat) : State :=
  let p := s.progs.get {} h
  let us := (List.range 171).filter fun u => s.hasJob u && (s.job u).handle == h
  let s := us.foldl (fun (st : State) u =>
    { st with progs := st.progs.put (1024 + u) p, jobs := st.jobs.set {} u { st.job u with handle := 1024 + u } }) s
  { s with progs := s.progs.erase h, wintab := s.wintab.filter fun w => w.1 / 16 ≠ h }

/-- `UNLOAD`. -/
def execUnload (transport : Fin 2) (handle : BitVec 16) (s : State) : Res :=
  .next (s.mgmt transport fun s =>
    if handle.toNat < 1024 ∧ s.progs.any fun p => p.1 = handle.toNat then (s.unload handle.toNat).respond transport 0 []
    else s.respond transport 7 [])

/-! ### Queues and the privileged buffer -/

/-- `MGMT_ENQ`. -/
def execMgmtEnq (transport : Fin 2) (queue : Fin 4096) (card : BitVec 512) (s : State) : Res :=
  .next (s.mgmt transport fun s =>
    let (s, r) := s.offer .mc none queue card
    s.respond transport (match r with | .ok => 0 | .full => 5 | _ => 4) [])

/-- The answer to a dequeue by message (R506). -/
def State.deqAnswer (s : State) (t : Nat) : DeqRes → State
  | .card c => s.respond t 0 (natLE 64 c.toNat)
  | .empty => s.respond t 6 []
  | .refused => s.respond t 4 []
  | .other => s.respond t 4 []

/-- `MGMT_DEQ`; `err`: an error of the head card's word. -/
def execMgmtDeq (transport : Fin 2) (queue : Fin 4096) (err : Nat) (s : State) : Res :=
  .next (s.mgmt transport fun s =>
    let p := (s.headUpset queue err).dequeue .mc none queue (fun _ => false)
    p.1.deqAnswer transport p.2)

/-- `SBUF_READ`. -/
def execSbufRead (transport : Fin 2) (offset len : BitVec 32) (s : State) : Res :=
  .next (s.mgmt transport fun s =>
    if 1024 < len.toNat ∨ s.fld R.obsSbufSize 33 12 * 4096 < offset.toNat + len.toNat then s.respond transport 7 []
    else
      let (s, bs, _) := s.memRead (s.fld R.obsSbufBase 33 12 * 4096 + offset.toNat) len.toNat
      s.respond transport 0 bs)

/-! ### I3C and PLDM (R506) -/

/-- `ENTDAA`: the bus gives the I3C target its dynamic address. -/
def execEntdaa (addr : Fin 128) (s : State) : Res :=
  .next (if s.firmware ∨ s.trust.recovery then s.modHost fun h => { h with i3cAddr := some addr.val } else s)

/-- `PLDM_FIRMWARE_UPDATE`: an image is written to the slot that does not run. -/
def execPldmFirmwareUpdate (transport : Fin 2) (image : List Byte) (s : State) : Res :=
  .next (if ¬ (s.firmware ∨ s.trust.recovery) ∨ (transport.val = 1 ∧ ¬ s.hostUp) then s
  else if s.trust.running = some 0 then { s with trust := { s.trust with slotB := image } }
  else
    let s := { s with trust := { s.trust with slotA := image } }
    -- phase 0 begins again after an update in RECOVERY (Table 19-4)
    if s.trust.recovery then ({ s with trust := { s.trust with recovery := false } }).setPhase 0 else s)

end Sys2Proof.Machine
end

