-- ==== Sys2Proof/Machine/HostRings.lean ====
section
/-! DEFINITION. Host rings (R499–R504), the CXL.cache responses and snoops that drive them (R496–R498), completions
(R493, R494) and the host link (R489, R495). -/

namespace Sys2Proof.Machine

/-! ### Ring faults and disabling -/

/-- The lines of a ring (R496): its card lines and its two index lines. -/
def State.ringLines (s : State) (r : Nat) : List Nat :=
  (s.host.cache.map (·.1)).filter fun a =>
    (s.ringBase r ≤ a && a < s.ringBase r + 64 * s.ringDepth r) || a == s.ringIdx r || a == s.ringIdx r + 64

/-- A ring's EN clears: in CXL mode each of its lines is evicted, as the buffer has room (Table 18-4). -/
def State.ringOff (s : State) (r : Nat) : State :=
  let s := (s.setBit (R.hostRingCfg r) 0 false).setFld (R.hostRingState r) 2 2 0
  let s := s.modRing r fun x => { x with busy := false, retry := false, cards := [], arrived := [] }
  (s.modHost fun h => { h with leaving := h.leaving ++ (s.ringLines r) }).evictLeaving

/-- RING_BAD (R494, R503). -/
def State.ringBad (s : State) (r addr : Nat) : State :=
  (((s.setBit (R.hostRingState r) 1 true).ringOff r).intEvent 503 2).hostRaise 0xA005 2 (0x8000 + r) addr (some (s.ringCtx r))

/-! ### The device's index line (R500, R502) -/

def State.indexLine (s : State) (r : Nat) : BitVec 512 :=
  let x := s.ring r
  let c : Card := Card.put 0 0 4 x.own.toNat
  let c := c.put 4 4 (s.fld (R.hostRingState r) 1 0)
  if s.ringD2h r then c else c.put 8 4 (min x.refused 0xFFFFFFFF)

/-- Write a line of host memory for a ring: by DMA in PCIe mode, through the device cache in CXL mode. -/
def State.writeLine (s : State) (r a : Nat) (d : BitVec 512) (index : Bool) : State :=
  if s.hostCxl then
    match s.line a with
    | some l => if l.st ≠ 1 then s.putLine a { l with st := 3, data := d, pinned := index }
        else s.cxlAsk { kind := 2, line := a, ring := r, data := d, index }
    | none => s.cxlAsk { kind := 2, line := a, ring := r, data := d, index }
  else s.hostPost (some (s.ringCtx r)) a (natLE 64 d.toNat)

def State.writeIndex (s : State) (r : Nat) : State :=
  (s.modRing r fun x => { x with handled := 0, dirty := false }).writeLine r (s.ringIdx r + 64) (s.indexLine r) true

/-- A card has been handled: the index moves, and the line is written after the sixteenth. -/
def State.handled (s : State) (r : Nat) : State :=
  let s := s.modRing r fun x => { x with own := x.own + 1, handled := x.handled + 1, dirty := true }
  if 16 ≤ (s.ring r).handled then s.writeIndex r else s

/-- `RING_INDEX_WRITE`: within 1 µs of the last change. -/
def execRingIndexWrite (ring : Fin 64) (s : State) : Res :=
  .next (if s.ringEn ring ∧ s.hostUp ∧ (s.ring ring).dirty then s.writeIndex ring else s)

/-! ### H2D cards (R502) -/

/-- The card as the host port acts for CTX (R499). -/
def State.ringCard (s : State) (r : Nat) (c : Card) : Card :=
  setBits (setBits c 24 16 (s.ringCtx r)) 127 116 (s.ctxSlice (s.ringCtx r))

/-- What a ring does once card `c` was offered: it keeps `c` and the `cs` after it where the queue is full, else it goes
on with `go`. -/
def State.afterOffer (s : State) (r : Nat) (c : Card) (cs : List Card) (st : EnqStatus) (go : State → State) : State :=
  match st with
  | .full => (s.setBit (R.hostRingState r) 0 true).modRing r fun x => { x with cards := c :: cs, dirty := true }
  | .ok => go (((s.setBit (R.hostRingState r) 0 false).account (s.ringCtx r) 9 64).handled r)
  | _ => go (((s.setBit (R.hostRingState r) 0 false).modRing r fun x => { x with refused := x.refused + 1 }).handled r)

/-- Offer the cards read, in index order, until one meets a full queue. -/
def State.offerCards (s : State) (r : Nat) : List Card → State
  | [] => s.modRing r fun x => { x with cards := [], busy := false }
  | c :: cs =>
    let p := s.offer .host (some (s.ringCtx r)) (s.ringQueue r) (s.ringCard r c)
    p.1.afterOffer r c cs p.2 fun t => t.offerCards r cs

/-- Cards between the device's index and the host's, in order. -/
def Ring.waiting (x : Ring) : Nat := (x.host - x.own).toNat

/-- Read the next card lines: up to one read of 4,096 B that does not pass the ring's end, or one line each. -/
def State.readCards (s : State) (r : Nat) : State :=
  let x := s.ring r
  let n := x.waiting
  if n = 0 then s.modRing r fun x => { x with busy := false }
  else
    let s := s.modRing r fun x => { x with busy := true }
    let a := s.ringSlot r x.own.toNat
    if s.hostCxl then
      (List.range n).foldl (fun (st : State) k => st.cxlAsk { kind := 1, line := st.ringSlot r (x.own.toNat + k), ring := r }) s
    else
      let k := min n (min (s.ringDepth r - x.own.toNat % s.ringDepth r) (64 - a % 4096 / 64))
      match s.hostRead 2 r a (64 * k) true with
      | some s => s
      | none => s.modRing r fun x => { x with retry := true }

/-- Offer cards, and go on with those behind them. -/
def State.offerMore (s : State) (r : Nat) (cs : List (BitVec 512)) : State :=
  let s := s.offerCards r cs
  if (s.ring r).cards.isEmpty && s.ringEn r then s.readCards r else s

/-- `H2D_CARD_RETRY`: every 1 µs while FULL_WAIT is set. -/
def execH2dCardRetry (ring : Fin 64) (s : State) : Res :=
  .next (if s.ringEn ring ∧ ¬ s.ringD2h ring ∧ s.bit (R.hostRingState ring) 0 ∧ ¬ s.bit R.hostStatus 11
    then s.offerMore ring (s.ring ring).cards else s)

/-! ### Reading the host's index (R501, R503) -/

/-- The host's index line has been read. -/
def State.hostIndex (s : State) (r : Nat) (v : BitVec 32) : State :=
  let s := s.modRing r fun x => { x with host := v, fails := 0 }
  let x := s.ring r
  let gap := if s.ringD2h r then (x.own - v).toNat else x.waiting
  if s.ringDepth r < gap then s.ringBad r (s.ringIdx r)
  else if s.ringD2h r then s.modRing r fun x => { x with busy := false }
  else s.readCards r

/-- `RING_INDEX_READ`: the ring reads its host index line for a doorbell that waits. -/
def State.readIndex (s : State) (r : Nat) : State :=
  if ¬ s.ringEn r ∨ ¬ s.hostUp ∨ (s.ring r).busy ∨ ¬ s.bit (R.hostRingState r) 2 ∨ s.bit R.hostStatus 11 then s
  else
    let s := (s.setBit (R.hostRingState r) 2 false).modRing r fun x => { x with busy := true }
    if s.hostCxl then s.cxlAsk { kind := 0, line := s.ringIdx r, ring := r }
    else match s.hostRead 2 r (s.ringIdx r) 64 false with
      | some s => s
      | none => s.modRing r fun x => { x with retry := true }

def execRingIndexRead (ring : Fin 64) (s : State) : Res := .next (s.readIndex ring)

/-- A doorbell of a ring is kept until the ring reads its line (R501). -/
def State.doorbell (s : State) (r : Nat) : State := if s.ringEn r then s.setBit (R.hostRingState r) 2 true else s

/-- `DOORBELL`: HOST.DOORBELL in PCIe mode. -/
def execDoorbell (ring : Fin 64) (s : State) : Res := .next (if s.hostCxl then s else s.doorbell ring)

/-! ### D2H cards (R502, R504) -/

/-- Cards not yet signalled reach COUNT: one message. -/
def State.ringSignal (s : State) (r : Nat) : State :=
  if s.bit (R.hostRingIrq r) 11 then (s.modRing r fun x => { x with unsignalled := 0 }).msixSend (s.fld (R.hostRingIrq r) 10 0) else s

/-- A card stands in its slot of host memory: PROD covers it. -/
def State.cardWritten (s : State) (r : Nat) : State :=
  let s := (s.handled r).modRing r fun x =>
    { x with busy := false, unsignalled := x.unsignalled + 1, since := if x.unsignalled = 0 then s.now else x.since }
  if max 1 (s.fld (R.hostRingIrq r) 19 12) ≤ (s.ring r).unsignalled then s.ringSignal r else s

/-- A line stands in the cache in M. -/
def State.lineOwned (s : State) (a : Nat) : Bool := match s.line a with | some l => l.st == 3 | none => false

/-- A card of another context at the head of a DONE or EVENT queue (assumption log). -/
def State.ringOther (s : State) (r : Nat) (c : Card) : Bool :=
  (s.qClass (s.ringQueue r) == 1 || s.qClass (s.ringQueue r) == 2) && c.ctx != s.ringCtx r

/-- A card is written into slot `n` of the ring: by DMA, or into a line that the cache owns, it is visible at once. -/
def State.writeCard (s : State) (r n : Nat) (c : Card) : State :=
  let a := s.ringSlot r n
  let s := s.account (s.ringCtx r) 9 (if s.hostCxl then 64 else 0)
  let s := (s.modRing r fun x => { x with busy := true }).writeLine r a (s.ringCard r c) false
  if s.hostCxl && !s.lineOwned a then s else s.cardWritten r

/-- `D2H_CARD`: a card is dequeued and written into its slot; `err`: an error of the head card's word. -/
def execD2hCard (ring : Fin 64) (err : Nat) (s : State) : Res :=
  .next (
    let r := ring.val
    let x := s.ring r
    let q := s.ringQueue r
    if ¬ s.ringEn r ∨ ¬ s.ringD2h r ∨ ¬ s.hostUp ∨ x.busy ∨ s.bit R.hostStatus 11 ∨ s.ringDepth r ≤ (x.own - x.host).toNat ∨ s.qEmpty q then s
    else
      let s := s.headUpset q err
      match s.dequeue .host (some (s.ringCtx r)) q (s.ringOther r) with
      | (s, .card c) => s.writeCard r x.own.toNat c
      | (s, _) => s)

/-- `RING_INTERRUPT`: USEC microseconds after the first card not yet signalled. -/
def execRingInterrupt (ring : Fin 64) (s : State) : Res :=
  .next (
    let x := s.ring ring
    let us := s.fld (R.hostRingIrq ring) 31 20
    if ¬ s.ringEn ring ∨ x.unsignalled = 0 ∨ us = 0 ∨ ¬ s.bit (R.hostRingIrq ring) 11 then s
    else (s.advanceTo (x.since + 1600 * us)).ringSignal ring)

/-! ### Enabling (R499) -/

/-- The fields that a write of RING_CFG sets while EN is 0; a DEPTH_LOG2 outside 4–12 leaves the field unchanged. -/
def ringFields (old v : Word) : Word :=
  let keep := setBits (setBits old 13 1 (bits v 13 1)) 26 18 (bits v 26 18)
  if 4 ≤ bits v 17 14 ∧ bits v 17 14 ≤ 12 then setBits keep 17 14 (bits v 17 14) else keep

def State.ringOk (s : State) (r : Nat) : Bool :=
  let q := s.ringQueue r
  let x := some (s.ringCtx r)
  (if s.ringD2h r then s.mayDeq q .host x else s.mayEnq q .host x && [3, 4, 7, 8].contains (s.qClass q))
    && s.ringBase r % (64 * s.ringDepth r) == 0

/-- A write of RING_CFG. -/
def State.ringCfgWrite (s : State) (r : Nat) (v : Word) : State :=
  if s.ringEn r then
    let s := if bits v 0 0 = 0 ∧ (ringFields (s.rd (R.hostRingCfg r)) v ^^^ s.rd (R.hostRingCfg r)) &&& 0x7FFFFFE#64 = 0 then s else s.intEvent 503 2
    if bits v 0 0 = 0 then s.ringOff r else s
  else
    let s := s.wr (R.hostRingCfg r) (ringFields (s.rd (R.hostRingCfg r)) v)
    if bits v 0 0 = 0 then s
    else if ¬ s.ringOk r then s.intEvent 503 2
    else
      let s := (s.setBit (R.hostRingCfg r) 0 true).setRing r {}
      (s.setFld (R.hostRingState r) 1 0 0).setBit (R.hostRingState r) 2 s.hostCxl

/-- `RING_ENABLE`. -/
def execRingEnable (ring : Fin 64) (value : BitVec 32) (s : State) : Res := .next (s.ringCfgWrite ring (value.setWidth 64))

/-! ### Completions (R493, R494) -/

/-- What a requester makes of an error or a timeout (Table 18-3). -/
def State.hostFailed (s : State) (g : HostTag) : State :=
  if g.requester = 1 then (s.setLoad g.idx none).respond g.idx 8 []
  else
    let n := (s.ring g.idx).fails + 1
    let s := s.modRing g.idx fun x => { x with fails := n, retry := true }
    if 3 ≤ n then s.ringBad g.idx g.addr else s

def State.hostCtx (s : State) (g : HostTag) : Option Nat :=
  if g.requester = 1 then ((s.host.loads.get none g.idx).map (·.ctx)) else some (s.ringCtx g.idx)

/-- The data of a read reaches its requester. -/
def State.hostDelivered (s : State) (g : HostTag) (bs : List Byte) : State :=
  let s := s.globalEvent 49 1 bs.length
  if g.requester = 1 then
    match s.host.loads.get none g.idx with
    | some l => s.loadMore g.idx { l with got := l.got ++ bs }
    | none => s
  else if ¬ s.ringEn g.idx then s
  else if g.card then
    let s := s.modRing g.idx fun x => { x with fails := 0 }
    let cs := (chunks 64 bs (bs.length / 64)).map fun b => BitVec.ofNat 512 (leNat b)
    s.offerMore g.idx cs
  else s.hostIndex g.idx (BitVec.ofNat 32 (leNat (bs.take 4)))

/-- `HOST_COMPLETION` for a tag: `status` 0 SC, 1 UR, 2 CA; EP; the data of the read. -/
def execHostCompletion (tag : Fin 1024) (status : Fin 3) (ep : Bool) (data : List Byte) (s : State) : Res :=
  .next (match s.hostTag tag with
  | none => s
  | some g =>
    if g.quarantined then
      (s.count R.hostLateCplCnt 1).modHost fun h => { h with aerUnexpected := h.aerUnexpected + 1 }
    else if status.val ≠ 0 then
      (((s.closeHostTag tag).intEvent 503 1).hostRaise 0xA003 g.requester tag g.addr (s.hostCtx g)).hostFailed g
    else if ep then
      (((s.closeHostTag tag).intEvent 503 1).hostRaise 0xA004 g.requester tag g.addr (s.hostCtx g)).hostFailed g
    else if data.length ≠ g.len then s
    else (s.closeHostTag tag).hostDelivered g data)

/-- A tag's read times out (R493). -/
def State.tagTimeout (s : State) (t : Nat) : State :=
  match s.hostTag t with
  | none => s
  | some g =>
    if g.quarantined then s
    else
      let s := ((s.quarantineTag t).count R.hostCplTimeoutCnt 1).intEvent 503 1
      (s.hostRaise 0xA002 g.requester t g.addr (s.hostCtx g)).hostFailed g

/-- `HOST_CPL_TIMEOUT`. -/
def execHostCplTimeout (tag : Fin 1024) (s : State) : Res := .next (s.tagTimeout tag)

/-- `RING_READ_RETRY`: 100 µs after a failed read. -/
def execRingReadRetry (ring : Fin 64) (s : State) : Res :=
  .next (
    let x := s.ring ring
    if ¬ s.ringEn ring ∨ ¬ s.hostUp ∨ ¬ x.retry then s
    else
      let s := s.modRing ring fun x => { x with retry := false }
      if x.waiting = 0 ∨ s.ringD2h ring then
        (match s.hostRead 2 ring (s.ringIdx ring) 64 false with
        | some s => s
        | none => s.modRing ring fun x => { x with retry := true })
      else s.readCards ring)

/-! ### CXL.cache responses (R496) -/

/-- `CXL_CACHE_RESPONSE` to the oldest request for a line, with the two halves of its data; the resulting states are Table 18-4's. -/
def execCxlCacheResponse (line : BitVec 64) (low high : BitVec 256) (s : State) : Res :=
  let data : BitVec 512 := high ++ low
  .next (match s.host.reqs.find? fun q => q.line == line.toNat with
  | none => s
  | some q =>
    let s := s.modHost fun h => { h with reqs := h.reqs.erase q }
    if ¬ s.ringEn q.ring then s
    else if q.kind = 0 then
      (s.putLine q.line { st := 1, data, pinned := true }).hostIndex q.ring (BitVec.ofNat 32 (leNat (natLE 4 data.toNat)))
    else if q.kind = 1 then
      let s := s.modRing q.ring fun x => { x with arrived := x.arrived.put q.line data }
      let x := s.ring q.ring
      -- cards are offered in index order once every line read has come
      if s.host.reqs.any (fun z => z.kind == 1 && z.ring == q.ring) || s.host.stalled.any (fun z => z.kind == 1 && z.ring == q.ring) then s
      else
        let cs := (List.range x.arrived.length).map fun k => x.arrived.get 0 (s.ringSlot q.ring (x.own.toNat + k))
        (s.modRing q.ring fun x => { x with arrived := [] }).offerMore q.ring cs
    else
      let s := s.putLine q.line { st := 3, data := q.data, pinned := q.index }
      if q.index then s else s.cardWritten q.ring)

/-! ### Snoops (R497, R498): 0 RspIHitI, 1 RspIHitSE, 2 RspSHitSE, 3 RspVHitV, 4 RspIFwdM, 5 RspSFwdM, 6 RspVFwdV -/

def State.snoopAnswer (s : State) (code : Nat) (d : BitVec 512) : State := s.modHost fun h => { h with snoop := some (code, d) }

/-- An H2D snoop: 0 SnpData, 1 SnpInv, 2 SnpCur. -/
def State.snoop (s : State) (kind a : Nat) : State :=
  if ¬ s.hostCxl then s
  else match s.evicting a with
  | some e => (s.count R.hostCrossingCnt 1).snoopAnswer (if e.dirty then 4 else 0) (if e.dirty then e.data else 0)
  | none =>
    match s.line a with
    | none => s.snoopAnswer 0 0
    | some l =>
      if kind = 0 then (s.putLine a { l with st := 1 }).snoopAnswer (if l.st = 3 then 5 else 2) (if l.st = 3 then l.data else 0)
      else if kind = 1 then (s.dropLine a).snoopAnswer (if l.st = 3 then 4 else 1) (if l.st = 3 then l.data else 0)
      else s.snoopAnswer (if l.st = 3 then 6 else 3) (if l.st = 3 then l.data else 0)

/-- `SNPDATA`. -/
def execSnpdata (line : BitVec 64) (s : State) : Res := .next (s.snoop 0 line.toNat)

/-- `SNPINV`: of a ring's host-owned index line it is that ring's doorbell (R501). -/
def execSnpinv (line : BitVec 64) (s : State) : Res :=
  .next (
    let t := s.snoop 1 line.toNat
    if ¬ s.hostCxl then s else match s.indexRing line.toNat with | some r => t.doorbell r | none => t)

/-- `SNPCUR`. -/
def execSnpcur (line : BitVec 64) (s : State) : Res := .next (s.snoop 2 line.toNat)

/-- A GO for an eviction: the data is sent or not, and the entry freed (R498). -/
def State.goEvict (s : State) (a : Nat) (send : Bool) (bad : Bool) : State :=
  match s.evicting a with
  | none => s
  | some e =>
    let s := s.modHost fun h => { h with evicts := h.evicts.erase e }
    let s := if send then s.modHost fun h => { h with out := h.out ++ [(a, natLE 64 e.data.toNat)] } else s
    let s := if bad then (s.intEvent 503 3).hostRaise 0xA006 2 0xFFFF a else s
    s.evictLeaving.cxlRetry

/-- `GO_WRITEPULL`. -/
def execGoWritepull (line : BitVec 64) (s : State) : Res := .next (s.goEvict line.toNat true false)
/-- `GO_WRITEPULLDROP`. -/
def execGoWritepulldrop (line : BitVec 64) (s : State) : Res := .next (s.goEvict line.toNat false false)
/-- `GO_ERR_WRITEPULL`. -/
def execGoErrWritepull (line : BitVec 64) (s : State) : Res := .next (s.goEvict line.toNat true true)

/-! ### MSI-X (R504) -/

/-- `MSI_X_UNMASK`: a write of a vector's entry that clears its mask; a pending message is sent. -/
def State.msixEntry (s : State) (v : Nat) (e : BitVec 128) : State :=
  let s := s.modHost fun h => { h with msix := h.msix.set (BitVec.ofNat 128 (2 ^ 96)) v e }
  if bits e 96 96 = 0 ∧ s.host.pba.contains v then (s.modHost fun h => { h with pba := h.pba.erase v }).msixSend v else s

def execMsiXUnmask (vector : Fin 2048) (entry : BitVec 128) (s : State) : Res :=
  .next (if s.hostUp then s.msixEntry vector entry else s)

/-! ### The link (R489, R495) -/

/-- The widths and generations to which the port trains (Table 18-1). -/
def linkTrains (width speed : Nat) : Bool := [1, 2, 4, 8, 16].contains width && decide (1 ≤ speed)

/-- `HOST_LINK_UP`: trained at a width and speed, in CXL or PCIe mode; the port does not come up at any other (R4). -/
def execHostLinkUp (cxl : Bool) (width : Fin 17) (speed : Fin 7) (s : State) : Res :=
  .next (if s.start.held ∨ s.hostUp ∨ s.fld R.pwrDomainState 46 46 = 0 ∨ ¬ linkTrains width speed then s
  else
    let s := s.wr R.hostStatus (BitVec.ofNat 64 ((if cxl then 3 else 2) + width.val * 4 + speed.val * 128
      + (if cxl then 1024 else 0) + s.fld R.hostStatus 11 11 * 2048))
    s.intEvent 503 0)

/-- The host link goes down (R495). -/
def State.linkDown (s : State) : State :=
  if ¬ s.hostUp then s
  else
    let s := (s.wr R.hostStatus (BitVec.ofNat 64 (s.fld R.hostStatus 11 11 * 2048))).intEvent 503 0
    let s := (s.host.tags.map (·.1)).foldl (fun (st : State) t => st.tagTimeout t) s
    let s := s.modHost fun h => { h with out := [], cache := [], evicts := [], leaving := [], reqs := [], stalled := [] }
    let s := (List.range 64).foldl (fun (st : State) r => if st.ringEn r then st.ringOff r else st) s
    let s := (List.range 512).foldl (fun (st : State) x =>
      if st.ctxState x = 6 then st.spillAbort x 1 else if st.ctxState x = 7 then st.restoreAbort x else st) s
    let s := (List.range 2).foldl (fun (st : State) h =>
      match st.ckpt h with
      | some r => if r.fabricDest then st else st.ckptFail h r 3
      | none => st) s
    s.hostRaise 0xA001 0xFF 0xFFFF 0

/-- `HOST_LINK_DOWN`. -/
def execHostLinkDown (s : State) : Res := .next s.linkDown

end Sys2Proof.Machine
end

