-- ==== Sys2Proof/Machine/FabricCmds.lean ====
section
/-! DEFINITION. The fabric's commands and events: credit, landing writes, completions, roll call, tables, the
epoch swap and fabric time (R225–R229, R291, R340–R360). -/

namespace Sys2Proof.Machine

/-! ### Credit pools -/

/-- R228: a credit request that has reached the chip is refused, answered BUSY or ranked. -/
def execCreditReq (s : State) : Res :=
  match s.takeIn ptCreditReq with
  | none => .next s
  | some (port, p, s) =>
    let w : CreditWait := { port := min port 32, chip := p.src, slice := p.slice, requester := port, count := p.b 13 7, tag := p.b 21 14 }
    .next (s.creditRequest (p.b 6 0) w)

def execCreditGrant (pool : Fin 128) (s : State) : Res := .next (s.creditGrant pool)

/-- R291, R363: a credit reply meets a collective engine's request or a transfer slot. -/
def execCreditReply (s : State) : Res :=
  match s.takeIn ptCreditReply with
  | none => .next s
  | some (_, p, s) =>
    match s.collReplyFor p.src (p.b 6 0) (p.b 21 14) with
    | some h => .next (s.collReply h (p.b 21 14) (p.b 23 22) (p.b 35 24))
    | none => .next (s.creditReplySlot (p.b 21 14) (p.b 23 22) (p.b 35 24) (p.b 13 7))

def execPoolEnable (pool : Fin 128) (s : State) : Res := .next (s.poolOn pool)
def execPoolDisable (pool : Fin 128) (s : State) : Res := .next (if s.poolEn pool then s.poolOff pool else s)

/-! ### Landing writes (R229, R262, R341) -/

/-- The requester index at a channel of an arriving WRITE (Table 8-3): its link port's, or that of the requester of this
chip that holds the tag (R353; 255 for the send-buffer path, which has none). -/
def State.landIndex (s : State) (port : Nat) (p : Pkt) : Nat :=
  if port < 32 then 160 + port
  else
    let r := (s.fab.tags.get {} p.wTag).requester
    if r < 4 then 128 + r else if r = 4 then 255 else if r < 7 then 132 + (r - 5) else if r < 9 then 135 + (r - 7)
    else 137 + (r - 9)

/-- A WRITE to stage memory that arrives from `port`: stored when an open grant of the writing chip holds every byte, and
the pool's context still reaches them (R211, R212), else discarded; and whether it was accepted. -/
def State.landWrite (s : State) (port : Nat) (p : Pkt) : State × Bool :=
  let a := p.wOff
  let n := p.wLen
  let bad (s : State) (ctx : Option Nat) : State :=
    s.raise { code := 0x3009, ctx, detail := smDetail s a (s.landIndex port p) [], loc := smTier a }
  match s.poolOfAddr a with
  | some i =>
    match if s.inPartition (s.poolCtx i) a n then s.grantOf i p.src a n else none with
    | some g =>
      let s := (s.memWrite a p.wBytes).account (s.poolCtx i) 6 n
      let s := s.account (s.poolCtx i) 8 (16 + n)
      let g' : Grant := if a = s.poolBase i + g.first * s.slotSize i + g.pfx then { g with pfx := g.pfx + n } else g
      ((s.setGrant i g g').signalReady i g.first, true)
    | none => (bad (s.count (R.poolPoolRejectCnt i) 1) (some (s.poolCtx i)), false)
  | none =>
    let g := smGranule a
    let owner : Option Nat := if s.granValid g then some (s.granOwner g) else none
    (bad (s.count R.smemcUnwindowedCnt 1) owner, false)

/-- The WACK of a WRITE. -/
def State.wackOf (s : State) (p : Pkt) (discarded : Bool) : State :=
  (s.sendPkt (mkWack p.src s.chip p.slice p.wTag discarded) none).1

/-! ### Completions and tags (R353–R356) -/

/-- Requester `r` of R353 tries again to send: a sequencer's moves, the send buffers, a collective or a checkpoint engine. -/
def State.pumpFor (s : State) (r : Nat) : State :=
  if r < 4 then (List.range 16).foldl (fun (st : State) k => if st.slotState r k = 6 then st.pump r k pumpFuel else st) s
  else if r = 4 then
    (List.range 64).foldl (fun (st : State) k =>
      if st.slotState (k / 16) (k % 16) = 7 then st.pump (k / 16) (k % 16) pumpFuel else st) s
  else if r < 7 then s.collGo (r - 5)
  else if r < 9 then s.ckptGo (r - 7)
  else s

/-- Every requester that waits for a tag tries again, ranked from index F mod 11 (R353). -/
def State.pumpAll (s : State) : State :=
  (List.range 11).foldl (fun (st : State) i => st.pumpFor ((s.now + i) % 11)) s

/-- A status and value returned to a requester that decides itself what it makes of them (Table 12-5): the
checkpoint engines (7, 8), the host (9) and the management controller (10). -/
def State.reply (s : State) (r info status value : Nat) : State :=
  s.modFab fun x => { x with replies := x.replies ++ [(r * 2 ^ 32 + info, status, value)] }

/-- The outcome of a tag for its requester: 0 completed, 1 discarded, 2 timed out. -/
def State.tagOutcome (s : State) (t : TagRec) (status value : Nat) : State :=
  if t.requester ≤ 4 then
    s.transferOutcome t.requester t.info (if status = 0 then none else if status = 1 then some 0x6004 else some 0x6003)
  else if t.requester ≤ 6 then s.collOutcome (t.requester - 5) t.info (status == 0)
  else if t.requester ≤ 8 then s.ckptOutcome (t.requester - 7) t.info (status == 0)
  else s.reply t.requester t.info status value

/-- R354: a WACK closes its tag. -/
def execWack (s : State) : Res :=
  match s.takeIn ptWack with
  | none => .next s
  | some (_, p, s) =>
    match s.closeTag (p.b 15 0) p.src with
    | (s, some t) => .next ((s.tagOutcome t (p.b 16 16) 0).pumpAll)
    | (s, none) => .next s

/-- R354: a read completion closes its tag and delivers STATUS and value. -/
def execRcpl (s : State) : Res :=
  match s.takeIn ptRcpl with
  | none => .next s
  | some (_, p, s) =>
    match s.closeTag (p.b 15 0) p.src with
    | (s, some t) => .next ((s.reply t.requester t.info (p.b 17 16) (leNat (p.data.take 8))).pumpAll)
    | (s, none) => .next s

/-- R354: a tag's deadline passes. -/
def execReqTimeout (tag : Fin 65536) (s : State) : Res :=
  let r := s.fab.tags.get { dest := 0xFFFFFFFF } tag
  if r.dest = 0xFFFFFFFF ∨ r.quarantined then .next s
  else
    let s := s.advanceTo r.deadline
    let q : TagRec := { r with quarantined := true, epoch := s.epoch }
    let s := (s.modFab fun x => { x with tags := x.tags.put tag q }).showTags
    let s := (s.count R.fabTimeoutCnt 1).globalEvent 50 3 1
    .next (s.tagOutcome r 2 0)

/-- R353: a requester has waited 100 µs for a tag. -/
def execTagExhaust (requester : Fin 11) (s : State) : Res :=
  let since := s.fab.tagWait.get 0 requester
  if since = 0 ∨ s.fab.tagRaised.contains requester then .next s
  else
    let s := s.advanceTo (since - 1 + 160000)
    let s := s.modFab fun x => { x with tagRaised := requester :: x.tagRaised }
    .next (s.raise { code := 0x6005 })

/-! ### The fence (R348) -/

/-- The ports of a group that carry routed traffic: ACTIVE and not excluded (R344, R347). -/
def State.groupPorts (s : State) (g : Nat) : List Nat :=
  (List.range 32).filter fun p => s.portGroup p == g && s.portState p == 5 && !s.dupPort p

/-- A group's reduced set changed from `old`: its control and response classes are fenced. -/
def State.fence (s : State) (g : Nat) (old : List Nat) : State :=
  s.modFab fun x => { x with fences := x.fences.put g (old, s.now + 16000) }

/-- Fence every group whose set differs from what it was in `before`. -/
def State.fenceFrom (s before : State) : State :=
  (List.range 8).foldl (fun (st : State) g =>
    if before.groupPorts g = s.groupPorts g then st else st.fence g (before.groupPorts g)) s

/-- CLASS of a DATA flit (Table 11-4). -/
def Flit.cls (f : Flit) : Nat := bits f 5 4

/-- R348: the fence of a group ends: at once when the old set's control and response flits are acknowledged, a FAILED
port's as if they were, or at 10 µs. -/
def execFence (group : Fin 8) (s : State) : Res :=
  match s.fab.fences.get ([], 0) group with
  | (_, 0) => .next s
  | (old, t) =>
    let acked : Bool := old.all fun p => s.portState p == 8 || (s.port p).retry.all fun e => e.2.cls == 0
    let s := if acked then s else s.advanceTo t
    .next (s.modFab fun x => { x with fences := x.fences.erase group })

/-! ### Roll call (R342–R344) -/

/-- The data of this chip's ROLLCALL for a port (Table 12-2). -/
def State.rollcallData (s : State) (p : Nat) : List Byte :=
  let chipSet : Bool := s.fab.assigned
  let cart : Bool := s.bit (R.cartCStatus p) 0
  let serial := (List.range 4).flatMap fun i => natLE 4 (s.rd (R.cartCSerial p i)).toNat
  let vendor := (List.range 4).flatMap fun i => natLE 4 (s.rd (R.cartCVendor p i)).toNat
  natLE 1 1 ++ natLE 1 p ++ natLE 1 (s.fld (R.lnkStatus p) 10 9) ++ natLE 1 (s.fld (R.lnkStatus p) 8 4)
    ++ natLE 1 (s.portGroup p) ++ natLE 1 ((if chipSet then 1 else 0) + if cart then 2 else 0) ++ natLE 2 0
    ++ natLE 8 (s.rd R.trustSerial).toNat ++ natLE 8 s.nodeKey
    ++ natLE 4 (if chipSet then s.chip else 0) ++ natLE 4 0
    ++ (if cart then serial ++ vendor else List.replicate 32 0)

/-- A port sends ROLLCALL: a link-local control packet. -/
def State.sendRollcall (s : State) (p : Nat) : State :=
  if s.portState p = 5 then
    let pk : Pkt := { ptype := ptRollcall, cls := 1, dst := 0, src := s.chip, slice := s.fld R.fabMgmtSlice 11 0,
                      data := s.rollcallData p }
    s.modPort p fun x => { x with txq := x.txq ++ [pk] }
  else s

def execRollcallSend (port : Fin 32) (s : State) : Res := .next (s.sendRollcall port)

/-- R342, R344: a received ROLLCALL updates the port's neighbour record. -/
def execRollcall (s : State) : Res :=
  match s.takeIn ptRollcall with
  | none => .next s
  | some (port, p, s) =>
    if (p.data.take 1).map (·.toNat) ≠ [1] then .next (s.count (R.lnkPktDropCnt port) 1)
    else
      let old := s.fab.nbr.get {} port
      let n : Nbr := { valid := true, bytes := BitVec.ofNat 512 (leNat p.data) }
      let s' := s.modFab fun x => { x with nbr := x.nbr.set {} port n }
      let s' := if old = n then s' else s'.intEvent 496 0
      let dup : Bool := s'.dupPort port
      let s' := if dup ∧ old ≠ n then s'.raise { code := 0x6002, loc := port } else s'
      .next (s'.fenceFrom s)

/-- R343: ROLLCALL_DONE is set; the start phase becomes SERVING (R526). -/
def State.setRollcallDone (s : State) : State :=
  if s.rollDone then s
  else
    let s := s.setBit R.fabCtrl 0 true
    if s.fld R.mgtStartStatus 3 0 = 6 then s.setPhase 7 else s

def execRollcallDone (s : State) : Res := .next s.setRollcallDone

/-- A write or an arm is refused (Table 12-8). -/
def State.cfgErr (s : State) : State := s.intEvent 496 2

/-- R342, R343: CHIP_ID changes while ROLLCALL_DONE is 0, and every ACTIVE port sends ROLLCALL at once. -/
def State.setChipId (s : State) (n : Nat) : State :=
  if s.rollDone then s.cfgErr
  else
    let t := (s.wr R.fabChipId (BitVec.ofNat 64 (n % 2 ^ 20))).modFab fun x => { x with assigned := true }
    if s.fab.assigned ∧ s.chip = n % 2 ^ 20 then t
    else (List.range 32).foldl (fun (st : State) p =>
      let st := st.sendRollcall p
      if st.dupPort p then st.raise { code := 0x6002, loc := p } else st) (t.fenceFrom s)

def execChipId (chip : Fin 1048576) (s : State) : Res := .next (s.setChipId chip)

/-! ### Tables and the epoch swap (R352) -/

def withParity (n v : Nat) : Nat := v % 2 ^ n + if parityOdd n v then 2 ^ n else 0

/-- A write of TBL_DATA: an entry of the shadow bank that TBL_SEL names, PAR computed. -/
def State.tblWrite (s : State) (v : Word) : State :=
  if s.bit R.fabStatus 1 ∨ s.bit R.fabCtrl 2 then s.cfgErr
  else
    let sh := 1 - s.activeBank
    let i := s.fld R.fabTblSel 11 0
    let t := s.fld R.fabTblSel 13 12
    if t ≤ 1 then
      if i < 1024 then s.modFab fun x => { x with routes := x.routes.set 0 (2048 * sh + 1024 * t + i) (withParity 31 v.toNat) }
      else s
    else if t = 2 then s.modFab fun x => { x with permits := x.permits.set 0 (4096 * sh + i) (withParity 35 v.toNat) }
    else s

def execTblData (value : Word) (s : State) : Res := .next (s.tblWrite value)

/-- CTRL.COPY: COPY_BUSY while the copy runs. -/
def State.startCopy (s : State) : State :=
  if s.bit R.fabCtrl 2 then s.cfgErr
  else if s.bit R.fabStatus 1 then s
  else (s.modFab fun x => { x with copyAt := s.ltime }).setBit R.fabStatus 1 true

def execCopy (s : State) : Res := .next s.startCopy

/-- The entries of a bank moved to the other. -/
def bankCopy (t : Tab Nat) (size src dst : Nat) : Tab Nat :=
  (t.filter fun e => e.1 / size == src).foldl (fun a e => Tab.put a (e.1 % size + size * dst) e.2)
    (t.filter fun e => e.1 / size == src)

/-- The copy ends after 6,144 UCLK cycles. -/
def execCopyEnd (s : State) : Res :=
  if ¬ s.bit R.fabStatus 1 then .next s
  else
    let s := s.localTo (s.fab.copyAt + uclk 6144)
    let b := s.activeBank
    let s := s.modFab fun x => { x with routes := bankCopy x.routes 2048 b (1 - b), permits := bankCopy x.permits 4096 b (1 - b) }
    .next (s.setBit R.fabStatus 1 false)

/-- CTRL.ARM: refused when SWAP_EPOCH is not in the future. -/
def State.armSwap (s : State) : State :=
  if s.bit R.fabCtrl 2 then s
  else if (s.rd R.fabSwapEpoch).toNat ≤ s.epoch then s.cfgErr
  else s.setBit R.fabCtrl 2 true

def execArm (s : State) : Res := .next s.armSwap

/-- The ports whose permission for some slice differs between the banks. -/
def State.permitDiff (s : State) : Nat :=
  let ports (b k : Nat) : Nat :=
    let e := s.fab.permits.get 0 (4096 * b + k)
    if parityOdd 36 e then 0 else e % 2 ^ 32
  s.fab.permits.foldl (fun (m : Nat) e => m ||| (ports 0 (e.1 % 4096) ^^^ ports 1 (e.1 % 4096))) 0

/-- The group that a routing entry names: a valid entry that neither delivers here nor pins a port. -/
def entryGroup (e : Nat) : Option Nat :=
  if parityOdd 32 e ∨ e % 2 = 0 ∨ e / 2 % 2 = 1 ∨ e / 32 % 2 = 1 then none else some (e / 4 % 8)

/-- The groups to which the shadow bank moves a destination, as a mask. -/
def State.routeDiff (s : State) : Nat :=
  let at_ (b k : Nat) : Nat := s.fab.routes.get 0 (2048 * b + k)
  let b := s.activeBank
  s.fab.routes.foldl (fun (m : Nat) e =>
    let k := e.1 % 2048
    match entryGroup (at_ (1 - b) k) with
    | some g => if at_ b k = at_ (1 - b) k then m else m ||| 2 ^ g
    | none => m) 0

/-- The banks exchange roles; groups whose reduced sets the new permits change, and groups to which the new routes
move a destination, are fenced (R348, R352). -/
def State.swapBanks (s : State) : State :=
  let d := s.permitDiff
  let rd := s.routeDiff
  let s := { s with recov := { s.recov with swapped := true } }
  let t := ((s.setFld R.fabStatus 0 0 (1 - s.activeBank)).setBit R.fabCtrl 2 false).intEvent 496 1
  (List.range 8).foldl (fun (st : State) g =>
    if rd / 2 ^ g % 2 = 1 ∨ (s.groupPorts g).any fun p => d / 2 ^ p % 2 == 1 then st.fence g (s.groupPorts g) else st) t

/-- A slice whose armed TX slot switch has come (R481). -/
def State.switchKeys (s : State) : State :=
  let e := s.epoch
  ((s.regs.filter fun r => 0x4000 ≤ r.1 / 4096 && r.1 / 4096 < 0x5000 && r.1 % 4096 == 0x684).map (·.1)).foldl
    (fun (st : State) k =>
      let x := k / 4096 - 0x4000
      if st.bit k 4 ∧ (st.rd (R.sliceselSliceArmEpoch x)).toNat ≤ e then
        (st.setBit k 4 false).setFld k 3 3 (st.fab.armSlots.get 0 x)
      else st) s

/-- R352, R355, R281, R481: an epoch tick. -/
def execEpochTick (s : State) : Res :=
  let l := s.fld R.fabEpochCfg 5 0
  let s := if s.fab.epochSeen < s.epoch then s else s.advanceTo ((s.epoch + 1) * 2 ^ l)
  let s := s.modFab fun x => { x with epochSeen := s.epoch }
  let s := if s.bit R.fabCtrl 2 ∧ (s.rd R.fabSwapEpoch).toNat ≤ s.epoch then s.swapBanks else s
  let s := s.switchKeys
  let e := s.epoch
  let s := (s.modFab fun x => { x with tags := x.tags.filter fun t => !(t.2.quarantined && t.2.epoch + 2 ≤ e) }).showTags
  let s := (s.retireSlots).retireTags e
  let s := (List.range 4).foldl (fun (st : State) q => st.modSeq q fun z => { z with events := z.events ||| 1024 }) s
  .next s.pumpAll

/-! ### Fabric time (R357–R360) -/

/-- SYNC_PERIOD in ticks. -/
def State.syncTicks (s : State) : Nat := 1600 * s.fld R.fabSyncPeriod 15 0
def State.modSync (s : State) (f : TimeSync → TimeSync) : State := s.modFab fun x => { x with sync := f x.sync }
/-- The time parent in use. -/
def State.timeParent (s : State) : Nat :=
  if s.fab.sync.alt then s.fld R.fabTimeAlt 19 0 else s.fld R.fabTimeCfg 23 4

def mkTsyncReq (dst src slice : Nat) : Pkt :=
  { ptype := ptTsyncReq, cls := 2, dst, src, slice, data := List.replicate 16 0 }
def mkTsyncRsp (dst src slice t1 t2 corr : Nat) : Pkt :=
  { ptype := ptTsyncRsp, cls := 2, dst, src, slice, data := natLE 8 t1 ++ natLE 8 t2 ++ natLE 8 0 ++ natLE 8 corr }

/-- Once in every SYNC_PERIOD a chip that is not the master sends TSYNC_REQ; one still unanswered counts as
missed.  T1 is put in when the packet's first flit leaves its port. -/
def execTsyncSend (s : State) : Res :=
  if s.bit R.fabTimeCfg 0 ∨ ¬ (s.bit R.fabTimeCfg 24 ∨ s.fab.sync.alt) then .next s
  else
    let s := match s.fab.sync.lastSent with | some t => s.advanceTo (t + s.syncTicks) | none => s
    let s := s.modSync fun y => { y with
      missed := if y.lastSent.isSome ∧ y.outstanding.isSome then y.missed + 1 else y.missed
      lastSent := some s.now, outstanding := some s.now }
    .next (s.sendPkt (mkTsyncReq s.timeParent s.chip (s.fld R.fabMgmtSlice 11 0)) none).1

/-- The parent answers with T1, T2, T3 and CORR; T2 is the arrival time kept with the packet. -/
def execTsyncReq (s : State) : Res :=
  match s.takeIn ptTsyncReq with
  | none => .next s
  | some (_, p, s) =>
    .next (s.sendPkt (mkTsyncRsp p.src s.chip p.slice (leNat (p.data.take 8)) p.body (leNat ((p.data.drop 8).take 8))) none).1

def clampRat (v lo hi : Rat) : Rat := if v < lo then lo else if hi < v then hi else v

/-- A fraction shown in a register of whole units: its spec does not say how it rounds. -/
def State.shown (s : State) (v : Rat) : State × Int :=
  ({ s with freeCtr := s.freeCtr + 1 }, if Config.showUp s.freeCtr then v.ceil else v.floor)

/-- TIME_RATE shows the applied r. -/
def State.showRate (s : State) : State :=
  let (s, rate) := s.shown (s.fab.sync.r * 1000000000)
  s.wr R.fabTimeRate (BitVec.ofNat 64 (pat 32 rate))

/-- One exchange with offset `o` (R358). -/
def State.timeExchange (s : State) (o : Rat) : State :=
  let p : Rat := (s.syncTicks : Rat)
  let lim : Rat := 1 / 2000
  let locked := s.bit R.fabStatus 2
  let s := (s.setBit R.fabStatus 3 false).modSync fun y => { y with missed := 0, outstanding := none, lost := false }
  let (s, shown) := s.shown o
  let s := s.wr R.fabTimeOffset (BitVec.ofNat 64 (pat 32 shown))
  let small : Bool := decide (-16 ≤ o) && decide (o ≤ 16)
  let good := if small then s.fab.sync.good + 1 else 0
  let s := s.modSync fun y => { y with good }
  let s := if 8 ≤ good then s.setBit R.fabStatus 2 true else s
  let s := if ¬ locked ∧ (o < -1024 ∨ 1024 < o) then
      let v : Int := ((s.now : Int) * 2 ^ 32 + s.fab.sync.frac) + (o * 2 ^ 32).floor
      let v := v.toNat % 2 ^ 96
      let s := s.wr R.fabTime (BitVec.ofNat 64 (v / 2 ^ 32))
      s.modFab fun x => { x with epochSeen := min x.epochSeen (v / 2 ^ 32 / 2 ^ s.fld R.fabEpochCfg 5 0),
                                 sync := { x.sync with frac := v % 2 ^ 32, f := 0, r := 0 } }
    else
      let f := clampRat (s.fab.sync.f + o / (8 * p)) (-lim) lim
      s.modSync fun y => { y with f, r := clampRat (f + o / p) (-lim) lim }
  s.showRate

/-- R357, R358: a time response.  T4 is the arrival time kept with the packet. -/
def execTsyncRsp (s : State) : Res :=
  match s.takeIn ptTsyncRsp with
  | none => .next s
  | some (_, p, s) =>
    let w (i : Nat) : Nat := leNat ((p.data.drop (8 * i)).take 8)
    if s.fab.sync.outstanding = some (w 0) ∧ p.body ≤ w 0 + 160000 then
      let up := min (Config.corrUp (w 3)) (w 3)
      let a : Int := (w 1 : Int) - w 0 - up
      let b : Int := (p.body : Int) - w 2 - (w 3 - up : Nat)
      .next (s.timeExchange (((a - b : Int) : Rat) / 2))
    else .next s

/-- R360: after 3 missed exchanges the chip turns to its alternate parent, or enters holdover. -/
def execTimeHoldover (s : State) : Res :=
  if s.fab.sync.missed < 3 ∨ s.bit R.fabStatus 3 then .next s
  else if s.bit R.fabTimeAlt 20 ∧ ¬ s.fab.sync.alt then
    .next (s.modSync fun y => { y with alt := true, missed := 0, outstanding := none })
  else
    let s := s.setBit R.fabStatus 3 true
    let s := (s.modSync fun y => { y with holdoverSince := s.now, r := y.f, good := 0 }).showRate
    .next (((s.raise { code := 0x6006 }).intEvent 496 3).advise 2)

/-- R360: 10 ms in holdover. -/
def execTimeLost (s : State) : Res :=
  if ¬ s.bit R.fabStatus 3 ∨ s.fab.sync.lost then .next s
  else
    let s := s.advanceTo (s.fab.sync.holdoverSince + 16000000)
    let s := (s.setBit R.fabStatus 2 false).modSync fun y => { y with lost := true, good := 0 }
    .next ((s.raise { code := 0x6007 }).intEvent 496 3)

end Sys2Proof.Machine
end

