-- ==== Sys2Proof/Machine/Links.lean ====
section
/-! DEFINITION. Link ports: flits, credits, retry, port states, retrain, width change and standby lanes
(R305–R330), and link encryption (R481–R485). -/

namespace Sys2Proof.Machine

/-! ### Flits (Tables 11-4 and 11-5, R314) -/

def Flit.bytes (f : Flit) : List Byte := natLE 256 f.toNat
def Flit.ofBytes (bs : List Byte) : Flit := BitVec.ofNat 2048 (leNat bs)
def Flit.ty (f : Flit) : Nat := bits f 3 0
def Flit.slice (f : Flit) : Nat := bits f 17 6
def Flit.seq (f : Flit) : Nat := bits f 29 18
def Flit.start (f : Flit) : Nat := bits f 67 64
def Flit.payload (f : Flit) : List Byte := (f.bytes.drop 12).take 240
/-- The CRC of R314 holds. -/
def Flit.crcOk (f : Flit) : Bool := crc32 (f.bytes.take 252) == bits f 2047 2016

/-- A flit of a header and a payload, with its CRC. -/
def mkFlit (hdr : Nat) (payload : List Byte) : Flit :=
  let b := natLE 12 hdr ++ payload ++ List.replicate (240 - payload.length) 0
  Flit.ofBytes (b ++ natLE 4 (crc32 b))

/-- The bytes of a packet (Table 11-5). -/
def Pkt.bytes (p : Pkt) : List Byte :=
  let n := 1 + p.data.length / 16
  natLE 8 (p.ptype + n * 256 + p.dst % 2 ^ 20 * 2 ^ 16 + p.src % 2 ^ 20 * 2 ^ 36) ++ natLE 8 p.body ++ p.data
def Pkt.units (p : Pkt) : Nat := 1 + p.data.length / 16
/-- A PAD packet. -/
def padPkt : List Byte := natLE 16 256

/-! ### Records of link codes (R337) -/

/-- A link code is recorded against the port: port, lane position, state, far end's NODE_KEY, and for cartridge
codes the CMIS serial. -/
def State.linkRaise (s : State) (p code : Nat) (lane : Nat) : State :=
  let serial := (List.range 4).flatMap fun i => natLE 4 (s.rd (R.cartCSerial p i)).toNat
  let cart : Bool := 0x5005 ≤ code && code ≤ 0x5009
  s.raise { code, loc := p,
            detail := [(1, p), (1, lane), (1, s.portState p), (8, (s.rd (R.lnkPeerKey p)).toNat)]
              ++ if cart then [(16, leNat serial)] else [] }

/-! ### Port states (Table 11-7) -/

/-- STATE changes: STATE_CHG, the fence of the port's group, and what entering a state brings. -/
def State.setPortState (s : State) (p v : Nat) : State :=
  if s.portState p = v then s
  else
    let was := s.portState p
    let t := (s.setFld (R.lnkStatus p) 3 0 v).intEvent (448 + p) 0
    let t := t.modPort p fun x => { x with since := s.now }
    let t := if was = 5 then t.modFab fun x =>
        { x with nbr := x.nbr.set {} p { x.nbr.get {} p with valid := false } } else t
    let t := t.fenceFrom s
    let t := if v = 5 then t.sendRollcall p else t
    if v = 8 then t.linkRaise p 0x5001 0xFF else t

/-- A message goes on the port's LINK queue. -/
def State.sendLink (s : State) (p : Nat) (m : List Byte) : State :=
  s.modPort p fun x => { x with linkOut := x.linkOut ++ [m] }

def State.portMask (s : State) (p : Nat) : Nat := s.fld (R.lnkStatus p) 8 4
/-- The positions of a mask in ascending order, and how many. -/
def maskPositions (m : Nat) : List Nat := (List.range 5).filter fun l => m / 2 ^ l % 2 == 1
def maskCount (m : Nat) : Nat := (maskPositions m).length
def State.minWidth (s : State) (p : Nat) : Nat := max 1 (min 4 (s.fld (R.lnkPortCfg p) 13 11))
/-- A standby position is wired: STANDBY names a spare lane that no lower port names (R306). -/
def State.standbyWired (s : State) (p : Nat) : Bool :=
  let k := s.fld (R.lnkPortCfg p) 10 6
  k < 16 && (List.range p).all fun q => s.fld (R.lnkPortCfg q) 10 6 != k

/-- Set the active mask, and STANDBY_USED. -/
def State.setMask (s : State) (p m : Nat) : State :=
  (s.setFld (R.lnkStatus p) 8 4 m).setBit (R.lnkStatus p) 12 (m / 16 % 2 == 1)

/-- A failed attempt (R323): DETECT again, or FAILED after three in a row. -/
def State.failAttempt (s : State) (p : Nat) : State :=
  let n := (s.port p).attempts + 1
  let s := s.modPort p fun x => { x with attempts := if 3 ≤ n then 0 else n, retraining := false }
  s.setPortState p (if 3 ≤ n then 8 else 1)

/-! ### Messages (Table 11-8) -/

def State.msgConfig (s : State) (p : Nat) : List Byte :=
  let x := s.port p
  [1, 1] ++ natLE 1 p ++ natLE 1 (s.portMask p) ++ natLE 1 (if s.standbyWired p then 1 else 0)
    ++ natLE 1 (s.fld (R.lnkStatus p) 10 9) ++ natLE 2 0 ++ natLE 8 s.nodeKey
    ++ natLE 2 (160 - x.oweBulk) ++ natLE 2 (48 - x.oweControl) ++ natLE 2 (48 - x.oweResponse)
def msgKeyed (m : Nat) (b3 : Nat) (key last : Nat) : List Byte :=
  natLE 1 m ++ natLE 2 0 ++ natLE 1 b3 ++ natLE 4 0 ++ natLE 8 key ++ natLE 1 last
def msgRetryReq (e : Nat) : List Byte := natLE 1 3 ++ natLE 2 e
def msgWidthAck (m : Nat) : List Byte := natLE 1 7 ++ natLE 2 0 ++ natLE 1 m
def msgDrain (r : Nat) : List Byte := natLE 1 8 ++ natLE 1 r

/-! ### Retry and retrain (R320–R322, R326) -/

/-- Ask for the expected flit (R321). -/
def State.askRetryLink (s : State) (p : Nat) (counts : Bool) : State :=
  let x := s.port p
  (s.setPort p { x with reqOpen := true, reqAt := s.now, reqCount := x.reqCount + if counts then 1 else 0 }).sendLink p
    (msgRetryReq x.expected)

/-- A full retrain starts again from CALIBRATE (R326 step 2); three of them within 1 s fail the port. -/
def State.fullRetrain (s : State) (p : Nat) : State :=
  let x := s.port p
  let recent := (x.fullAt.filter fun t => s.now < t + 1600000000) ++ [s.now]
  let s := s.setPort p { x with retraining := true, phase := 0, full := false, fullAt := recent, badMask := 0, standby := 0, wantMask := none }
  s.setPortState p (if 3 ≤ recent.length then 8 else 2)

def State.noteRetrain (s : State) (p : Nat) : State :=
  (s.count (R.lnkRetrainCnt p) 1).modLedger fun l => { l with errors := bump l.errors (176 + p) 1 }

/-- A retrain starts with its exchange of RETRAIN_REQ and RETRAIN_ACK (R326 step 1). -/
def State.startRetrain (s : State) (p : Nat) (fast : Bool) : State :=
  let s := s.noteRetrain p
  let s := s.sendLink p (msgKeyed 4 0 s.nodeKey (if fast then 1 else 0))
  (s.modPort p fun x => { x with retraining := true, phase := 0, full := !fast, wantMask := none, since := s.now }).setPortState p 6

/-- A drain begins (R335, R336). -/
def State.startDrain (s : State) (p reason : Nat) : State :=
  if (s.port p).draining.isSome then s
  else (s.sendLink p (msgDrain reason)).modPort p fun x => { x with draining := some reason, drainAt := s.now }

/-- An ACK of `a` covers every flit up to it. -/
def ackThrough (a : Nat) : List (Nat × Flit) → List (Nat × Flit)
  | [] => []
  | e :: t => if e.1 = a then t else ackThrough a t

/-- ACK and credit fields of a good flit take effect (Table 11-4). -/
def State.flitFields (s : State) (p : Nat) (f : Flit) : State :=
  let s := s.modPort p fun x =>
    if bits f 42 42 = 1 ∧ x.retry.any (fun e => e.1 == bits f 41 30) then { x with retry := ackThrough (bits f 41 30) x.retry } else x
  let k := R.lnkCredit p
  let s := s.setFld k 7 0 (min 255 (s.fld k 7 0 + bits f 48 43))
  let s := s.setFld k 15 8 (min 255 (s.fld k 15 8 + bits f 54 49))
  s.setFld k 23 16 (min 255 (s.fld k 23 16 + bits f 60 55))

/-- A received flit of type `ty`: discarded where its CRC or type is bad, else its fields take effect. -/
def State.rxFlit (s : State) (p : Nat) (f : Flit) (ty : Nat) : Option State :=
  if ¬ f.crcOk then none
  else if f.ty ≠ ty then none
  else some (s.flitFields p f)

/-- A received LINK flit whose message is `m`. -/
def State.rxLink (s : State) (p : Nat) (f : Flit) (m : Nat) (act : State → List Byte → State) : State :=
  match s.rxFlit p f 2 with
  | none => if f.crcOk then s else s.count (R.lnkCrcErrCnt p) 1
  | some s =>
    let b := f.payload
    if leNat (b.take 1) = m then act s b else s

def mField (b : List Byte) (i n : Nat) : Nat := leNat ((b.drop i).take n)

/-! ### Entering ACTIVE (R324) -/

/-- The port's phase of exchange: CONFIG, or the CONFIG of a fast retrain. -/
def State.inConfig (s : State) (p : Nat) : Bool := s.portState p == 4 || (s.portState p == 6 && (s.port p).phase == 2)

def State.enterConfig (s : State) (p : Nat) : State :=
  let s := s.modPort p fun x => { x with gotConfig := false, gotAck := false, phase := 2, cfgAt := s.now }
  if s.portState p = 6 then s.modPort p fun x => { x with since := s.now } else s.setPortState p 4

def State.tryActive (s : State) (p : Nat) : State :=
  let x := s.port p
  if s.inConfig p ∧ x.gotConfig ∧ x.gotAck then
    let s := s.wr (R.lnkCredit p) (BitVec.ofNat 64 (x.peer.bulk % 256 + x.peer.control % 256 * 256 + x.peer.response % 256 * 65536))
    -- an acknowledgement that the far end still waits for is sent
    let acks := x.linkOut.filter fun m => m.take 1 == [2]
    let y : Port :=
      if x.retraining then { x with linkOut := acks ++ [msgRetryReq x.expected], uncharged := x.retry.map (·.1) }
      else { x with linkOut := acks, uncharged := [], seq := 0, expected := 0, retry := [], resend := [], ackValid := false,
                    oweBulk := 0, oweControl := 0, oweResponse := 0, cont := [], rxPart := [] }
    let s := s.setPort p { y with attempts := 0, cfgFails := 0, retraining := false, phase := 0, reqOpen := x.retraining,
                                  reqCount := if x.retraining then 1 else 0, reqAt := s.now }
    let s := s.setPortState p 5
    if maskCount (s.portMask p) < 4 then s.linkRaise p 0x5004 0xFF else s
  else s

/-! ### The commands of the port states (R323–R325) -/

/-- The reach class that a port would start with: board where it expects that class, or accepts any and has no cartridge;
else that of an accepted cartridge, where it is the class the port expects (R309, R323, R332). -/
def State.cartReach (s : State) (p : Nat) : Option Nat :=
  let reach := s.fld (R.lnkPortCfg p) 5 4
  let cls := s.fld (R.cartCStatus p) 3 2
  if reach = 1 ∨ (reach = 0 ∧ ¬ s.bit (R.cartCStatus p) 0) then some 1
  else if s.bit (R.cartCStatus p) 1 ∧ (reach = 0 ∨ reach = cls) then some cls
  else none

/-- A port with EN whose link-PHY group is ON (Table 15-5) leaves DISABLED for DETECT; one whose cartridge is worn is retired instead (R335). -/
def execPortEnable (port : Fin 32) (s : State) : Res :=
  if s.portState port ≠ 0 ∨ ¬ s.bit (R.lnkPortCfg port) 0 ∨ ¬ s.bit R.pwrDomainState (42 + port.val / 8) then .next s
  else match s.cartReach port with
  | none => .next s
  | some reach =>
    if reach ≠ 1 ∧ s.bit (R.cartCStatus port) 5 then .next (s.setPortState port 9)
    else
      let s := s.setFld (R.lnkStatus port) 10 9 reach
      .next ((s.modPort port fun x => { encCtr := x.encCtr, slotNo := x.slotNo }).setPortState port 1)

/-- Signal on at least one position, or 1 s without. -/
def execDetect (port : Fin 32) (signal : Bool) (s : State) : Res :=
  if s.portState port ≠ 1 then .next s
  else if signal then .next (s.setPortState port 2)
  else .next ((s.advanceTo ((s.port port).since + 1600000000)).setPortState port 8)

/-- The first four positions of a mask. -/
def firstFour (m : Nat) : Nat := (((List.range 5).filter fun l => m / 2 ^ l % 2 == 1).take 4).foldl (fun a l => a + 2 ^ l) 0

/-- Link training ended: the positions that trained. -/
def execCalibrate (port : Fin 32) (trained : Fin 32) (s : State) : Res :=
  if s.portState port ≠ 2 then .next s
  else
    let m := if s.standbyWired port then trained.val else trained.val % 16
    if m = 0 then .next (s.failAttempt port)
    else .next ((s.setMask port (firstFour m)).setPortState port 3)

/-- FEC lock and the lane identity exchange ended: the positions that locked. -/
def execAlign (port : Fin 32) (locked : Fin 32) (s : State) : Res :=
  let m := s.portMask port &&& locked.val
  if s.portState port = 3 then
    if m = 0 then .next (s.failAttempt port) else .next ((s.setMask port m).enterConfig port)
  else if s.portState port = 6 ∧ (s.port port).phase = 1 then
    if m = 0 then .next (s.fullRetrain port) else .next ((s.setMask port m).enterConfig port)
  else .next s

/-- R325: a CONFIG attempt fails; RETRAIN is left for CALIBRATE (Table 11-7). -/
def State.configFail (s : State) (p : Nat) : State :=
  let n := (s.port p).cfgFails + 1
  if 3 ≤ n then (s.linkRaise p 0x500B 0xFF).setPortState p 8
  else if s.portState p = 6 then (s.modPort p fun x => { x with cfgFails := n }).fullRetrain p
  else (s.modPort p fun x => { x with cfgFails := n }).failAttempt p

def execConfig (port : Fin 32) (flit : BitVec 2048) (s : State) : Res :=
  .next (s.rxLink port flit 1 fun s b =>
    if ¬ s.inConfig port then s
    else
      let key := mField b 8 8
      let mask := mField b 3 1 % 32
      let peer : PeerCfg := { port := mField b 2 1, mask, reach := mField b 5 1, key, bulk := mField b 16 2, control := mField b 18 2, response := mField b 20 2 }
      let s := s.wr (R.lnkPeerKey port) (BitVec.ofNat 64 key)
      if key = s.nodeKey then (s.linkRaise port 0x500C 0xFF).setPortState port 8
      else if mField b 1 1 ≠ 1 ∨ maskCount mask < s.minWidth port ∨ peer.reach ≠ s.fld (R.lnkStatus port) 10 9 then
        s.configFail port
      else
        let s := s.setBit (R.lnkStatus port) 11 (s.nodeKey < key)
        let m := s.portMask port &&& mask
        let s := if m = 0 then s else s.setMask port m
        let s := (s.modPort port fun x => { x with peer, gotConfig := true }).sendLink port (msgKeyed 2 0 key 0)
        s.tryActive port)

def execConfigAck (port : Fin 32) (flit : BitVec 2048) (s : State) : Res :=
  .next (s.rxLink port flit 2 fun s b =>
    if s.inConfig port ∧ mField b 8 8 = s.nodeKey then
      (s.modPort port fun x => { x with gotAck := true }).tryActive port
    else s)

/-- R323: ALIGN or CONFIG exceeds its limit. -/
def execConfigTimeout (port : Fin 32) (s : State) : Res :=
  let since := (s.port port).since
  if s.portState port = 3 then .next ((s.advanceTo (since + 1600000)).failAttempt port)
  else if s.portState port = 4 then .next ((s.advanceTo (since + 160000)).failAttempt port)
  else if s.portState port = 6 ∧ (s.port port).phase = 2 then .next ((s.advanceTo (since + 160000)).fullRetrain port)
  else .next s

/-! ### Sending (R316–R318) -/

def State.credits (s : State) (p c : Nat) : Nat :=
  s.fld (R.lnkCredit p) (8 * c + 7) (8 * c)

def State.sliceEnc (s : State) (slice : Nat) : Bool := s.bit (R.sliceselSliceState slice) 0
/-- The slot in use for sending is valid (R485). -/
def State.txSlotOk (s : State) (slice : Nat) : Bool :=
  let k := R.sliceselSliceState slice
  s.bit k (1 + s.fld k 3 3)
/-- Packet units of a DATA flit's payload (R313, R482). -/
def State.flitUnits (s : State) (slice : Nat) : Nat := if s.sliceEnc slice then 13 else 15

/-- The port's receive FIFO, with the cards on their way to it, is full: control credits are not returned (R258). -/
def State.rxFull (s : State) (p : Nat) : Bool :=
  256 ≤ (s.rx p).fifo.length + (s.fab.chipIn.filter fun e => e.1 == p && e.2.ptype == ptCard).length

/-- The header's ACK and credit fields, with up to 63 credits of each class returned. -/
def State.ackFields (s : State) (p : Nat) : Nat × State :=
  let x := s.port p
  let b := min 63 x.oweBulk
  let c := if s.rxFull p then 0 else min 63 x.oweControl
  let r := min 63 x.oweResponse
  let h := (x.expected + 4095) % 4096 * 2 ^ 30 + (if x.ackValid then 2 ^ 42 else 0) + b * 2 ^ 43 + c * 2 ^ 49 + r * 2 ^ 55
  (h, s.setPort p { x with oweBulk := x.oweBulk - b, oweControl := x.oweControl - c, oweResponse := x.oweResponse - r })

/-- A flit slot: the flit goes on the position at index n mod w of the active ones (R307). -/
def State.putOut (s : State) (p : Nat) (f : Flit) : State :=
  let ps := maskPositions (s.portMask p)
  s.modPort p fun x => { x with out := f, outPos := ps.getD (x.slotNo % max 1 ps.length) 0, slotNo := x.slotNo + 1 }

/-- A flit that is sent again carries the ACK and credit fields of the moment (R317), which link encryption leaves out of its
additional data (R482). -/
def Flit.withAck (f : Flit) (a : Nat) : Flit :=
  let h := bits f 95 0
  mkFlit (h - h / 2 ^ 30 % 2 ^ 31 * 2 ^ 30 + a) f.payload

/-- The link key of a slice's slot (R483): sender's key and port, KEY_GEN. -/
def linkKey (slotKey : List Byte) (nodeKey port gen : Nat) : List Byte :=
  let info := [0x4E, 0x53, 0x34, 0x4C, 0x49, 0x4E, 0x4B, 0x31] ++ natLE 8 nodeKey ++ natLE 1 port ++ natLE 4 gen
  Config.hkdf384 slotKey info 32

/-- The additional data of a flit: its header with bits [60:30] zero, then KEY_GEN. -/
def flitAad (hdr gen : Nat) : List Byte := natLE 12 (hdr - hdr / 2 ^ 30 % 2 ^ 31 * 2 ^ 30) ++ natLE 4 gen

/-- Timestamps of this chip's own time packets are inserted at the port (R357). -/
def State.stamp (s : State) (p : Pkt) : State × Pkt :=
  if p.src ≠ s.chip then (s, p)
  else if p.ptype = ptTsyncReq then
    (s.modSync fun y => { y with outstanding := some s.now }, { p with data := natLE 8 s.now ++ p.data.drop 8 })
  else if p.ptype = ptTsyncRsp then
    (s, { p with data := p.data.take 16 ++ natLE 8 s.now ++ p.data.drop 24 })
  else (s, p)

/-- R510 step 5: under a quiesce, with every unit idle or parked with DRAINED, a packet that this chip originates waits;
roll call and time synchronisation continue. -/
def State.portsQuiet (s : State) : Bool :=
  s.bit R.hostQstopStatus 2 && s.jobs.all fun e => s.unitState e.1 != 1 && (s.unitState e.1 != 2 || s.unitDrained e.1)

def State.mayLeave (s : State) (q : Pkt) : Bool :=
  q.src != s.chip || q.ptype == ptRollcall || q.ptype == ptTsyncReq || q.ptype == ptTsyncRsp || !s.portsQuiet

/-- Packets of one class and slice fill a flit's payload while the next one waits and has credits: the payload so
far, the unit at which the first packet begins, and the state with the queue shortened. -/
def State.fillFlit (s : State) (p cls slice : Nat) (acc : List Byte) (start : Option Nat) : Nat → State × List Byte × Option Nat
  | 0 => (s, acc, start)
  | f + 1 =>
    let u := s.flitUnits slice
    let k := acc.length / 16
    if u ≤ k then (s, acc, start)
    else match (s.port p).txq.find? fun q => q.cls == cls && s.mayLeave q with
    | none => (s, acc, start)
    | some q =>
      if q.slice ≠ slice ∨ s.credits p cls < (k + q.units + u - 1) / u ∨ (s.port p).draining.isSome then (s, acc, start)
      else
        let s := s.modPort p fun x => { x with txq := x.txq.erase q }
        let (s, q) := s.stamp q
        s.fillFlit p cls slice (acc ++ q.bytes) (start.or (some k)) f

/-- Send a DATA flit of class `cls` and slice `slice` that begins with `cont`, and keep it for retry. -/
def State.sendData (s : State) (p cls slice : Nat) (cont : List Byte) : State :=
  let u := s.flitUnits slice
  let chip := s.chip
  let y0 := s.port p
  let before := y0.txq.filter fun q => q.cls == cls && s.mayLeave q
  let (s, acc, start) := s.fillFlit p cls slice cont none 16
  let after := (s.port p).txq.filter fun q => q.cls == cls && s.mayLeave q
  let taken := before.take (before.length - after.length)
  let own := taken.any (fun q => q.src == chip) || (!cont.isEmpty && y0.contOwn)
  let contOwn := match taken.getLast? with | some q => q.src == chip | none => y0.contOwn
  let pads := u - (acc.length + 15) / 16
  let start := start.or (if pads = 0 then none else some (acc.length / 16))
  let body := acc.take (16 * u) ++ (List.replicate pads padPkt).flatten
  let (ackf, s) := s.ackFields p
  let x := s.port p
  let hdr := 1 + cls * 16 + slice * 64 + x.seq * 2 ^ 18 + ackf + (start.getD 15) * 2 ^ 64
  let (payload, s) :=
    if s.sliceEnc slice then
      let slot := s.fld (R.sliceselSliceState slice) 3 3
      let gen := s.fld (R.sliceselSliceGen slice slot) 31 0
      let ks := s.fab.keys.get {} (2 * slice + slot)
      let iv := natLE 4 ks.salt ++ natLE 8 x.encCtr
      let (ct, tag) := Config.gcmSeal (linkKey ks.key s.nodeKey p gen) iv (flitAad hdr gen) body
      (ct ++ iv ++ natLE 4 gen ++ tag, s.modPort p fun y => { y with encCtr := y.encCtr + 1 })
    else (body, s)
  let fl := mkFlit hdr payload
  let s := s.modPort p fun y => { y with
    seq := (y.seq + 1) % 4096, retry := y.retry ++ [(y.seq, fl)], cont := acc.drop (16 * u), contCls := cls, contSlice := slice,
    contOwn, own := (y.own.filter fun n => y.retry.any fun e => e.1 == n) ++ (if own then [y.seq] else []) }
  let s := s.setFld (R.lnkCredit p) (8 * cls + 7) (8 * cls) (s.credits p cls - 1)
  ((s.putOut p fl).globalEvent p 1 1).globalEvent p 3 (16 * u)

/-- A packet whose slice is encrypted and has no valid TX slot is not sent (R485): its tag ends as for NO_ROUTE. -/
def State.keyMissing (s : State) (p : Nat) (q : Pkt) : State :=
  let s := s.modPort p fun x => { x with txq := x.txq.erase q }
  let ctx := (List.range 512).find? fun x => s.ctxState x != 0 && s.ctxSlice x == q.slice
  let s := (s.count R.trustNoKeyCnt 1).raise { code := 0x9005, ctx, detail := [(1, 0xFF), (2, 0x8000 + p)] }
  if (q.ptype = ptWrite ∨ q.ptype = ptRreq) ∧ q.src = s.chip then
    match s.fab.tags.get { dest := 0xFFFFFFFF } (q.b 61 46) with
    | r => if r.dest = 0xFFFFFFFF then s else (s.freeTag (q.b 61 46)).tagOutcome r 2 0
  else s

/-- The class of the next new DATA flit (R318, R348): the first of response, control and bulk with a packet
waiting and credits; a bulk packet that has waited through 7 flits of other classes goes first. -/
def State.nextClass (s : State) (p : Nat) : Option Nat :=
  let x := s.port p
  let fenced : Bool := (s.fab.fences.get ([], 0) (s.portGroup p)).2 != 0
  let can (c : Nat) : Bool :=
    match x.txq.find? fun q => q.cls == c && s.mayLeave q with
    | some q =>
      let u := s.flitUnits q.slice
      decide ((q.units + u - 1) / u ≤ s.credits p c) && !(fenced && c != 0)
    | Option.none => false
  if 1024 ≤ x.retry.length ∨ x.draining.isSome ∨ x.cont ≠ [] then none
  else if decide (7 ≤ x.bulkWait) && can 0 then some 0
  else [2, 1, 0].find? fun c => can c

/-- A DATA flit of class `c` goes: the flits of other classes that a waiting bulk packet has waited through (R318). -/
def State.noteBulkWait (s : State) (p c : Nat) : State :=
  let waits : Bool := c != 0 && (s.port p).txq.any fun q => q.cls == 0
  s.modPort p fun y => { y with bulkWait := if waits then y.bulkWait + 1 else 0 }

/-- A flit slot of the port (R318). -/
def execTransmitFlit (port : Fin 32) (s : State) : Res :=
  let p := port.val
  let st := s.portState p
  let x := s.port p
  if st = 0 ∨ st = 9 ∨ (st = 8 ∧ x.linkOut = []) then .next s
  else
    -- messages that the state repeats
    let s := if s.inConfig p ∧ x.linkOut = [] ∧ x.cfgAt ≤ s.now then
        (s.sendLink p (s.msgConfig p)).modPort p fun y => { y with cfgAt := s.now + 1600 } else s
    let s := if st = 7 then
        let s := if x.slots % 64 = 63 then
            (match x.wantMask with | some m => s.sendLink p (msgKeyed 6 m s.nodeKey 0) | none => s) else s
        s.modPort p fun y => { y with slots := y.slots + 1 }
      else s
    let x := s.port p
    match x.linkOut with
    | m :: rest =>
      let (a, s) := (s.setPort p { x with linkOut := rest }).ackFields p
      .next (s.putOut p (mkFlit (2 + a) m))
    | [] =>
      if st < 4 then .next s
      else if st ≠ 5 then
        let (a, s) := s.ackFields p
        .next (s.putOut p (mkFlit a []))
      else match x.resend with
      | (n, f) :: rest =>
        let due : Bool := x.uncharged.contains n
        let c := Flit.cls f
        if due ∧ s.credits p c = 0 then
          let (a, s) := s.ackFields p
          .next (s.putOut p (mkFlit a []))
        else
          let s := s.setPort p { x with resend := rest, uncharged := x.uncharged.erase n }
          let s := if due then s.setFld (R.lnkCredit p) (8 * c + 7) (8 * c) (s.credits p c - 1) else s
          let (a, s) := s.ackFields p
          .next (s.putOut p (f.withAck a))
      | [] =>
        if x.cont ≠ [] ∧ x.retry.length < 1024 then .next ((s.noteBulkWait p x.contCls).sendData p x.contCls x.contSlice x.cont)
        else match s.nextClass p with
        | some c =>
          match x.txq.find? fun q => q.cls == c && s.mayLeave q with
          | some q =>
            if s.sliceEnc q.slice ∧ ¬ s.txSlotOk q.slice then .next (s.keyMissing p q)
            else
              .next ((s.noteBulkWait p c).sendData p c q.slice [])
          | none => .next s
        | none =>
          let s := if x.txq.any (fun q => q.cls == 0) ∧ s.credits p 0 = 0 then s.globalEvent p 5 1 else s
          let (a, s) := s.ackFields p
          .next (s.putOut p (mkFlit a []))

/-! ### Receiving (R314–R321, R351, R484) -/

/-- The packets of a run of bytes: whole ones, and the rest of one that continues; a bad length ends it. -/
def parsePkts (cls slice : Nat) : List Byte → Nat → List Pkt × List Byte × Nat
  | _, 0 => ([], [], 0)
  | bs, f + 1 =>
    if bs.length < 16 then ([], [], 0)
    else
      let h := leNat (bs.take 16)
      let n := h / 256 % 32
      if n = 0 ∨ 17 < n then ([], [], 1)
      else if bs.length < 16 * n then ([], bs, 0)
      else
        let (ps, rest, bad) := parsePkts cls slice (bs.drop (16 * n)) f
        let t := h % 256
        if t = 0 then (ps, rest, bad)
        else if ptClass t ≠ some cls then (ps, rest, bad + 1)
        else
          let p : Pkt := { ptype := t, cls, dst := h / 2 ^ 16 % 2 ^ 20, src := h / 2 ^ 36 % 2 ^ 20, slice,
                           body := h / 2 ^ 64, data := (bs.drop 16).take (16 * (n - 1)) }
          (p :: ps, rest, bad)

/-- Decrypt an accepted flit of an encrypted slice (R484). -/
def State.openFlit (s : State) (p : Nat) (f : Flit) : Option (List Byte) :=
  let b := f.payload
  let gen := mField b 220 4
  let k := R.sliceselSliceState f.slice
  match [0, 1].find? fun j => s.bit k (1 + j) && s.fld (R.sliceselSliceGen f.slice j) 31 0 == gen with
  | none => none
  | some j =>
    let ks := s.fab.keys.get {} (2 * f.slice + j)
    let x := s.port p
    Config.gcmOpen (linkKey ks.key x.peer.key x.peer.port gen) ((b.drop 208).take 12)
      (flitAad (bits f 95 0) gen) (b.take 208) ((b.drop 224).take 16)

/-- An authentication drop (R484). -/
def State.authDrop (s : State) (p : Nat) : State :=
  let s := s.count R.trustAuthFailCnt 1
  let s := s.raise { code := 0x9006, detail := [(1, 0xFF), (2, 0x8000 + p)] }
  let recent := ((s.port p).authDrops.filter fun t => s.now < t + 1600000) ++ [s.now]
  let s := s.modPort p fun x => { x with authDrops := recent, rxPart := [] }
  if 4 ≤ recent.length then
    let s := s.raise { code := 0x9007, detail := [(1, 0xFF), (2, 0x8000 + p)], loc := p }
    (s.sendLink p (msgDrain 3)).setPortState p 8
  else s

/-- The packets of an accepted flit pass into the chip. -/
def State.passFlit (s : State) (p : Nat) (f : Flit) : State :=
  let (ports, _, pbad) := s.permit f.slice
  let s := s.tableParity pbad
  if ports / 2 ^ p % 2 = 0 then
    -- the port itself consumes its link-local packets (R340)
    let (ps, _, _) := if s.sliceEnc f.slice ∨ f.start = 15 then ([], [], 0) else parsePkts f.cls f.slice (f.payload.drop (16 * f.start)) 64
    let s := (ps.filter fun q => q.ptype == ptRollcall).foldl (fun (st : State) q => st.receivePkt p q) s
    let s := if ps ≠ [] ∧ ps.all (fun q => q.ptype == ptRollcall) then s else (s.count (R.fabSliceDropCnt p) 1).globalEvent p 6 1
    s.modPort p fun x => { x with rxPart := [] }
  else
    let data : Option (List Byte) := if s.sliceEnc f.slice then s.openFlit p f else some f.payload
    match data with
    | none => s.authDrop p
    | some b =>
      let part := (s.port p).rxPart
      let b := if part = [] then (if f.start = 15 then [] else b.drop (16 * f.start)) else part ++ b
      let (ps, rest, bad) := parsePkts f.cls f.slice b 64
      let s := (s.modPort p fun x => { x with rxPart := rest }).count (R.lnkPktDropCnt p) bad
      ps.foldl (fun (st : State) q =>
        let q : Pkt := if q.ptype = ptTsyncReq ∨ q.ptype = ptTsyncRsp then { q with body := st.now } else q
        st.receivePkt p q) s

/-- A received DATA flit (R321, R322). -/
def execDataFlit (port : Fin 32) (rx : RxFlit) (s : State) : Res :=
  let p := port.val
  let flit := rx.bits
  if s.portState p ≠ 5 then .next s
  else
    let again (s : State) : State := if (s.port p).reqOpen then s else s.askRetryLink p rx.locked
    match s.rxFlit p flit 1 with
    | none => .next (if Flit.crcOk flit then s else again (s.count (R.lnkCrcErrCnt p) 1))
    | some t =>
      let c := Flit.cls flit
      if c = 3 then .next (again s)
      else
        let x := t.port p
        if Flit.seq flit ≠ x.expected then .next (again t)
        else
          let owe := if c = 0 then x.oweBulk else if c = 1 then x.oweControl else x.oweResponse
          if (if c = 0 then 160 else 48) ≤ owe then .next ((t.count (R.lnkCreditViolCnt p) 1).startRetrain p true)
          else
            let y : Port := { x with expected := (x.expected + 1) % 4096, ackValid := true, reqOpen := false, reqCount := 0 }
            let y : Port := if c = 0 then { y with oweBulk := y.oweBulk + 1 }
              else if c = 1 then { y with oweControl := y.oweControl + 1 } else { y with oweResponse := y.oweResponse + 1 }
            .next (((t.setPort p y).globalEvent p 2 1).passFlit p flit)

/-- A received IDLE flit. -/
def execIdleFlit (port : Fin 32) (flit : BitVec 2048) (s : State) : Res :=
  match s.rxFlit port flit 0 with
  | some s => .next s
  | none => .next (if Flit.crcOk flit then s else s.count (R.lnkCrcErrCnt port) 1)

/-- A received RETRY_REQ (R321). -/
def execRetryReq (port : Fin 32) (flit : BitVec 2048) (s : State) : Res :=
  .next (s.rxLink port flit 3 fun s b =>
    if s.portState port ≠ 5 then s
    else
      let e := mField b 1 2 % 4096
      let x := s.port port
      let from_ := x.retry.dropWhile fun r => r.1 ≠ e
      if from_ ≠ [] then
        ((s.setPort port { x with resend := from_ }).count (R.lnkRetryCnt port) 1).globalEvent port 4 1
      else if e = x.seq then s
      else s.startRetrain port true)

/-- R321, R322: 4 µs without the expected flit; `locked`: every active lane holds FEC lock. -/
def execRetryReqResend (port : Fin 32) (locked : Bool) (s : State) : Res :=
  let x := s.port port
  if s.portState port ≠ 5 ∨ ¬ x.reqOpen then .next s
  else
    let s := s.advanceTo (x.reqAt + 6400)
    if 8 ≤ x.reqCount ∧ locked then
      let s := (s.linkRaise port 0x5002 0xFF).modLedger fun l => { l with errors := bump l.errors (208 + port) 1 }
      .next ((s.modPort port fun y => { y with reqOpen := false, reqCount := 0 }).startRetrain port true)
    else .next (s.askRetryLink port locked)

/-! ### Retrain (R326, R330) -/

def execRetrain (port : Fin 32) (s : State) : Res :=
  .next (if s.portState port = 5 then s.startRetrain port true else s)

def execRetrainReq (port : Fin 32) (flit : BitVec 2048) (s : State) : Res :=
  .next (s.rxLink port flit 4 fun s b =>
    let key := mField b 8 8
    let fast : Bool := mField b 16 1 == 1
    let st := s.portState port
    let open_ : Bool := st == 6 && (s.port port).phase == 0
    if st = 5 ∨ st = 7 ∨ (open_ ∧ key < s.nodeKey) then
      let s := if open_ then s else s.noteRetrain port
      let s := s.sendLink port (msgKeyed 5 0 key 0)
      let s := (s.modPort port fun x =>
        { x with retraining := true, phase := 1, full := false, wantMask := none, since := s.now }).setPortState port 6
      if fast then s else s.fullRetrain port
    else s)

def execRetrainAck (port : Fin 32) (flit : BitVec 2048) (s : State) : Res :=
  .next (s.rxLink port flit 5 fun s b =>
    if s.portState port = 6 ∧ (s.port port).phase = 0 ∧ mField b 8 8 = s.nodeKey then
      if (s.port port).full then s.fullRetrain port else s.modPort port fun x => { x with phase := 1 }
    else s)

/-- A retrain that has not reached CONFIG within 50 µs becomes a full one; the same limit ends a full retrain's wait for its
RETRAIN_ACK (a choice of this model, log 121). -/
def execFastRetrainTimeout (port : Fin 32) (s : State) : Res :=
  if s.portState port = 6 ∧ (s.port port).phase < 2 then
    .next ((s.advanceTo ((s.port port).since + 80000)).fullRetrain port)
  else .next s

/-- RESTART: a FAILED port goes back to DETECT. -/
def State.portRestart (s : State) (p : Nat) : State :=
  if s.portState p = 8 then
    (s.modPort p fun x => { encCtr := x.encCtr, txq := x.txq, slotNo := x.slotNo }).setPortState p 1 else s

def execRestart (port : Fin 32) (s : State) : Res := .next (s.portRestart port)

/-! ### Lanes and width (R327–R329) -/

/-- The leader of a port that has lost a lane calibrates the standby position, where it is wired and not in use (R329). -/
def State.startStandby (s : State) (p : Nat) : State :=
  let x := s.port p
  if s.bit (R.lnkStatus p) 11 ∧ s.standbyWired p ∧ (s.portMask p ||| x.badMask) / 16 % 2 = 0 ∧ x.standby = 0 then
    s.setPort p { x with standby := 1, standbyAt := s.now }
  else s

/-- A lane's uncorrectable codewords of one ms are counted; where they exceed LANE_THRESH.UCW, or the lane was lost
otherwise, it fails: WIDTH_CHANGE without it, or a full retrain (R327, R328). -/
def execLaneFailed (port : Fin 32) (lane : Fin 5) (loss : LaneLoss) (s : State) : Res :=
  let m := s.portMask port
  let s := s.count (R.lnkFecUcw port lane) loss.ucw
  if (s.portState port ≠ 5 ∧ s.portState port ≠ 7) ∨ m / 2 ^ lane.val % 2 = 0
      ∨ (¬ loss.lost ∧ loss.ucw ≤ s.fld (R.lnkLaneThresh port) 23 16) then .next s
  else
    let s := s.intEvent (448 + port) 1
    let s := (s.linkRaise port 0x5003 lane).modLedger fun l => { l with spares := bump l.spares (600 + port) 1 }
    let s := s.modPort port fun x => { x with badMask := x.badMask ||| 2 ^ lane.val }
    let m' := m - (m &&& (s.port port).badMask)
    if maskCount m' < s.minWidth port then .next (s.startRetrain port false)
    else
      let s := (s.startStandby port).modPort port fun x => { x with wantMask := some m', slots := 0 }
      .next ((s.setPortState port 7).sendLink port (msgKeyed 6 m' s.nodeKey 0))

/-- The mask of a width change takes effect at this end. -/
def State.newMask (s : State) (p m : Nat) : State :=
  let s := (s.setMask p m).modPort p fun x => { x with wantMask := none }
  let s := (s.setPortState p 5).askRetryLink p true
  if maskCount m < 4 then s.linkRaise p 0x5004 0xFF else s

/-- The far end asks for a mask of 1 to 4 positions: the positions it leaves out have failed (R328, R329). -/
def execWidthReq (port : Fin 32) (flit : BitVec 2048) (s : State) : Res :=
  .next (s.rxLink port flit 6 fun s b =>
    let m := mField b 3 1 % 32
    let key := mField b 8 8
    if 1 ≤ maskCount m ∧ maskCount m ≤ 4 ∧ (s.portState port = 5 ∨ (s.portState port = 7 ∧ key < s.nodeKey)) then
      let gone := s.portMask port - (s.portMask port &&& m)
      let s := s.modPort port fun x => { x with badMask := x.badMask ||| gone }
      let s := (s.sendLink port (msgWidthAck m)).newMask port m
      if gone = 0 then s else s.startStandby port
    else s)

def execWidthAck (port : Fin 32) (flit : BitVec 2048) (s : State) : Res :=
  .next (s.rxLink port flit 7 fun s b =>
    if s.portState port = 7 ∧ (s.port port).wantMask = some (mField b 3 1) then s.newMask port (mField b 3 1) else s)

def execWidthChangeTimeout (port : Fin 32) (s : State) : Res :=
  if s.portState port = 7 then .next ((s.advanceTo ((s.port port).since + 32000)).startRetrain port false) else .next s

/-- The leader's background calibration of the standby position ends. -/
def execStandbyCalibrated (port : Fin 32) (ok : Bool) (s : State) : Res :=
  let x := s.port port
  if x.standby ≠ 1 then .next s
  else if ok then
    if s.portState port = 5 then
      let m := s.portMask port ||| 16
      let s := s.modLedger fun l => { l with spares := bump l.spares (632 + port) 1 }
      let s := s.setPort port { x with standby := 0, wantMask := some m, slots := 0 }
      .next ((s.setPortState port 7).sendLink port (msgKeyed 6 m s.nodeKey 0))
    else .next s
  else .next ((s.advanceTo (x.standbyAt + 800000000)).setPort port { x with standby := 2 })

/-- Corrected symbols of a lane in one second, in units of 2^10. -/
def execFecDegraded (port : Fin 32) (lane : Fin 5) (corrected : Nat) (s : State) : Res :=
  let s := s.count (R.lnkFecCorr port lane) corrected
  if s.fld (R.lnkLaneThresh port) 15 0 < corrected then
    .next (((s.linkRaise port 0x500A lane).intEvent (448 + port) 2).advise 0)
  else .next s

/-! ### Drain (R335) -/

def execDrain (port : Fin 32) (flit : BitVec 2048) (s : State) : Res :=
  .next (s.rxLink port flit 8 fun s _ => s.modPort port fun x => { x with peerDraining := true })

def execRetireDrainEnd (port : Fin 32) (s : State) : Res :=
  let x := s.port port
  match x.draining with
  | none => .next s
  | some r =>
    let s := if x.retry = [] then s else s.advanceTo (x.drainAt + 32000)
    let s := s.setPort port { x with draining := none, retry := [], resend := [], cont := [] }
    .next (s.setPortState port (if r = 1 then 9 else 8))

end Sys2Proof.Machine
end

