-- ==== Sys2Proof/Machine/Qstop.lean ====
section
/-! DEFINITION. The quiesce inputs (R508–R511). -/

namespace Sys2Proof.Machine

def State.qstopFault (s : State) : Bool := s.bit R.hostQstopStatus 4
def State.quiesced (s : State) : Bool := s.bit R.hostQstopStatus 2

/-- The orderly quiesce begins (R510 steps 1–4): the dispatcher, sequencers and engines read QUIESCED. -/
def State.quiesce (s : State) : State :=
  let s := s.setBit R.hostQstopStatus 2 true
  (List.range 171).foldl (fun (st : State) u => st.parkReq 3 u) s

/-- The quiesce ends (R511): what stopped resumes. -/
def State.quiesceEnd (s : State) : State :=
  let s := (s.setBit R.hostQstopStatus 2 false).setBit R.hostQstopStatus 3 false
  ((List.range 171).foldl (fun (st : State) u => st.releasePark 3 u) s).pumpAll

/-- `QSTOP_LEVEL_CHANGE`: the filtered levels become `a` and `b` (Table 18-10). -/
def execQstopLevelChange (a b : Bool) (s : State) : Res :=
  .next (
    let counting := s.host.disagree
    let was := s.bit R.hostQstopStatus 0 != s.bit R.hostQstopStatus 1
    let s := (s.setBit R.hostQstopStatus 0 a).setBit R.hostQstopStatus 1 b
    if a ≠ b then (if was then s else s.modHost fun h => { h with disagree := true })
    else
      let s := s.modHost fun h => { h with disagree := false }
      if a then
        (if s.qstopFault ∨ s.quiesced then s else (s.quiesce.intEvent 503 4).hostRaise 0xA007 0xFF 0xFFFF 0)
      else
        let s := if counting then s.count R.hostQstopDiscCnt 1 else s
        if s.quiesced ∧ ¬ s.qstopFault then s.quiesceEnd else s)

/-- `QSTOP_INPUT_FAULT`: cycle 20,000 of a disagreement. -/
def execQstopInputFault (s : State) : Res :=
  .next (if ¬ s.host.disagree then s
  else
    let s := (s.modHost fun h => { h with disagree := false }).setBit R.hostQstopStatus 4 true
    let s := ((s.count R.hostQstopFaultCnt 1).intEvent 503 4).hostRaise 0xA008 0xFF 0xFFFF 0
    if s.quiesced then s else s.quiesce)

/-- No retry buffer holds a flit that the chip originated (R510 step 6). -/
def State.ownFlitsGone (s : State) : Bool :=
  s.ports.all fun e => !e.2.retry.any fun r => e.2.own.contains r.1

/-- `QSTOP_RDY`; `verified`: the ledger write that follows verifies. -/
def execQstopRdy (verified : Bool) (s : State) : Res :=
  .next (if s.portsQuiet ∧ ¬ s.bit R.hostQstopStatus 3 ∧ s.ownFlitsGone then
    (s.setBit R.hostQstopStatus 3 true).ledgerWrite verified else s)

/-- A write of QSTOP_CTRL.FAULT_CLEAR. -/
def State.faultClear (s : State) : State :=
  if s.qstopFault && !s.bit R.hostQstopStatus 0 && !s.bit R.hostQstopStatus 1 then
    (s.setBit R.hostQstopStatus 4 false).quiesceEnd else s

/-- `FAULT_CLEAR`. -/
def execFaultClear (s : State) : Res := .next s.faultClear

end Sys2Proof.Machine
end

