-- ==== Sys2Proof/Machine/Security.lean ====
section
/-! DEFINITION. The boot ROM (R466–R471), the SPDM responder (R473), slice keys (R481), debug unlocks (R477–R480) and
JTAG (R515). -/

namespace Sys2Proof.Machine

def State.modTrust (s : State) (f : TrustState → TrustState) : State := { s with trust := f s.trust }
def State.modSpdm (s : State) (f : Spdm → Spdm) : State := s.modTrust fun t => { t with spdm := f t.spdm }

/-- An event or advisory of Table 17-13: the agent, the page or port, the context (R486). -/
def State.trustRaise (s : State) (code agent page : Nat) (ctx : Option Nat := none) : State :=
  s.raise { code, ctx, detail := [(1, agent), (2, page)] }

/-! ### Secure boot -/

/-- HMAC-SHA-384 (block of 128 bytes). -/
def hmac384 (key msg : List Byte) : List Byte :=
  let k := fitBytes 128 (if 128 < key.length then sha384 key else key)
  sha384 (k.map (· ^^^ 0x5C) ++ sha384 (k.map (· ^^^ 0x36) ++ msg))

def imgBody (img : List Byte) : List Byte := (img.drop 128).take (le img 0x0C 4)
def imgSvn (img : List Byte) : Nat := le img 8 4

/-- The checks of a slot but SVN (R470 step 3). -/
def State.imageOk (s : State) (img : List Byte) : Bool :=
  let n := le img 0x0C 4
  le img 0 4 == 0x5746344E && le img 6 2 == 128 && 1 ≤ n && n ≤ 2 ^ 21 && sha384 (imgBody img) == (img.drop 0x10).take 48
    && sigOk [s.trust.fuses.fwKeys] (label "NS4-MFW1" ++ img.take 128) (img.drop (128 + n))

def State.lifecycle (s : State) : Nat := s.fld R.trustLifecycle 1 0

/-- The slot boots: measurement (R471), key derivation (R467), ACCESS closed (R465). -/
def State.bootFrom (s : State) (slot : Nat) (img : List Byte) : State :=
  let s := (s.extend 0 (img.take 128)).extend 0 ((img.drop 0x10).take 48)
  let s := s.extend 2 (natLE 1 s.lifecycle)
  let uds : List Byte := if s.lifecycle = 2 then List.replicate 32 0 else s.trust.fuses.uds
  let dev := hmac384 uds (label "NS4-DEVID")
  let aseed := hmac384 (hmac384 uds (s.mreg 0)) (label "NS4-ALIAS")
  let cert := Config.certChain dev aseed (s.mreg 0) (imgSvn img) s.lifecycle
  let s := s.modTrust fun t =>
    { t with running := some slot, lastGood := some slot, recovery := false, aliasSeed := aseed, cert }
  (s.setFld R.trustSvn 14 7 (imgSvn img)).wr R.trustAccess 0

/-- One slot is tried (R470 steps 3 and 4). -/
def State.trySlot (s : State) (slot : Nat) : State × Bool :=
  let img := if slot = 0 then s.trust.slotA else s.trust.slotB
  if ¬ s.imageOk img then (s.trustRaise 0x9001 0xFF 0xFFFF, false)
  else if imgSvn img < s.fld R.trustSvn 6 0 then (s.trustRaise 0x9003 0xFF 0xFFFF, false)
  else (s.bootFrom slot img, true)

/-- `SECURE_BOOT`; `fuses`: the fuse array passes its own integrity check (R466). -/
def execSecureBoot (fuses : Bool) (s : State) : Res :=
  .next (if s.start.held ∨ s.phase ≠ 0 ∨ s.firmware ∨ s.trust.recovery then s
  else if ¬ fuses then s.trustRaise 0x900B 0xFF 0xFFFF
  else
    -- the ROM switches the host-interface domain ON (R528)
    let s := if s.bit R.pwrDomainState 46 then s else s.domainUp 46
    let a := s.trust.lastGood.getD 0
    match s.trySlot a with
    | (s, true) => s
    | (s, false) => match s.trySlot (1 - a) with
      | (s, true) => s
      | (s, false) => ((s.trustRaise 0x9002 0xFF 0xFFFF).modTrust fun t => { t with recovery := true }).setPhase 9)

/-! ### SPDM (R473) -/

/-- A response: its code and body. -/
def State.spdmAnswer (s : State) (code : Nat) (body : List Byte) : State := s.modSpdm fun x => { x with resp := code, body }
/-- ERROR with UnexpectedRequest (0x04) or UnsupportedRequest (0x07). -/
def State.spdmError (s : State) (code : Nat) : State := s.spdmAnswer 0x7F [BitVec.ofNat 8 code]

/-- The SPDM request codes of Table 17-8 (DSP0274: a response's code and 0x80). -/
def spdmRequests : List Nat := [0x81, 0x82, 0x83, 0x84, 0xE0, 0xE1, 0xE3, 0xE4, 0xE5, 0xE8, 0xE9, 0xEC, 0xFE]

/-- What a message asks for that no table names is declined by the means of its standard (R4, R473, Table 18-8): an SPDM
request, a Dreutlan command byte, a PLDM type.  What a supported one does is its own command's. -/
def State.mctpBody (s : State) (t type code : Nat) : State :=
  if type = 5 then (if s.firmware ∧ ¬ spdmRequests.contains code then s.spdmError 7 else s)
  else if type = 0x7F then (if 1 ≤ code ∧ code ≤ 8 then s else s.mgmt t fun s => s.respond t 7 [])
  else if type = 1 then (if [0, 2, 5].contains code then s else s.respond t 0x20 [])
  else s

/-- `MCTP_MESSAGE`: a message of a type arrives, whole or not; for a control message, the EID it assigns. -/
def execMctpMessage (transport : Fin 2) (head : MctpHead) (intact : Bool) (eid : Option (BitVec 8)) (s : State) : Res :=
  .next (if ¬ (s.firmware ∨ s.trust.recovery) ∨ (transport.val = 1 ∧ ¬ s.hostUp) then s
  else if ¬ intact ∨ ¬ [0x00, 0x01, 0x05, 0x06, 0x7F].contains head.type.val then
    (s.modHost fun h => { h with mctpDrops := h.mctpDrops + 1 }).hostRaise 0xA009 0xFF 0xFFFF 0
  else if head.type.val = 0 then (match eid with | some e => s.modHost fun h => { h with eid := e.toNat } | none => s)
  else s.mctpBody transport head.type head.code.toNat)

/-- A request reaches the responder over transport `t` (0 I3C, 1 VDM), which has reached phase `need`. -/
def State.spdm (s : State) (t need : Nat) (f : State → State) : State :=
  if ¬ s.firmware ∨ (t = 1 ∧ ¬ s.hostUp) then s
  else if s.trust.spdm.phase < need then s.spdmError 4
  else f s

/-- `GET_VERSION`: the negotiation starts again. -/
def execGetVersion (transport : Fin 2) (s : State) : Res :=
  .next (s.spdm transport 0 fun s =>
    (s.modSpdm fun _ => { phase := 1 }).spdmAnswer 0x04 (Config.spdmBody 0x04 []))

/-- `GET_CAPABILITIES`. -/
def execGetCapabilities (transport : Fin 2) (s : State) : Res :=
  .next (s.spdm transport 1 fun s => (s.modSpdm fun x => { x with phase := max x.phase 2 }).spdmAnswer 0x61 (Config.spdmBody 0x61 []))

/-- `NEGOTIATE_ALGORITHMS`: the offer holds the algorithms of Table 17-8, or is declined. -/
def execNegotiateAlgorithms (transport : Fin 2) (supported : Bool) (s : State) : Res :=
  .next (s.spdm transport 2 fun s =>
    if supported then (s.modSpdm fun x => { x with phase := 3 }).spdmAnswer 0x63 (Config.spdmBody 0x63 []) else s.spdmError 7)

def State.chain (s : State) : List Byte := s.trust.cert

/-- `GET_DIGESTS`. -/
def execGetDigests (transport : Fin 2) (s : State) : Res :=
  .next (s.spdm transport 3 fun s => s.spdmAnswer 0x01 (sha384 s.chain))

/-- `GET_CERTIFICATE`: slot 0 only. -/
def execGetCertificate (transport : Fin 2) (slot : Fin 8) (offset len : BitVec 16) (s : State) : Res :=
  .next (s.spdm transport 3 fun s =>
    if slot.val ≠ 0 then s.spdmError 7 else s.spdmAnswer 0x02 ((s.chain.drop offset.toNat).take len.toNat))

/-- `CHALLENGE`: signed with the Alias key over the requester's nonce. -/
def execChallenge (transport : Fin 2) (slot : Fin 8) (nonce : BitVec 256) (s : State) : Res :=
  .next (s.spdm transport 3 fun s =>
    if slot.val ≠ 0 then s.spdmError 7
    else s.spdmAnswer 0x03 (Config.aliasSign s.trust.aliasSeed (Config.spdmBody 0x03 (sha384 s.chain ++ natLE 32 nonce.toNat))))

/-- `GET_MEASUREMENTS`: block 1–8, or 0xFF for all: MREG[0]–[7] as raw digests. -/
def execGetMeasurements (transport : Fin 2) (index : BitVec 8) (s : State) : Res :=
  .next (s.spdm transport 3 fun s =>
    let i := index.toNat
    if i = 0xFF then s.spdmAnswer 0x60 ((List.range 8).map s.mreg).flatten
    else if 1 ≤ i ∧ i ≤ 8 then s.spdmAnswer 0x60 (s.mreg (i - 1))
    else if i = 0 then s.spdmAnswer 0x60 [8]
    else s.spdmError 7)

/-- `KEY_EXCHANGE`. -/
def execKeyExchange (transport : Fin 2) (slot : Fin 8) (s : State) : Res :=
  .next (s.spdm transport 3 fun s =>
    if slot.val ≠ 0 then s.spdmError 7
    else
      let (s, r) := s.draw 32
      (s.modSpdm fun x => { x with exchange := true, session := false, qualified := false, updates := 0 }).spdmAnswer 0x64
        (Config.spdmBody 0x64 (s.trust.aliasSeed ++ r)))

def State.oprKey (s : State) : List Byte := s.regBytes R.trustOprKey 12

/-- `FINISH`: whether the requester's message verifies, and in mutual authentication the root public key of its
certificate chain (SEC1 uncompressed). -/
def execFinish (transport : Fin 2) (verifies : Bool) (root : Option (List Byte)) (s : State) : Res :=
  .next (s.spdm transport 3 fun s =>
    if ¬ s.trust.spdm.exchange then s.spdmError 4
    else if ¬ verifies then (s.modSpdm fun x => { x with exchange := false }).spdmError 6
    else
      let q : Bool := match root with | some k => s.oprKey.any (· ≠ 0) && sha384 k == s.oprKey | none => false
      (s.modSpdm fun x => { x with exchange := false, session := true, qualified := q }).spdmAnswer 0x65 (Config.spdmBody 0x65 []))

def State.inSession (s : State) (f : State → State) : State := if s.trust.spdm.session then f s else s.spdmError 4

/-- `HEARTBEAT`. -/
def execHeartbeat (transport : Fin 2) (s : State) : Res :=
  .next (s.spdm transport 3 fun s => s.inSession fun s => s.spdmAnswer 0x68 [])

/-- `KEY_UPDATE`. -/
def execKeyUpdate (transport : Fin 2) (s : State) : Res :=
  .next (s.spdm transport 3 fun s => s.inSession fun s =>
    (s.modSpdm fun x => { x with updates := x.updates + 1 }).spdmAnswer 0x69 [])

/-- `END_SESSION`. -/
def execEndSession (transport : Fin 2) (s : State) : Res :=
  .next (s.spdm transport 3 fun s => s.inSession fun s =>
    (s.modSpdm fun x => { x with session := false, qualified := false }).spdmAnswer 0x6C [])

/-- `GET_CTX_MEASUREMENT`: C_MEAS of a context, signed by both Alias keys. -/
def execGetCtxMeasurement (transport : Fin 2) (ctx : Fin 512) (nonce : BitVec 256) (s : State) : Res :=
  .next (s.spdm transport 3 fun s =>
    let m := s.cMeas ctx
    s.spdmAnswer 0x7E (m ++ Config.aliasSign s.trust.aliasSeed
      (label "NS4-CTXM" ++ natLE 32 nonce.toNat ++ natLE 2 ctx.val ++ m)))

/-- `PQ_SIGN`: both Alias signatures over the measurement transcript. -/
def execPqSign (transport : Fin 2) (transcript : List Byte) (s : State) : Res :=
  .next (s.spdm transport 3 fun s => s.spdmAnswer 0x7E (Config.aliasSign s.trust.aliasSeed transcript))

/-- A message accepted only inside a qualifying session (R473). -/
def State.qualifying (s : State) (t : Nat) (f : State → State) : State :=
  s.spdm t 3 fun s => if s.trust.spdm.session ∧ s.trust.spdm.qualified then f s else s.spdmError 4

/-- `COMMIT_SVN` (R470): the fuses never move backwards. -/
def execCommitSvn (transport : Fin 2) (s : State) : Res :=
  .next (s.qualifying transport fun s =>
    (s.setFld R.trustSvn 6 0 (max (s.fld R.trustSvn 6 0) (s.fld R.trustSvn 14 7))).spdmAnswer 0x7E [])

/-! ### Slice keys (R481, Table 17-10) -/

/-- A slice-key message is declined (0x900A). -/
def State.keyBad (s : State) : State := (s.trustRaise 0x900A 0 502).spdmError 7

/-- A slice-key message outside a qualifying session is declined too. -/
def State.keyMessage (s : State) (t : Nat) (f : State → State) : State :=
  s.spdm t 3 fun s =>
    if s.trust.spdm.session ∧ s.trust.spdm.qualified then f s else (s.trustRaise 0x900A 0 502).spdmError 4

def State.slotValid (s : State) (slice k : Nat) : Bool := s.bit (R.sliceselSliceState slice) (1 + k)

/-- `SET_KEY`. -/
def execSetKey (transport : Fin 2) (slice : Fin 4096) (slot : BitVec 8) (gen : BitVec 32) (key : BitVec 256) (s : State) : Res :=
  .next (s.keyMessage transport fun s =>
    if 1 < slot.toNat then s.keyBad
    else
      let (s, salt) := s.draw 4
      let k := slot.toNat
      let s := s.modFab fun x => { x with keys := x.keys.set {} (2 * slice + k) { key := natLE 32 key.toNat, salt := leNat salt } }
      ((s.setBit (R.sliceselSliceState slice) (1 + k) true).wr (R.sliceselSliceGen slice k) (gen.setWidth 64)).spdmAnswer 0x7E [])

/-- `CLEAR_KEY`. -/
def execClearKey (transport : Fin 2) (slice : Fin 4096) (slot : BitVec 8) (s : State) : Res :=
  .next (s.keyMessage transport fun s =>
    let k := slot.toNat
    if 1 < k ∨ s.fld (R.sliceselSliceState slice) 3 3 = k then s.keyBad
    else
      let s := s.modFab fun x => { x with keys := x.keys.set {} (2 * slice + k) {} }
      ((s.setBit (R.sliceselSliceState slice) (1 + k) false).wr (R.sliceselSliceGen slice k) 0).spdmAnswer 0x7E [])

/-- `SET_ENC`: only while the slice's permit entry in the active bank is closed. -/
def execSetEnc (transport : Fin 2) (slice : Fin 4096) (enc : Bool) (s : State) : Res :=
  .next (s.keyMessage transport fun s =>
    let p := s.permit slice
    if p.1 ≠ 0 ∨ p.2.1 = true ∨ p.2.2 = true then s.keyBad
    else (s.setBit (R.sliceselSliceState slice) 0 enc).spdmAnswer 0x7E [])

/-- `ARM_TX`. -/
def execArmTx (transport : Fin 2) (slice : Fin 4096) (slot : BitVec 8) (epoch : BitVec 64) (s : State) : Res :=
  .next (s.keyMessage transport fun s =>
    if 1 < slot.toNat ∨ ¬ s.slotValid slice slot.toNat ∨ epoch.toNat ≤ s.epoch then s.keyBad
    else
      let s := s.modFab fun x => { x with armSlots := x.armSlots.set 0 slice slot.toNat }
      ((s.setBit (R.sliceselSliceState slice) 4 true).wr (R.sliceselSliceArmEpoch slice) epoch).spdmAnswer 0x7E [])

/-! ### Debug (R478–R480) -/

/-- `DBG_NONCE`: a fresh 32-byte nonce. -/
def State.drawNonce (s : State) : State :=
  let (s, bs) := s.draw 32
  (s.putBytes R.trustDbgNonce 8 bs).modTrust fun t => { t with nonce := some bs }

def execDbgNonce (s : State) : Res := .next s.drawNonce

def State.tokenFails (s : State) : Nat := s.fld R.trustLifecycle 6 3

/-- A token is refused: the nonce is consumed and the failure counted (R479 step 6). -/
def State.tokenBad (s : State) (ctx : Option Nat) : State :=
  (((s.modTrust fun t => { t with nonce := none }).setFld R.trustLifecycle 6 3 (min 8 (s.tokenFails + 1))).intEvent 502 1).trustRaise
    0x9009 1 502 ctx

/-- A token of 5,464 bytes, SCOPE first, is submitted (R479). -/
def State.submitToken (s : State) (bs : List Byte) : State :=
  if s.lifecycle ≠ 1 ∨ 8 ≤ s.tokenFails then s
  else
    let scope := le bs 0 2
    let block := bs.drop 2
    match s.trust.nonce with
    | none => s.tokenBad none
    | some nonce =>
      let m := label "NS4-DBG1" ++ natLE 8 (s.rd R.trustSerial).toNat ++ nonce ++ natLE 2 scope
      let keys := if scope = 0x3FF then [s.trust.fuses.dbgKeys] else s.ctxKeys scope
      let open' : Bool := if scope = 0x3FF then (List.range 512).all fun x => s.ctxState x == 0
        else scope < 512 && s.ctxState scope != 0
      if ¬ open' ∨ ¬ sigOk keys m block then s.tokenBad (if scope < 512 then some scope else none)
      else
        let s := s.modTrust fun t => { t with nonce := none }
        let d := label "NS4-DBG1" ++ natLE 2 scope
        let s := s.extend 2 d
        let s := if scope = 0x3FF then s.setBit R.trustLifecycle 2 true
          else (s.extendCtx scope d).setBit (R.trustselCSigpol scope) 5 true
        (s.intEvent 502 0).trustRaise 0x9008 1 502 (if scope < 512 then some scope else none)

/-- `DEBUG_TOKEN`: by the vendor-defined debug message. -/
def execDebugToken (transport : Fin 2) (token : List Byte) (s : State) : Res :=
  .next (s.spdm transport 3 fun s => if token.length = 5464 then (s.submitToken token).spdmAnswer 0x7E [] else s.spdmError 1)

/-- A word written to DBG_TOKEN: the 5,464th byte submits the token. -/
def State.tokenWord (s : State) (v : Nat) : State :=
  let bs := s.trust.token ++ natLE 4 v
  if bs.length < 5464 then s.modTrust fun t => { t with token := bs }
  else (s.modTrust fun t => { t with token := [] }).submitToken bs

/-- Every debug unlock ends (R480). -/
def State.relock (s : State) : State :=
  let ks := (s.regs.filter fun r => 0x1400 ≤ r.1 / 4096 && r.1 / 4096 < 0x1600 && r.1 % 4096 == 0x204).map (·.1)
  ks.foldl (fun (st : State) k => st.setBit k 5 false) (s.setBit R.trustLifecycle 2 false)

/-- `DBG_LOCK`. -/
def execDbgLock (s : State) : Res := .next s.relock

/-! ### JTAG (R477, R515): the current instruction as 0 BYPASS, 1 IDCODE, 2 SAMPLE/PRELOAD, 3 EXTEST -/

def State.jtagTo (s : State) (ir out : Nat) : State := s.modTrust fun t => { t with jtag := ir, jtagOut := out, extest := false }

/-- `BYPASS`: the one-bit bypass register captures 0. -/
def execBypass (s : State) : Res := .next (s.jtagTo 0 0)

/-- `IDCODE`. -/
def execIdcode (s : State) : Res := .next (s.jtagTo 1 0x1A041B73)

/-- `SAMPLE_PRELOAD`: the pins are captured, and the chain's next values latched. -/
def execSamplePreload (pins load : List Bool) (s : State) : Res :=
  .next ((s.jtagTo 2 0).modTrust fun t => { t with scan := pins, preload := load })

/-- `EXTEST`: the latched values drive the pins while the device is held in reset; otherwise it acts as BYPASS. -/
def execExtest (s : State) : Res :=
  .next (if s.start.scanHold then (s.jtagTo 3 0).modTrust fun t => { t with extest := true } else s.jtagTo 0 0)

end Sys2Proof.Machine
end

