-- ==== Sys2Proof/Machine/Startup.lean ====
section
/-! DEFINITION. Resets, thermal hold and the start sequence (chapter 19). -/

namespace Sys2Proof.Machine

/-! ### What a reset keeps (Table 19-2) -/

/-- The registers whose contents live in fuses: LIFECYCLE.STATE, SVN.FUSED, SERIAL; a MANUFACTURE part is unlocked
device-wide from reset (R478). -/
def State.fuseRegs (s t : State) : State :=
  let l := s.lifecycle
  let t := (t.setFld R.trustLifecycle 1 0 l).setBit R.trustLifecycle 2 (l == 0)
  (t.setFld R.trustSvn 6 0 (s.fld R.trustSvn 6 0)).wr R.trustSerial (s.rd R.trustSerial)

/-- Registers carried over. -/
def State.keepRegs (s t : State) (ks : List Nat) : State := ks.foldl (fun (st : State) k => st.wr k (s.rd k)) t

/-- The registers of the repair state: SLOT_MAP, column maps, spare banks and rows, the queue manager copy. -/
def repairRegs : List Nat :=
  (List.range 32).map R.podSlotMap ++ (List.range 128).flatMap (fun c => (List.range 4).map (R.coreArrColmap c))
    ++ (List.range 8).flatMap (fun t => [R.smemSpareBank t 0, R.smemSpareBank t 1, R.smemSpareRowMin t])

/-- A rebuild that was under way ends with its spare bank in service: every row is zero (R530). -/
def State.settleRebuild (s : State) (t : Nat) : State :=
  [0, 1].foldl (fun (st : State) k =>
    if st.fld (R.smemSpareBank t k) 10 9 = 1 then st.setFld (R.smemSpareBank t k) 10 9 2 else st) s

/-- The state after a device reset: `kind` 0 power-on, 1 cold, 2 warm; `cause` is RESET_CAUSE.KIND. -/
def State.resetTo (s : State) (kind cause : Nat) : State :=
  let ledger : Ledger := { copyA := s.obs.ledger.copyA, copyB := s.obs.ledger.copyB, gen := s.obs.ledger.gen,
                           useB := s.obs.ledger.useB }
  let obs : ObsState := { ledger, saved := s.obs.saved }
  let trust : TrustState := { fuses := s.trust.fuses, slotA := s.trust.slotA, slotB := s.trust.slotB,
                              lastGood := s.trust.lastGood }
  -- the monitors stay armed but for a power-on reset and a fall of PWROK (R521)
  let start : StartState := { preset := s.start.preset, mgtAddr := s.start.mgtAddr,
                              armed := s.start.armed && kind != 0 && cause != 3 }
  let t : State := { pending := s.pending, freeCtr := s.freeCtr, obs, trust, start }
  let t := (s.fuseRegs t).wr R.mgtResetCause (BitVec.ofNat 64 cause)
  let t := if kind = 0 then t else t.wr R.pwrVmaxUsed (s.rd R.pwrVmaxUsed)
  if kind = 2 then
    let smem : SmemState := { spareRows := s.smem.spareRows, rowMap := s.smem.rowMap, failed := s.smem.failed }
    let recov : RecState := { podsOut := s.recov.podsOut, badSpares := s.recov.badSpares }
    let t := { t with flog := s.flog, smem, recov }
    let t := (s.keepRegs t (R.mgtFlogHead :: repairRegs)).setFld R.qmStatus 1 1 (s.fld R.qmStatus 1 1)
    (List.range 8).foldl (fun (st : State) k => st.settleRebuild k) t
  else t

def State.modPower (s : State) (f : PowerState → PowerState) : State := { s with power := f s.power }

/-- The device waits in reset, the boundary-scan chain driving the pins where `scan` says. -/
def State.holdReset (s : State) (scan : Bool) : State :=
  { s with start := { s.start with held := true, scanHold := scan } }

/-- Thermal hold (R524): the device stays in reset, THERMTRIP_N asserted. -/
def State.thermalHold (s : State) : State := ((s.holdReset true).setPhase 8).modPower fun p => { p with trip := true }

/-- The straps are latched (R523): PORT_CFG takes the preset (R312). -/
def State.latchStraps (s : State) (preset addr : Nat) : State :=
  (List.range 32).foldl (fun (st : State) p => st.presetPort p) { s with start := { s.start with preset, mgtAddr := addr } }

/-- A reset, or the start after it, is in progress (R520). -/
def State.starting (s : State) : Bool := s.start.held || decide (s.phase < 6) || s.phase == 8

/-- The kind and the cause of a reset that acts: those of the reset or start in progress, where its kind is more extensive
(R520). -/
def State.resetKind (s : State) (kind cause : Nat) : Nat × Nat :=
  let c := s.fld R.mgtResetCause 2 0
  let k := if c ≤ 1 then 0 else if c = 5 then 2 else 1
  if s.starting && decide (k < kind) then (k, c) else (kind, cause)

/-- `POWER_ON_RESET`: VDD_AON enters its limits, or falls below its fault limit. -/
def State.powerOnReset (s : State) : State := (s.resetTo 0 1).holdReset false

def execPowerOnReset (s : State) : Res := .next s.powerOnReset

/-- Every 100 ns: the rails in the order of SUPPLY_STATUS, in µV.  Rails other than VDD_AON are judged once armed
(R521); the undervoltage of VDD_AON is a power-on reset (Table 15-7). -/
def execSupplySample (volts : List Nat) (s : State) : Res :=
  let s := (List.range 9).foldl (fun (st : State) r =>
    if (r = 8 ∨ st.start.armed) ∧ r < volts.length then st.judgeRail r (volts.getD r 0) else st) s
  let near (r : Nat) : Bool := decide (volts.getD r 0 ≤ 1000 * s.power.vset + 10000
    ∧ 1000 * s.power.vset ≤ volts.getD r 0 + 10000)
  let s := if near 0 ∧ near 1 then { s with power := { s.power with vold := s.power.vset } } else s
  .next (if 10 ≤ s.power.badRun.get 0 8 then s.powerOnReset else s.supplyLimit)

/-- `COLD_RESET`: 0 SYS_RST_N, 1 PWROK deasserted, 2 RESET_CMD. -/
def State.coldReset (s : State) (source : Nat) : State :=
  (s.resetTo (s.resetKind 1 (2 + source)).1 (s.resetKind 1 (2 + source)).2).holdReset (source == 0)

def execColdReset (source : Fin 3) (s : State) : Res := .next (s.coldReset source)

/-- A sensor's latest reading is 110 °C or above (R431, R524). -/
def State.hotSensor (s : State) : Bool := (List.range 48).any fun d => decide (880 ≤ s.fld (R.pwrTemp d) 11 0)

/-- `WARM_RESET`: the ledger is written, unless the device is FATAL, and the reset begins; the straps latch (R519,
R523).  A reset that is held stays so, and one that finds a hot sensor is (R431). -/
def State.warmReset (s : State) (preset addr : Nat) (verified : Bool) : State :=
  let s := if s.fld R.mgtRecState 1 0 = 3 then s else s.ledgerWrite verified
  let t := (s.resetTo (s.resetKind 2 5).1 (s.resetKind 2 5).2).latchStraps preset addr
  if s.hotSensor then t.thermalHold else if s.start.held then t.holdReset s.start.scanHold else t

def execWarmReset (preset : Fin 8) (addr : Fin 4) (verified : Bool) (s : State) : Res :=
  .next (s.warmReset preset addr verified)

/-- The registers of the HOST page that a host reset clears: all but STATUS, INT_STATUS, TAG_STATE and the quiesce
registers. -/
def hostResets (k : Nat) : Bool :=
  k / 4096 == 503 && !([0x014, 0x020, 0x120, 0x140, 0x144, 0x148, 0x14C].contains (k % 4096))

/-- `HOST_RESET`: PERST_N resets the host port under R495. -/
def execHostReset (s : State) : Res :=
  let s := s.linkDown
  let s := { s with regs := s.regs.filter fun e => !hostResets e.1 }
  .next (s.modHost fun h => { h with msix := [], pba := [], rings := [], snoop := none, aerInternal := false,
                                     aerUnexpected := 0, cpl := none })

/-! ### Release and thermal hold (R523, R524) -/

/-- `RESET_RELEASE`: SYS_RST_N and PWROK are filtered high; the straps latch and every sensor is read, in units of
0.125 °C.  The supply monitors arm at PWROK's edge (R521). -/
def execResetRelease (preset : Fin 8) (addr : Fin 4) (readings : List Nat) (s : State) : Res :=
  .next (if ¬ s.start.held ∨ s.phase = 8 then s
  else
    let start : StartState := { s.start with armed := true }
    let s := ({ s with start }).latchStraps preset addr
    if readings.any fun r => decide (880 ≤ r) then s.thermalHold
    else
      let start : StartState := { s.start with held := false, scanHold := false }
      ({ s with start }).modPower fun p => { p with trip := false })

/-- `THERMAL_HOLD_END`: every sensor has read below 100 °C for 1 s. -/
def execThermalHoldEnd (s : State) : Res :=
  .next (if s.phase ≠ 8 then s
  else
    let start : StartState := { s.start with held := false, scanHold := false }
    let s := ({ s with start }).modPower fun p => { p with trip := false }
    (s.setPhase 0).setBit R.mgtResetCause 3 true)

/-- `ROOT_LOCK`: REFCLK is present and the root PLL locks (R527). -/
def execRootLock (s : State) : Res :=
  .next (if s.start.held then s
    else ((s.setBit R.clkPllStatus 0 true).setBit R.clkPllStatus 1 false).setBit R.clkPllStatus 2 true)

/-! ### The phases (Table 19-4); `us`: microseconds from release -/

/-- Phase `k` ends and the next begins. -/
def State.endPhase (s : State) (k : Nat) (us : BitVec 32) : State :=
  (s.wr (R.mgtPhaseEnd k) (us.setWidth 64)).setPhase (k + 1)

/-- `PHASE_ROM`. -/
def execPhaseRom (us : BitVec 32) (s : State) : Res :=
  .next (if s.start.held ∨ s.phase ≠ 0 ∨ ¬ s.firmware then s else s.endPhase 0 us)

/-- The ledger is loaded (R457): what the copy in use holds, or a fresh one. -/
def State.loadLedger (s : State) : State :=
  let l := s.obs.ledger
  let kept : Ledger := { s.obs.saved with copyA := l.copyA, copyB := l.copyB, gen := l.gen, useB := l.useB }
  let s := { s with obs := { s.obs with ledger := kept } }
  let s := (s.setBit R.ledgStatus 0 l.useB).setBit R.ledgStatus 1 (l.gen == 0)
  let s := s.wr R.ledgGen (BitVec.ofNat 64 l.gen)
  if s.fld R.mgtResetCause 2 0 = 1 then s.wr R.pwrVmaxUsed (BitVec.ofNat 64 (kept.life.get 0 14)) else s

/-- The reset is counted in the ledger: power-on, cold or warm. -/
def State.countReset (s : State) : State :=
  let c := s.fld R.mgtResetCause 2 0
  s.modLedger fun l => { l with life := bump l.life (if c ≤ 1 then 1 else if c = 5 then 3 else 2) 1 }

/-- `PHASE_FIRMWARE`: the ledger loaded, the board description read and measured, TRUST set and locked (R465, R526). -/
def execPhaseFirmware (us : BitVec 32) (board : BoardDesc) (s : State) : Res :=
  .next (if s.phase ≠ 1 ∨ ¬ s.bit R.clkPllStatus 0 then s
  else if ¬ board.checksum then s.raise { code := 0xF005 }
  else
    let s := { s with start := { s.start with board } }
    let ports := (board.portMap.getD []).map (BitVec.ofNat 8 ·)
    let straps := natLE 2 (s.start.preset + 8 * s.start.mgtAddr)
    let s := (s.loadLedger.extend 1 (Config.measured 1 [board.bytes, ports, straps])).countReset
    let s := (s.setBit R.trustAccess 0 board.hostPriv).setBit R.trustAccess 1 board.fabricMgmt
    let s := s.putBytes (fun w => R.trustSysKey (w / 24) (w % 24)) 48 (fitBytes 192 board.sysKeys)
    let s := s.setFld R.trustSysKeyEn 1 0 (board.sysKeyEn % 4)
    let s := s.putBytes R.trustOprKey 12 (fitBytes 48 board.oprKey)
    let s := s.extend 3 (Config.measured 3 [natLE 4 (s.rd R.trustAccess).toNat, s.regBytes R.trustOprKey 12,
      (s.regBytes (R.trustSysKey 0) 24) ++ (s.regBytes (R.trustSysKey 1) 24), natLE 1 (s.rd R.trustSysKeyEn).toNat])
    (s.setBit (R.hdrLock 502) 0 true).endPhase 1 us)

/-- `PHASE_UNCORE`: the half-uncore domains are ON; `ok`: each half's wires trained, spares fitted (R529). -/
def execPhaseUncore (us : BitVec 32) (ok : Bool) (s : State) : Res :=
  .next (if s.phase ≠ 2 then s
  else
    let s := (s.domainUp 40).domainUp 41
    if ok then s.endPhase 2 us else s.raise { code := 0xF001 })

/-! ### Phase 3 (R530, R532) -/

/-- A bank that the march self-test declares failed goes to a good spare bank, with no rebuild. -/
def State.testBank (s : State) (t b : Nat) : State :=
  let s := s.modLedger fun l => { l with spares := bump l.spares (584 + t) 1 }
  match [0, 1].find? fun k => s.fld (R.smemSpareBank t k) 10 9 == 0 with
  | some k =>
    let s := s.wr (R.smemSpareBank t k) (BitVec.ofNat 64 (b + 1024))
    s.modLedger fun l => { l with spares := bump l.spares (592 + t) 1 }
  | none =>
    let s := { s with smem := { s.smem with failed := s.smem.failed ++ [(t, b)] } }
    s.raise { code := 0x300C, loc := t, detail := memDetail t b 0xFFFF 0xFF 0xFF 0xFFFF 0xFF [] }

/-- The self-test's verdict on one bank: the rows that fail, and its spare rows that pass. -/
def State.testRows (s : State) (t b : Nat) (rows : List Nat) (good : Nat) : State :=
  if 32 < rows.length ∨ good < rows.length then s.testBank t b
  else
    let key (r : Nat) : Nat := (512 * t + b) * 16384 + r
    let m := { s.smem with
      spareRows := s.smem.spareRows.set 64 (512 * t + b) (good - rows.length)
      rowMap := rows.zipIdx.foldl (fun (m : Tab Nat) r => m.set 0 (key r.1) (r.2 + 1)) s.smem.rowMap }
    { s with smem := m }

/-- Banks 288 and 289 are the spare banks: one that fails is never used. -/
def State.testFailing (s : State) (f : Nat × Nat × List Nat × Nat) : State :=
  let (t, b, rows, good) := f
  if 288 ≤ b then
    (if 32 < rows.length ∨ good < rows.length then s.setFld (R.smemSpareBank t (b - 288)) 10 9 3 else s)
  else s.testRows t b rows good

/-- `PHASE_MEMORY`: the tier domains are ON and tested; `failing`: tier, bank, failing rows and good spare rows of each
bank with any; `qm0`, `qm1`: the queue manager copies that pass.  A warm reset tests nothing. -/
def execPhaseMemory (us : BitVec 32) (failing : List (Fin 8 × Fin 290 × List (Fin 16384) × Fin 65)) (qm0 qm1 : Bool)
    (s : State) : Res :=
  .next (if s.phase ≠ 3 then s
  else
    let warm : Bool := s.fld R.mgtResetCause 2 0 == 5
    let kept := [0, 1, 2, 3, 4, 5, 6, 7].flatMap fun t => [R.smemSpareBank t 0, R.smemSpareBank t 1, R.smemSpareRowMin t]
    let t := (List.range 8).foldl (fun (st : State) t => st.domainUp (32 + t)) s
    if warm then (s.keepRegs t kept).endPhase 3 us
    else
      let fs := failing.map fun f => (f.1.val, f.2.1.val, (f.2.2.1.map (·.val)).eraseDups, f.2.2.2.val)
      let t := (fs.filter fun f => 288 ≤ f.2.1).foldl (fun (st : State) f => st.testFailing f) t
      let t := (fs.filter fun f => f.2.1 < 288).foldl (fun (st : State) f => st.testFailing f) t
      let t := (List.range 8).foldl (fun (st : State) k => st.showSpares k) t
      let t := if qm0 then t
        else if qm1 then ((t.setBit R.qmStatus 1 true).modLedger fun l => { l with spares := bump l.spares 664 1 }).raise
          { code := 0xF106 }
        else t.raise { code := 0xF002 }
      if t.phase = 10 then t else t.endPhase 3 us)

/-! ### Phase 4 (R531, R532) -/

/-- A slot fails its self-test: it is retired, or its pod goes out of service (R14, R16).  An unused spare that fails serves
no position and never will: SLOT_MAP stays (Table 1-2). -/
def State.slotFails (s : State) (slot : Nat) : State :=
  let p := slot / 5
  let k := R.podSlotMap p
  let out (s : State) : State :=
    let s := { s with recov := { s.recov with podsOut := if s.recov.podsOut.contains p then s.recov.podsOut else s.recov.podsOut ++ [p] } }
    (s.raise { code := 0xF104 }).advise 5
  let pos := (List.range 4).find? fun i => s.fld k (3 * i + 2) (3 * i) == slot % 5
  match s.bit k 15 || s.recov.badSpares.contains p, pos with
  | false, some i =>
    let sp := s.fld k 14 12
    let s := s.newSlot p i
    let s := ((s.setFld k (3 * i + 2) (3 * i) sp).setFld k 14 12 (slot % 5)).setBit k 15 true
    let v := (s.rd k).toNat % 65536
    let s := s.modLedger fun l => { l with spares := (bump l.spares p 1).set 0 (32 + p) v }
    (s.raise { code := 0xF103 }).advise 5
  | false, none =>
    let s := { s with recov := { s.recov with badSpares := s.recov.badSpares ++ [p] } }
    (s.modLedger fun l => { l with spares := bump l.spares p 1 }).raise { code := 0xF103 }
  | true, some _ => out s
  | true, none => s

/-- A failing logical column takes a free spare column, or the slot is retired (R101). -/
def State.columnFails (s : State) (core arr col : Nat) : State :=
  let k := R.coreArrColmap core arr
  let done (s : State) : State :=
    (s.modLedger fun l => { l with spares := bump l.spares (64 + 4 * core + arr) 1 }).raise { code := 0xF105, core }
  if s.fld k 6 0 = col ∨ s.fld k 14 8 = col then s
  else if s.fld k 6 0 = 0x7F then done (s.setFld k 6 0 col)
  else if s.fld k 14 8 = 0x7F then done (s.setFld k 14 8 col)
  else s.slotFails (s.slotOf core)

/-- Unit queues enabled by the firmware: every n below 684 with n mod 4 ≠ 3, with DEPTH_LOG2 4 and BASE 16·n, or as the
board description says. -/
def State.enableUnitQueues (s : State) : State :=
  let own := s.start.board.rings
  let s := own.foldl (fun (st : State) r =>
    if r.1 < 684 then st.wr (R.qselQring r.1) (BitVec.ofNat 64 (r.2.2 % 65536 + r.2.1 % 16 * 65536)) else st) s
  ((List.range 684).filter fun n => n % 4 != 3).foldl (fun (st : State) n =>
    let st := if own.any fun r => r.1 == n then st else st.wr (R.qselQring n) (BitVec.ofNat 64 (16 * n + 4 * 65536))
    st.queueOn n) s

/-- Phase 5 begins (R533 steps 1–4): the port division, STANDBY and MIN_WIDTH, LOCK, and the link-PHY groups that hold
an enabled port. -/
def State.dividePorts (s : State) : State :=
  let b := s.start.board
  let cfg (p : Nat) : Nat := (match b.portMap with | some l => l.getD p 0 % 64 | none => presetCfg s.start.preset p)
    + b.standby.getD p 0x1F % 32 * 64 + b.minWidth.getD p 1 % 8 * 2048
  let s := [42, 43, 44, 45].foldl (fun (st : State) d =>
    if (List.range 8).any fun i => cfg (8 * (d - 42) + i) % 2 == 1 then st.domainUp d else st) s
  (List.range 32).foldl (fun (st : State) p =>
    let st := st.wr (R.lnkPortCfg p) (BitVec.ofNat 64 (cfg p))
    let k := cfg p / 64 % 32
    let st := if k < 16 ∧ (List.range p).any fun q => cfg q / 64 % 32 == k then st.intEvent (448 + p) 3 else st
    if b.portLock then st.setBit (R.hdrLock (448 + p)) 0 true else st) s

/-- Slots of a pod's map that have been retired, and columns spared, as START_SUMMARY counts them. -/
def State.startSummary (s : State) (cols : Nat) : State :=
  let outs := ((s.recov.podsOut.filter (· < 32)).eraseDups).length
  let ret := ((List.range 32).filter fun p => s.bit (R.podSlotMap p) 15 || s.recov.badSpares.contains p).length
  let s := s.wr R.mgtStartSummary (BitVec.ofNat 64 (outs + ret * 64 + min cols 1023 * 16384))
  if outs ≠ 0 then s.setBit R.mgtStartStatus 4 true else s

/-- `PHASE_CORES`: the pods are ON and tested; `slots`: those (5·pod + slot) that fail; `cols`: core, array and
logical column that fail.  A warm reset keeps its maps and tests nothing. -/
def execPhaseCores (us : BitVec 32) (slots : List (Fin 160)) (cols : List (Fin 128 × Fin 4 × Fin 64)) (s : State) : Res :=
  .next (if s.phase ≠ 4 then s
  else
    let warm : Bool := s.fld R.mgtResetCause 2 0 == 5
    let maps := (List.range 128).flatMap fun c => (List.range 4).map (R.coreArrColmap c)
    let t := s.keepRegs ((List.range 32).foldl (fun (st : State) d => st.domainUp d) s) maps
    let t := if warm then t
      else
        let led := s.obs.ledger.spares
        let t := (List.range 32).foldl (fun (st : State) p =>
          let v := led.get 0 (32 + p)
          if v = 0 then st else st.wr (R.podSlotMap p) (BitVec.ofNat 64 v)) t
        let bad := slots.filter fun k => !(t.bit (R.podSlotMap (k.val / 5)) 15
          && t.fld (R.podSlotMap (k.val / 5)) 14 12 == k.val % 5)
        let unused (k : Nat) : Bool := !t.slotServes k
        let ks := (bad.map (·.val)).eraseDups
        let t := (ks.filter unused ++ ks.filter fun k => !unused k).foldl (fun (st : State) k => st.slotFails k) t
        cols.foldl (fun (st : State) c => st.columnFails c.1.val c.2.1.val c.2.2.val) t
    let t := (List.range 171).foldl (fun (st : State) u => if st.unitOut u then st else st.setUnit u 0 none) t
    let t := t.enableUnitQueues.startSummary (if warm then 0 else cols.length)
    let t := t.wr R.clkCclkMax (BitVec.ofNat 64 (min 4 t.start.board.cclkMax))
    let t := { t with start := { t.start with freed := true } }
    let t := ((t.demand 0 (t.fld R.clkCclkMax 2 0)).vmaxDemand).applyLimits
    (t.endPhase 4 us).dividePorts)

/-! ### Phase 5 (R533) -/

/-- An enabled port still trains. -/
def State.training (s : State) (p : Nat) : Bool :=
  s.bit (R.lnkPortCfg p) 0 && decide (1 ≤ s.portState p ∧ s.portState p ≤ 4)

/-- `PHASE_LINKS`: no enabled port is left in DETECT through CONFIG; the chip is READY. -/
def execPhaseLinks (us : BitVec 32) (s : State) : Res :=
  .next (if s.phase ≠ 5 ∨ (List.range 32).any s.training then s
  else
    let failed := ((List.range 32).filter fun p => s.bit (R.lnkPortCfg p) 0 && s.portState p != 5).length
    let s := s.setFld R.mgtStartSummary 29 24 failed
    let s := if failed ≠ 0 then s.setBit R.mgtStartStatus 4 true else s
    let s := (s.wr R.mgtStartTime (us.setWidth 64)).endPhase 5 us
    { s with start := { s.start with ready := true } })

end Sys2Proof.Machine
end

