-- ==== Sys2Proof/Machine/RegView.lean ====
section
/-! DEFINITION. The pages (R550–R553): which registers a page shows, and what each reads (R558, R562). -/

namespace Sys2Proof.Machine

/-! ### Pages (Tables 21-1 and 21-3) -/

/-- Block code of an assigned page; 0 where the page is unassigned. -/
def pageBlock (pg : Nat) : Nat :=
  if pg < 128 then 0x01 else if pg < 160 then 0x02 else if pg < 168 then 0x03 else if pg < 170 then 0x04
  else if pg = 170 then 0x05 else if 256 ≤ pg ∧ pg < 384 then 0x06 else if 384 ≤ pg ∧ pg < 395 then 0x07
  else if pg = 400 then 0x08 else if 408 ≤ pg ∧ pg < 412 then 0x09 else if pg = 416 ∨ pg = 417 then 0x0A
  else if 448 ≤ pg ∧ pg < 480 then 0x0B else if 480 ≤ pg ∧ pg < 488 then 0x0C
  else if 496 ≤ pg ∧ pg < 504 then 0x0D + (pg - 496) else 0

/-- First page of a block, and how many instances it has. -/
def blockPages (b : Nat) : Nat × Nat :=
  ([(0, 0), (0, 128), (128, 32), (160, 8), (168, 2), (170, 1), (256, 128), (384, 11), (400, 1), (408, 4), (416, 2),
    (448, 32), (480, 8)].getD b (496 + (b - 0x0D), 1))

/-- The registers with one home per selected object: the page that shows them (CTX_SEL, OBS CTX_SEL, TRUST CTX_SEL,
WD_SEL, QSEL, SLICE_SEL). -/
def homePage (home : Nat) : Nat :=
  if home < 0x1000 then home
  else if home < 0x1200 then 497 else if home < 0x1400 then 500 else if home < 0x1600 then 502
  else if home < 0x2000 then 497 else if home < 0x4000 then 400 else 502

/-- The homes of the registers that a page shows. -/
def State.homes (s : State) (pg : Nat) : List Nat :=
  match pageBlock pg with
  | 0x00 => []
  | 0x08 => [pg, 0x2000 + s.fld R.qmCtrl 11 0]
  | 0x0E => [pg, 0x1000 + s.fld R.ctxCtxSel 8 0]
      ++ (if s.fld R.ctxWdSel 7 0 ≤ 170 then [0x1600 + s.fld R.ctxWdSel 7 0] else [])
  | 0x11 => [pg, 0x1200 + s.fld R.obsCtxSel 8 0]
  | 0x13 => [pg, 0x1400 + s.fld R.trustCtxSel 8 0, 0x4000 + s.fld R.trustSliceSel 11 0]
  | _ => [pg]

/-- The block's own registers of a home. -/
def blockRows (home : Nat) : List RegRow :=
  if home < 0x1000 then
    match pageBlock home with
    | 0x01 => rowsUd ++ rowsCore
    | 0x02 => rowsUd ++ rowsPod
    | 0x03 => rowsUd
    | 0x04 => rowsUd ++ rowsHalf
    | 0x05 => rowsUd ++ rowsMgt
    | 0x06 => rowsSpad
    | 0x07 => if home < 392 then rowsSmem else if home = 392 then rowsSmemc else rowsPool
    | 0x08 => rowsQm
    | 0x09 => rowsStg
    | 0x0A => rowsCol
    | 0x0B => rowsLnk
    | 0x0C => rowsCart
    | 0x0D => rowsFab
    | 0x0E => rowsCtx
    | 0x0F => rowsPwr
    | 0x10 => rowsClk
    | 0x11 => rowsObs
    | 0x12 => rowsLedg
    | 0x13 => rowsTrust
    | 0x14 => rowsHost
    | _ => []
  else if home < 0x1200 then rowsCtxsel else if home < 0x1400 then rowsObssel else if home < 0x1600 then rowsTrustsel
  else if home < 0x2000 then rowsWdsel else if home < 0x4000 then rowsQsel else rowsSlicesel

/-- The bits of INT_STATUS that a page defines (R554). -/
def intMask (pg : Nat) : Nat :=
  match (blockRows pg).find? fun r => r.off == 0x20 with | some r => r.w1c | none => 0

/-- The header's registers of a page (Table 21-2). -/
def hdrRows (pg : Nat) : List RegRow :=
  rowsHdr.map fun r =>
    if r.off = 0x24 then { r with rw := intMask pg } else if r.off = 0x28 then { r with wo := intMask pg } else r

/-- A register at an offset: its home, the offset of its low word, its row, its indices, and whether the offset is that
of the high word. -/
structure RegHit where
  home : Nat
  off : Nat
  row : RegRow
  i : Nat
  j : Nat
  high : Bool
  deriving DecidableEq, Repr

def RegHit.pg (h : RegHit) : Nat := homePage h.home
def RegHit.key (h : RegHit) : Nat := regKey h.home h.off

/-- The indices of a row at an offset, where the row has a register there. -/
def RegRow.hit (r : RegRow) (off : Nat) : Option (Nat × Nat × Bool) :=
  if off < r.off then none
  else
    let d := off - r.off
    let i := if r.n1 = 1 then 0 else d / r.s1
    let e := if r.n1 = 1 then d else d % r.s1
    let j := if r.n2 = 1 then 0 else e / r.s2
    let x := if r.n2 = 1 then e else e % r.s2
    if i < r.n1 ∧ j < r.n2 ∧ (x = 0 ∨ (x = 4 ∧ r.wide = true)) then some (i, j, x == 4) else none

/-- The register of a home at an offset. -/
def hitAt (home off : Nat) : Option RegHit :=
  (blockRows home ++ if home < 0x1000 then hdrRows home else []).findSome? fun r =>
    (r.hit off).map fun (i, j, high) => { home, off := if high then off - 4 else off, row := r, i, j, high }

/-- The register at an offset of a page; none where the offset is reserved or the page unassigned. -/
def State.regAt (s : State) (pg off : Nat) : Option RegHit := (s.homes pg).findSome? fun home => hitAt home off

/-- The power domain that holds a page's registers (Table 21-1). -/
def State.pageDomain (s : State) (pg off : Nat) : Nat :=
  match pageBlock pg with
  | 0x01 => pg / 4
  | 0x02 => if 0x340 ≤ off ∧ off < 0x380 then pg - 128 else 40 + (pg - 128) / 16
  | 0x03 => 40 + (pg - 160) / 4
  | 0x04 => 40 + (pg - 168)
  | 0x06 => (pg - 256) / 4
  | 0x07 => if pg < 392 then 32 + (pg - 384) else 40
  | 0x08 => 40 + s.fld R.qmStatus 1 1
  | 0x09 => 40 + (pg - 408) / 2
  | 0x0A => 40 + (pg - 416)
  | 0x0B => 42 + (pg - 448) / 8
  | 0x0D => 40
  | 0x0E => 40
  | 0x11 => 40
  | 0x14 => 46
  | _ => 47

/-- The registers of a page at an offset are powered (R562). -/
def State.pageOn (s : State) (pg off : Nat) : Bool :=
  s.pageDomain pg off == 47 || s.bit R.pwrDomainState (s.pageDomain pg off)

/-! ### What a register shows where no register holds it -/

def bitsOf (n : Nat) (f : Nat → Bool) : Nat := (List.range n).foldl (fun a i => a + if f i then 2 ^ i else 0) 0

/-- ID, VERSION and CAP (Table 21-2). -/
def hdrView (pg off : Nat) : Nat :=
  let b := pageBlock pg
  if off = 0x00 then b + 256 * (pg - (blockPages b).1) + 0x40000
  else if off = 0x04 then 0xA10100
  else (blockPages b).2 + 4096 * ((List.range 32).filter fun i => (intMask pg).testBit i).length

/-- ARR_STATE (Table 3-10).  An array is ACTIVE from a cell operation until 64 cycles pass without one (R96), counted in the
job's cycles (log 115). -/
def State.arrState (s : State) (c : Nat) : Nat :=
  let x := s.core c
  let now := match s.unitOf c with | some u => (s.job u).clock | none => 0
  let a (i : Nat) : Arr := x.arrs.get {} i
  bitsOf 4 (fun i => 0 < (a i).lastOp && now + 1 - (a i).lastOp < 64) + 16 * bitsOf 4 (fun i => (a i).active.loaded) + 256 * bitsOf 4 (fun i => (a i).nextSet == 1)
    + 4096 * bitsOf 4 (fun i => !(a i).holds.isEmpty)

/-- PARK_STATUS (Table 4-10).  DRAINED becomes 1 in a parked unit and reads 0 in any other (R131, log 18). -/
def State.parkStatus (s : State) (c : Nat) : Nat :=
  let x := s.core c
  let u := s.unitOf c
  let parked : Bool := u.any fun u => s.unitState u == 2
  let reason := match u with | some u => topReason (s.job u).parkReqs | none => 0
  (if parked then 1 else 0) + 2 * reason
    + 16 * ((if x.mx.atPoint then 1 else 0) + (if x.ve.atPoint then 2 else 0) + (if x.ld.atPoint then 4 else 0)
      + if x.st.atPoint then 8 else 0)
    + if parked && x.drained then 256 else 0

/-- Word `w` of the descriptor that AG_SEL names (Table 5-7). -/
def State.agView (s : State) (c w : Nat) : Nat :=
  if (s.unitOf c).isSome then bits ((s.core c).descs.get 0 (s.fld (R.coreAgSel c) 4 0)) (64 * w + 63) (64 * w) else 0

/-- The entry of bank `b` that TBL_SEL names (Table 12-8). -/
def State.tblEntry (s : State) (b : Nat) : Nat :=
  let i := s.fld R.fabTblSel 11 0
  match s.fld R.fabTblSel 13 12 with
  | 2 => s.fab.permits.get 0 (4096 * b + i)
  | 3 => 0
  | t => if i < 1024 then s.fab.routes.get 0 (2048 * b + 1024 * t + i) else 0

/-- TBL_DATA as it reads: of the bank that TBL_SEL.BANK names; a write goes to the shadow bank's entry. -/
def State.tblView (s : State) : Nat := s.tblEntry (if s.bit R.fabTblSel 14 then s.activeBank else 1 - s.activeBank)
def State.shadowEntry (s : State) : Nat := s.tblEntry (1 - s.activeBank)

/-- FLOG_DATA: word `w` of the record that FLOG_SEL names (Table 14-15). -/
def State.flogView (s : State) (w : Nat) : Nat :=
  let q := s.fld R.mgtFlogSel 31 0
  let head := s.fld R.mgtFlogHead 31 0
  if q ≤ head ∧ head < q + 1024 then bits (s.flog.get 0 q) (32 * w + 31) (32 * w) else 0

/-- RO_DATA (Table 15-10). -/
def State.ringView (s : State) : Nat :=
  let r := s.fld R.pwrRoSel 7 0
  if r < 170 then
    let v := s.power.rings.get (0, 0) r
    (if s.ringOn r then v.1 % 65536 else 0) + 65536 * min 3 v.2
  else 0

/-- WIN_DATA: word `w` of the window of the copy in use (Table 16-9). -/
def State.winView (s : State) (w : Nat) : Nat :=
  let l := s.obs.ledger
  leNat (((if l.useB then l.copyB else l.copyA).drop (64 * s.fld R.ledgWinSel 9 0 + 4 * w)).take 4)

/-- The value of a register, 64 bits wide. -/
def State.regShows (s : State) (h : RegHit) : Word :=
  let raw := s.rd h.key
  let b := if h.home < 0x1000 then pageBlock h.home else 0
  let o := h.row.off
  let pg := h.home
  let n (v : Nat) : Word := BitVec.ofNat 64 v
  if h.home < 0x1000 ∧ o < 0x0C then n (hdrView pg o)
  else if 1 ≤ b ∧ b ≤ 5 ∧ o = 0x100 then n (unitWidth pg + 256 * unitLevel pg + 65536 * unitIndex pg)
  else if 1 ≤ b ∧ b ≤ 5 ∧ o = 0x110 then n pg
  else if b = 0x01 then
    if o = 0x300 then n (s.seqStatusView pg)
    else if o = 0x304 then n (s.core pg).pc
    else if o = 0x308 then n (s.core pg).queueLevel
    else if o = 0x30C then n (s.headWait pg)
    else if o = 0x610 then n (s.arrState pg)
    else if o = 0x700 then n (s.parkStatus pg)
    else if o = 0x940 then n (s.agView pg h.i)
    else raw
  else if b = 0x05 then
    if o = 0x440 then n (s.flogView h.i)
    else if o = 0x500 then n (bitsOf 32 fun j => s.pageRequest (32 * h.i + j))
    else raw
  else if b = 0x0D then
    if o = 0x118 then n s.epoch
    else if o = 0x204 then n s.tblView
    else if o = 0x300 then n (s.fld R.fabNbrSel 4 0 + if (s.fab.nbr.get {} (s.fld R.fabNbrSel 4 0)).valid then 32 else 0)
    else if o = 0x340 then n (bits (s.fab.nbr.get {} (s.fld R.fabNbrSel 4 0)).bytes (32 * h.i + 31) (32 * h.i))
    else raw
  else if b = 0x0F then
    if o = 0x120 then raw ||| n (2 ^ 47) else if o = 0x264 then n s.ringView else raw
  else if b = 0x12 then (if o = 0x140 then n (s.winView h.i) else raw)
  else if 0x2000 ≤ h.home ∧ h.home < 0x3000 ∧ o = 0x200 then setBits raw 4 1 (s.qClass (h.home - 0x2000))
  else raw

/-- The bits of a row that a read returns: all but WO and reserved ones (R11). -/
def RegRow.readMask (r : RegRow) : Nat := r.rw ||| r.ro ||| r.w1c ||| r.w1s ||| r.rwl

/-- What a read of a register returns, and zero while its domain is OFF (R558, R562). -/
def State.regValue (s : State) (h : RegHit) : Word :=
  if s.pageOn h.pg h.off ∨ h.off < 0x0C then s.regShows h &&& BitVec.ofNat 64 h.row.readMask else 0

end Sys2Proof.Machine
end

