-- ==== Sys2Proof/Machine/RegWrite.lean ====
section
/-! DEFINITION. What a write of each register does (R11, R558, R563): the plain effect of its access codes, and the
effects that the blocks' chapters give it. -/

namespace Sys2Proof.Machine

/-- The code of an agent in a record (Table 14-17); agents 0–3 are the sequencers, 4 the host, 5 the management
controller, 6 the management slice. -/
def State.agentCode (s : State) (ag : Nat) : Nat :=
  if ag = 5 then 0 else if ag = 4 then 1 else if ag = 6 then 2 else if (s.seqCtx ag).isSome then 4 else 3

/-- `x`, or the field [hi:lo] of `old` where the value is not allowed. -/
def keepUnless (ok : Bool) (x old : Word) (hi lo : Nat) : Word := if ok then x else setBits x hi lo (bits old hi lo)

/-- The register as it would read with the written bits `m` of `w`. -/
def State.merged (s : State) (h : RegHit) (w m : Word) : Word := (s.regShows h &&& ~~~m) ||| (w &&& m)

/-- The effect of the access codes alone: RW bits take the value (RWL bits while LOCK is 0), W1C bits clear, W1S bits
set. -/
def State.plain (s : State) (h : RegHit) (w m : Word) : State :=
  let n (v : Nat) : Word := BitVec.ofNat 64 v
  let rwl := if s.bit (R.hdrLock h.pg) 0 then 0 else h.row.rwl
  let rw := n (h.row.rw ||| rwl) &&& m
  let v := w &&& m
  s.wr h.key ((((s.rd h.key &&& ~~~rw) ||| (v &&& rw)) &&& ~~~(v &&& n h.row.w1c)) ||| (v &&& n h.row.w1s))

/-- An RWL register is open to writes. -/
def State.unlocked (s : State) (h : RegHit) : Bool := !s.bit (R.hdrLock h.pg) 0

/-- A write to a register of the header. -/
def State.hdrWrite (s : State) (h : RegHit) (w m : Word) : State :=
  let pg := h.home
  let v := w &&& m
  if h.row.off = 0x24 then (s.plain h w m).noteRequest pg (s.pageRequest pg)
  else if h.row.off = 0x28 then
    ((List.range 32).filter fun i => v.getLsbD i && (intMask pg).testBit i).foldl (fun (st : State) i => st.intEvent pg i) s
  else if h.row.off = 0x30 then
    (if v.getLsbD 16 then s.setFld (R.hdrErrLog0 pg) 17 16 0 else s)
  else s.plain h w m

def State.coreWrite (s : State) (ag : Nat) (h : RegHit) (w m : Word) : State :=
  let x := s.merged h w m
  if h.row.off = 0x320 then s.limitWrite (s.agentCode ag) h.home x
  else if h.row.off = 0x900 then s.agSelWrite (s.agentCode ag) h.home (x &&& 0x1F)
  else s.plain h w m

/-- POOL_CFG (R225, R235); a CONTEXT program leaves CTX as it is (Table 10-3). -/
def State.poolWrite (s : State) (ag : Nat) (h : RegHit) (w m : Word) : State :=
  let i := 64 * (h.home - 393) + h.i
  let x := s.merged h w m
  let old := s.rd (R.poolPoolCfg i)
  if h.row.off = 0x100 then
    if s.poolEn i then (if bits x 0 0 = 0 then s.poolOff i else s)
    else
      let v := setBits (x &&& 0xFFF7FFF) 0 0 0
      let v := keepUnless (decide (12 ≤ bits x 5 1) && decide (bits x 5 1 ≤ 25)) v old 5 1
      let v := keepUnless (decide (4 ≤ ag) || s.seqSystem ag) v old 14 6
      let s := s.wr (R.poolPoolCfg i) v
      if bits x 0 0 = 1 then s.poolOn i else s
  else if s.poolEn i then s
  else if h.row.off = 0x104 then
    (if 1 ≤ bits x 12 0 ∧ bits x 12 0 ≤ 4096 then s.setFld (R.poolPoolSlots i) 12 0 (bits x 12 0) else s)
  else s.plain h w m

def State.smemWrite (s : State) (ag : Nat) (h : RegHit) (w m : Word) : State :=
  let x := s.merged h w m
  if h.home < 392 then s.plain h w m
  else if h.home = 392 then
    if h.row.off = 0x100 then s.plain h (if bits x 15 8 = 0 then setBits w 15 8 1 else w) m
    else if h.row.off = 0x800 then s.granuleWrite h.i x
    else s.plain h w m
  else if 0x100 ≤ h.row.off then s.poolWrite ag h w m else s.plain h w m

/-- The fields `mask` of an enabled entry of the queue manager stay, and a write of other values to them is an error (R273's
closing paragraph). -/
def State.heldFields (s : State) (k : Nat) (x : Word) (mask : Nat) : State :=
  if (x ^^^ s.rd k) &&& BitVec.ofNat 64 mask = 0 then s else s.setBit R.qmStatus 0 true

/-- The QM page: CTRL, shelf sets, virtual stage maps and assemblers. -/
def State.qmWrite (s : State) (h : RegHit) (w m : Word) : State :=
  let x := s.merged h w m
  let off := h.row.off
  if off = 0x10 then
    let s := s.plain h w m
    let q := s.fld R.qmCtrl 11 0
    if (w &&& m).getLsbD 12 ∧ s.qEn q then s.flushQueue q else s
  else if off = 0x400 then
    let k := R.qmShelfCfg h.i
    if s.bit k 0 then
      let s := s.heldFields k x 0x1FFFE
      if bits x 0 0 = 1 then s else (s.setBit k 0 false).freeShelves h.i
    else
      let v := keepUnless (decide (1 ≤ bits x 7 1) && decide (bits x 7 1 ≤ 64)) (x &&& 0x1FFFE) (s.rd k) 7 1
      let s := s.wr k v
      if bits x 0 0 = 1 then s.shelfSetOn h.i else s
  else if off = 0x404 ∨ off = 0x408 then
    (if s.bit (R.qmShelfCfg h.i) 0 then s.setBit R.qmStatus 0 true else s.plain h w m)
  else if off = 0x600 then
    (if s.bit h.key 53 then (s.heldFields h.key x (2 ^ 53 - 1)).setBit h.key 53 (bits x 53 53 == 1) else s.plain h w m)
  else if off = 0x800 then
    let k := R.qmAsmCfg h.i
    if s.bit k 0 then
      let s := s.heldFields k x 0x7FFFFFE
      if bits x 0 0 = 1 then s else s.asmOff h.i
    else
      let s := s.wr k (x &&& 0x7FFFFFE)
      if bits x 0 0 = 1 then s.asmOn h.i else s
  else if off = 0x804 ∨ off = 0x808 then
    (if s.bit (R.qmAsmCfg h.i) 0 then s.setBit R.qmStatus 0 true else s.plain h w m)
  else s.plain h w m

/-- The registers of the queue that QSEL names (R238). -/
def State.qselWrite (s : State) (h : RegHit) (w m : Word) : State :=
  let q := h.home - 0x2000
  let x := s.merged h w m
  if h.row.off = 0x200 then
    if s.qEn q then
      let s := s.heldFields h.key x 0x7FFE
      if bits x 0 0 = 0 then s.queueOff q else s
    else
      let s := s.wr (R.qselQcfg q) (setBits (x &&& 0x7FFF) 0 0 0)
      if bits x 0 0 = 1 then (s.queueOn q).drainHeld q 171 else s
  else if (h.row.off = 0x204 ∨ h.row.off = 0x20C ∨ h.row.off = 0x210) ∧ s.qEn q then s.setBit R.qmStatus 0 true
  else if h.row.off = 0x210 then s.plain h (keepUnless (decide (bits x 6 0 ≤ 64)) w (s.rd h.key) 6 0) m
  else s.plain h w m

def State.stgWrite (s : State) (h : RegHit) (w m : Word) : State :=
  let q := h.home - 408
  let x := s.merged h w m
  if h.row.off = 0x100 then (if bits x 0 0 = 1 then s.seqRun q else if s.bit (R.stgSeqCtrl q) 0 then s.seqStop q else s)
  else s.plain h w m

/-- PORT_CFG (R306, R312): only while the port is DISABLED; a spare lane named twice is an error on the higher port. -/
def State.portCfgWrite (s : State) (h : RegHit) (w m : Word) : State :=
  let p := h.home - 448
  if s.portState p ≠ 0 then s.intEvent h.home 3
  else if ¬ s.unlocked h then s
  else
    let s := s.plain h w m
    let k := s.fld (R.lnkPortCfg p) 10 6
    if 16 ≤ k then s
    else
      let twins := (List.range 32).filter fun q => q != p && s.fld (R.lnkPortCfg q) 10 6 == k
      let s := if twins.any (· < p) then s.intEvent h.home 3 else s
      (twins.filter fun q => p < q).foldl (fun (st : State) q => st.intEvent (448 + q) 3) s

def State.lnkWrite (s : State) (h : RegHit) (w m : Word) : State :=
  let p := h.home - 448
  let v := w &&& m
  if h.row.off = 0x10 then
    let s := if v.getLsbD 0 ∧ s.portState p = 5 then s.startRetrain p true else s
    if v.getLsbD 1 then s.portRestart p else s
  else if h.row.off = 0x100 then s.portCfgWrite h w m
  else s.plain h w m

/-- The FAB page (Table 12-8, R342, R343, R352, R535). -/
def State.fabWrite (s : State) (h : RegHit) (w m : Word) : State :=
  let x := s.merged h w m
  let v := w &&& m
  let o := h.row.off
  if o = 0x10 then
    let s := s.setBit R.fabCtrl 1 (bits x 1 1 == 1)
    let s := if bits x 0 0 = 1 then s.setRollcallDone else s
    let s := if v.getLsbD 2 then s.armSwap else s
    if v.getLsbD 3 then s.startCopy else s
  else if o = 0x100 then s.setChipId (bits x 19 0)
  else if o = 0x104 then
    (if s.unlocked h ∧ 20 ≤ bits x 5 0 ∧ bits x 5 0 ≤ 34 then s.setFld R.fabEpochCfg 5 0 (bits x 5 0) else s)
  else if o = 0x108 then (if s.bit R.fabCtrl 2 then s else s.plain h w m)
  else if o = 0x120 then
    let s := s.plain h w m
    if s.bit R.fabTimeCfg 0 then s.setBit R.fabStatus 2 true else s
  else if o = 0x128 then (if 100 ≤ bits x 15 0 ∧ bits x 15 0 ≤ 10000 then s.plain h w m else s)
  else if o = 0x204 then s.tblWrite ((BitVec.ofNat 64 s.shadowEntry &&& ~~~m) ||| v)
  else s.plain h w m

/-- Configuration of a context changes only while it is FREE or HALTED. -/
def State.ctxIdle (s : State) (x : Nat) : Bool := s.ctxState x == 0 || s.ctxState x == 1

def State.mgtWrite (s : State) (h : RegHit) (w m : Word) : State :=
  let v := w &&& m
  if h.row.off = 0x408 then
    (if bits v 1 0 = 1 then s.rejoin else if bits v 1 0 = 2 then s.reclaimChip else s)
  else if h.row.off = 0x308 then
    if bits v 31 16 ≠ 0x5253 then s
    else if bits v 1 0 = 1 then
      ({ s with freeCtr := s.freeCtr + 1 }).warmReset s.start.preset s.start.mgtAddr (Config.flashOk s.freeCtr)
    else if bits v 1 0 = 2 then s.coldReset 2
    else s
  else s.plain h w m

/-- The power and clock pages (Tables 15-9 and 15-10, R422). -/
def State.pwrWrite (s : State) (ag : Nat) (h : RegHit) (w m : Word) : State :=
  let x := s.merged h w m
  let o := h.row.off
  if o = 0x100 then (if 400 ≤ bits x 10 0 ∧ bits x 10 0 ≤ 1600 then s.plain h w m else s.intEvent 498 7)
  else if o = 0x120 then (if ag = 5 then s.domainEn x.toNat else s)
  else if o = 0x140 then (if 85 ≤ bits x 6 0 ∧ bits x 6 0 ≤ 105 then s.plain h w m else s)
  else s.plain h w m

def State.clkWrite (s : State) (h : RegHit) (w m : Word) : State :=
  if h.row.off = 0x104 ∧ 5 ≤ bits (s.merged h w m) 2 0 then s else s.plain h w m

/-- A register of base and EN: changes only while EN is 0, but for the write that clears it (R459). -/
def State.bufferWrite (s : State) (h : RegHit) (w m : Word) (enable : State → State) : State :=
  let x := s.merged h w m
  if s.bit h.key 0 then (if bits x 0 0 = 0 then s.setBit h.key 0 false else s.obsErr)
  else
    let s := s.plain h (setBits w 0 0 0) m
    if bits x 0 0 = 1 then enable s else s

def State.obsWrite (s : State) (h : RegHit) (w m : Word) : State :=
  let x := s.merged h w m
  let v := w &&& m
  let o := h.row.off
  if o = 0x10 then
    let s := if s.bit R.obsCtrl 0 ∧ bits x 1 1 ≠ s.fld R.obsCtrl 1 1 then s.obsErr else
      if s.bit R.obsCtrl 0 then s else s.setFld R.obsCtrl 1 1 (bits x 1 1)
    let s := (s.setFld R.obsCtrl 0 0 (bits x 0 0)).setFld R.obsCtrl 3 3 (bits x 3 3)
    let s := if v.getLsbD 2 then s.freezeArm else s
    if v.getLsbD 4 then s.unfreeze else s
  else if o = 0x110 then (if 100 ≤ bits x 15 0 then s.plain h w m else s)
  else if o = 0x118 then s.bufferWrite h w m State.sbufEnable
  else if o = 0x120 then (if s.bit R.obsSbufBase 0 then s.obsErr else s.plain h w m)
  else if o = 0x40C then
    if s.bit R.obsDumpCfg 10 then (if bits x 10 10 = 0 then s.setBit R.obsDumpCfg 10 false else s.obsErr)
    else
      let s := s.plain h (setBits w 10 10 0) m
      if bits x 10 10 = 1 then s.dumpArm else s
  else if o = 0x400 ∨ o = 0x408 ∨ o = 0x410 ∨ o = 0x418 then (if s.bit R.obsDumpCfg 10 then s.obsErr else s.plain h w m)
  else if o = 0x500 then (if bits v 7 0 ≤ 170 then s.takeSnapshot (bits v 7 0) else s)
  else s.plain h w m

/-- The registers of the context that OBS.CTX_SEL names. -/
def State.obsselWrite (s : State) (h : RegHit) (w m : Word) : State :=
  let c := h.home - 0x1200
  if h.row.off = 0x308 then s.profileWrite c (s.merged h w m)
  else if h.row.off = 0x310 then s.bufferWrite h w m fun s => s.cbufEnable c
  else if h.row.off = 0x318 then (if s.bit (R.obsselCBufBase c) 0 then s.obsErr else s.plain h w m)
  else s.plain h w m

def State.trustWrite (s : State) (h : RegHit) (w m : Word) : State :=
  let v := w &&& m
  if h.row.off = 0x140 then (if v.getLsbD 0 then s.relock else s)
  else if h.row.off = 0x144 then s.tokenWord (bits v 31 0)
  else s.plain h w m

/-- The HOST page (R499, R517). -/
def State.hostWrite (s : State) (h : RegHit) (w m : Word) : State :=
  let o := h.row.off
  if o = 0x100 then (if s.hostCxl then s else s.doorbell (bits (w &&& m) 5 0))
  else if o = 0x144 then (if (w &&& m).getLsbD 0 then s.faultClear else s)
  else if o = 0x400 then s.ringCfgWrite h.i (s.merged h w m)
  else if o = 0x408 ∨ o = 0x410 then (if s.ringEn h.i then s.intEvent 503 2 else s.plain h w m)
  else s.plain h w m

/-- A write by agent `ag` of the bits `m` of a register (R558, R562): nothing while its domain is OFF. -/
def State.regWrite (s : State) (ag : Nat) (h : RegHit) (w m : Word) : State :=
  if ¬ s.pageOn h.pg h.off then s
  else if 0x1000 ≤ h.home then
    if h.home < 0x1200 then
      (if s.ctxIdle (h.home - 0x1000) then s.plain h w m else if h.row.rw ≠ 0 then s.ctxErr else s)
    else if h.home < 0x1400 then s.obsselWrite h w m
    else if h.home < 0x1600 then
      (if s.ctxIdle (h.home - 0x1400) then s.plain h w m
       else if h.row.rw ≠ 0 then s.privDenied (s.agentCode ag) 502 else s)
    else if h.home < 0x2000 then s
    else if h.home < 0x4000 then s.qselWrite h w m
    else s
  else if h.row.off = 0x24 ∨ h.row.off = 0x28 ∨ h.row.off = 0x30 then s.hdrWrite h w m
  else match pageBlock h.home with
    | 0x01 => s.coreWrite ag h w m
    | 0x04 => if (h.row.off = 0x400 ∨ h.row.off = 0x408) ∧ s.bit (R.halfCkptStatus (h.home - 168)) 0 then s else s.plain h w m
    | 0x05 => s.mgtWrite h w m
    | 0x06 => if h.row.off = 0x1C0 then s.dbgRead (s.agentCode ag) (h.home - 256) (s.merged h w m &&& 0x7FFF8).toNat
      else s.plain h w m
    | 0x07 => s.smemWrite ag h w m
    | 0x08 => s.qmWrite h w m
    | 0x09 => s.stgWrite h w m
    | 0x0A => if h.row.off = 0x100 ∧ s.bit (R.colColStatus (h.home - 416)) 0 then s.cfgErr else s.plain h w m
    | 0x0B => s.lnkWrite h w m
    | 0x0D => s.fabWrite h w m
    | 0x0E => if h.row.off = 0x104 then s.ctxCommand (bits (w &&& m) 2 0) (s.fld R.ctxCtxSel 8 0) else s.plain h w m
    | 0x0F => s.pwrWrite ag h w m
    | 0x10 => s.clkWrite h w m
    | 0x11 => s.obsWrite h w m
    | 0x12 => if h.row.off = 0x10 then
        (if (w &&& m).getLsbD 0 then ({ s with freeCtr := s.freeCtr + 1 }).ledgerWrite (Config.flashOk s.freeCtr) else s)
      else s.plain h w m
    | 0x13 => s.trustWrite h w m
    | 0x14 => s.hostWrite h w m
    | _ => s.plain h w m

end Sys2Proof.Machine
end

