-- ==== Sys2Proof/Machine/Access.lean ====
section
/-! DEFINITION. Accesses to the pages and to stage memory from outside: who reaches what (Table 17-2, R462, R463),
widths and latches (R559–R561), and the routes that carry an access (R297, R341, R491, R507). -/

namespace Sys2Proof.Machine

/-! ### Who reaches what -/

/-- The host privileged path's column of Table 17-2; MC marks the fields of Table 17-9. -/
def hostMay (pg off : Nat) (write : Bool) : Bool :=
  match pageBlock pg with
  | 0x07 => !(write && pg == 392 && decide (0x800 ≤ off))
  | 0x12 => !write
  | 0x13 => !(write && (off == 0x104 || (decide (0x580 ≤ off) && decide (off < 0x644)) || (decide (0x650 ≤ off) && decide (off < 0x680))))
  | _ => true

/-- The management slice's column of Table 17-2. -/
def sliceMay (pg : Nat) : Bool := !([0x06, 0x0E, 0x11, 0x12, 0x13, 0x14].contains (pageBlock pg)) && pg != 392

/-- Reach of a sequencer's program (Table 10-3). -/
def State.seqMay (s : State) (q pg off : Nat) : Bool :=
  match s.seqCtx q with
  | none => !([0x05, 0x12, 0x13].contains (pageBlock pg)) && !(pg == 392 && decide (0x800 ≤ off))
  | some x =>
    pg == 408 + q
      || ((pg == 393 || pg == 394) && decide (0x100 ≤ off) && decide (off < 0x900) && decide ((off - 0x100) % 32 < 16)
        && s.poolCtx (64 * (pg - 393) + (off - 0x100) / 32) == x)
      || (pg == 400 && decide (0x600 + 0x80 * q ≤ off) && decide (off < 0x680 + 0x80 * q))

/-- Whether an agent may access the word at an offset of a page. -/
def State.mayWord (s : State) (ag pg off : Nat) (write : Bool) : Bool :=
  if ag ≤ 3 then s.seqMay ag pg off
  else if ag = 4 then
    if s.bit R.trustAccess 0 then hostMay pg off write
    else !write && pg == 503 && (off == 0x14 || (decide (0x140 ≤ off) && decide (off < 0x150)))
  else if ag = 6 then s.bit R.trustAccess 1 && sliceMay pg
  else true

/-- The same of an access of 4 or 8 bytes. -/
def State.mayAccess (s : State) (ag pg off size : Nat) (write : Bool) : Bool :=
  s.mayWord ag pg off write && (size == 4 || s.mayWord ag pg (off + 4) write)

/-- A register access has a size and alignment that R559 allows. -/
def regAligned (off size : Nat) : Bool := (size == 4 || size == 8) && off % size == 0

/-! ### Widths and latches (R559, R560) -/

def State.modLatch (s : State) (ag : Nat) (f : Latch → Latch) : State :=
  { s with latches := s.latches.set {} ag (f (s.latches.get {} ag)) }

/-- A held low word is applied alone. -/
def State.applyHeld (s : State) (ag : Nat) : State :=
  match (s.latches.get {} ag).held with
  | none => s
  | some (k, lo) =>
    let s := s.modLatch ag fun l => { l with held := none }
    match hitAt (k / 4096) (k % 4096) with
    | some h => s.regWrite ag h (BitVec.ofNat 64 lo) 0xFFFFFFFF
    | none => s

/-- A read of a register; one of word 0 of DBG_NONCE draws a new nonce (R479). -/
def State.regLoad (s : State) (h : RegHit) : State × Nat :=
  let s := if h.home = 502 ∧ h.row.off = 0x120 ∧ h.i = 0 then s.drawNonce else s
  (s, (s.regValue h).toNat)

/-- A 4-byte read. -/
def State.read32 (s : State) (ag pg off : Nat) : State × Nat :=
  let l := s.latches.get {} ag
  let s := (s.applyHeld ag).modLatch ag fun l => { l with read := none }
  match s.regAt pg off with
  | none => (s, 0)
  | some h =>
    let (s, v) := s.regLoad h
    if h.high then
      match l.read with
      | some (k, hi) => (s, if k = h.key then hi else v / 2 ^ 32)
      | none => (s, v / 2 ^ 32)
    else if h.row.wide then (s.modLatch ag fun l => { l with read := some (h.key, v / 2 ^ 32) }, v % 2 ^ 32)
    else (s, v % 2 ^ 32)

/-- A 4-byte write. -/
def State.write32 (s : State) (ag pg off v : Nat) : State :=
  let l := s.latches.get {} ag
  let done (s : State) : State := s.modLatch ag fun l => { l with read := none }
  match s.regAt pg off with
  | none => done (s.applyHeld ag)
  | some h =>
    if h.high then
      match l.held with
      | some (k, lo) =>
        if k = h.key then
          (done (s.modLatch ag fun l => { l with held := none })).regWrite ag h (BitVec.ofNat 64 (lo + v * 2 ^ 32)) (-1#64)
        else (done (s.applyHeld ag)).regWrite ag h (BitVec.ofNat 64 (v * 2 ^ 32)) 0xFFFFFFFF00000000
      | none => (done s).regWrite ag h (BitVec.ofNat 64 (v * 2 ^ 32)) 0xFFFFFFFF00000000
    else if h.row.wide then (done (s.applyHeld ag)).modLatch ag fun l => { l with held := some (h.key, v) }
    else (done (s.applyHeld ag)).regWrite ag h (BitVec.ofNat 64 v) 0xFFFFFFFF

/-- Two 4-byte reads. -/
def State.readTwo (s : State) (ag pg off : Nat) : State × Nat :=
  let p := s.read32 ag pg off
  let q := p.1.read32 ag pg (off + 4)
  (q.1, p.2 + q.2 * 2 ^ 32)

/-- A read of 4 or 8 bytes, as the registers answer it. -/
def State.readRaw (s : State) (ag pg off size : Nat) : State × Nat :=
  if size = 8 then
    match s.regAt pg off with
    | some h =>
      if h.row.wide ∧ ¬ h.high then ((s.applyHeld ag).modLatch ag fun l => { l with read := none }).regLoad h
      else s.readTwo ag pg off
    | none => s.readTwo ag pg off
  else s.read32 ag pg off

/-- The value that an agent read. -/
def noteRead (ag : Nat) (p : State × Nat) : State × Nat := (p.1.modLatch ag fun l => { l with value := p.2 }, p.2)

/-- A read of 4 or 8 bytes. -/
def State.readReg (s : State) (ag pg off size : Nat) : State × Nat := noteRead ag (s.readRaw ag pg off size)

/-- A write of 4 or 8 bytes. -/
def State.writeReg (s : State) (ag pg off size v : Nat) : State :=
  if size = 8 then
    match s.regAt pg off with
    | some h =>
      if h.row.wide ∧ ¬ h.high then
        ((s.applyHeld ag).modLatch ag fun l => { l with read := none }).regWrite ag h (BitVec.ofNat 64 v) (-1#64)
      else (s.write32 ag pg off (v % 2 ^ 32)).write32 ag pg (off + 4) (v / 2 ^ 32 % 2 ^ 32)
    | none => (s.write32 ag pg off (v % 2 ^ 32)).write32 ag pg (off + 4) (v / 2 ^ 32 % 2 ^ 32)
  else s.write32 ag pg off (v % 2 ^ 32)

/-- An access that is not permitted: of a stage program STAGE_PROGRAM with reason MMIO (R297), of another agent R463. -/
def State.refuse (s : State) (ag pg : Nat) : State :=
  if ag ≤ 3 then s.stageFault ag 8 else s.privDenied (s.agentCode ag) pg

/-- An aligned access by an agent, permitted or refused; a refused read gives none. -/
def State.tryRead (s : State) (ag pg off size : Nat) : State × Option Nat :=
  if s.mayAccess ag pg off size false then
    let (s, v) := s.readReg ag pg off size
    (s, some v)
  else (s.refuse ag pg, none)

def State.tryWrite (s : State) (ag pg off size v : Nat) : State × Bool :=
  if s.mayAccess ag pg off size true then (s.writeReg ag pg off size v, true) else (s.refuse ag pg, false)

/-! ### Register commands of any agent -/

/-- `INT_FORCE` (R556). -/
def execIntForce (agent : Fin 7) (page : Fin 4096) (value : BitVec 32) (s : State) : Res :=
  .next (s.tryWrite agent page 0x28 4 value.toNat).1

/-- `INT_ENABLE` (R555). -/
def execIntEnable (agent : Fin 7) (page : Fin 4096) (value : BitVec 32) (s : State) : Res :=
  .next (s.tryWrite agent page 0x24 4 value.toNat).1

/-- `LOCK` (R563). -/
def execLock (agent : Fin 7) (page : Fin 4096) (s : State) : Res := .next (s.tryWrite agent page 0x40 4 1).1

/-- `READ_LATCH`: a 4-byte read, at word `word` of the page (R560). -/
def execReadLatch (agent : Fin 7) (page : Fin 4096) (word : Fin 1024) (s : State) : Res :=
  .next (s.tryRead agent page (4 * word) 4).1

/-- `REGISTER_WRITE`: 4 bytes, or 8 where `wide` (R559, R561). -/
def execRegisterWrite (agent : Fin 7) (page : Fin 4096) (word : Fin 1024) (wide : Bool) (value : BitVec 64) (s : State) : Res :=
  .next (
    let size := if wide then 8 else 4
    if regAligned (4 * word) size then (s.tryWrite agent page (4 * word) size value.toNat).1 else s)

/-! ### Stage Code (R297) -/

/-- First local address of the block pages (R30). -/
def mmioBase : Nat := 0x3800000000

/-- Page and offset of a local MMIO address. -/
def mmioAt (a : Nat) : Option (Nat × Nat) :=
  if mmioBase ≤ a ∧ a < mmioBase + 2 ^ 24 then some ((a - mmioBase) / 4096, (a - mmioBase) % 4096) else none

def execMmr (q : Fin 4) (s : State) : Res :=
  .next (s.seqDo q 0x30 fun s w =>
    match mmioAt (s.g q (swB w)).toNat with
    | some (pg, off) =>
      if off % 4 ≠ 0 then s.stageFault q 8
      else match s.tryRead q pg off 4 with
        | (s, some v) => s.seqPut q w (BitVec.ofNat 64 v)
        | (s, none) => s
    | none => s.stageFault q 8)

def execMmw (q : Fin 4) (s : State) : Res :=
  .next (s.seqDo q 0x31 fun s w =>
    match mmioAt (s.g q (swB w)).toNat with
    | some (pg, off) =>
      if off % 4 ≠ 0 then s.stageFault q 8
      else match s.tryWrite q pg off 4 ((s.g q (swC w)).toNat % 2 ^ 32) with
        | (s, true) => s.seqNext q
        | (s, false) => s
    | none => s.stageFault q 8)

/-! ### The fabric (R341) -/

/-- The access is to a page closed to the fabric, or the slice is not the management slice's (Table 17-2). -/
def State.unmapped (s : State) : State := s.count R.fabUnmappedCnt 1

/-- `WRITE`: an arriving WRITE is stored, performed or discarded, and answered. -/
def execWrite (s : State) : Res :=
  .next (match s.takeIn ptWrite with
  | none => s
  | some (port, p, s) =>
    let a := p.wOff
    let n := p.wLen
    if a + n ≤ smSize then
      let (s, ok) := s.landWrite port p
      s.wackOf p (!ok)
    else match mmioAt a with
      | some (pg, off) =>
        if ¬ sliceMay pg then (s.privDenied 2 pg).wackOf p true
        else if regAligned off n ∧ p.slice = s.fld R.fabMgmtSlice 11 0 then
          let (s, ok) := s.tryWrite 6 pg off n (leNat p.wBytes)
          s.wackOf p (!ok)
        else s.unmapped.wackOf p true
      | none => s.unmapped.wackOf p true)

/-- `RREQ`: status 0 OK, 1 UNMAPPED, 2 DENIED. -/
def execRreq (s : State) : Res :=
  .next (match s.takeIn ptRreq with
  | none => s
  | some (_, p, s) =>
    let a := p.b 37 0
    let size := if p.b 38 38 = 1 then 8 else 4
    let answer (s : State) (st v : Nat) : State := (s.sendPkt (mkRcpl p.src s.chip p.slice (p.b 61 46) st v) none).1
    if a < smSize then answer s 2 0
    else match mmioAt a with
      | some (pg, off) =>
        if ¬ sliceMay pg then answer (s.privDenied 2 pg) 2 0
        else if p.slice ≠ s.fld R.fabMgmtSlice 11 0 then answer s.unmapped 2 0
        else if ¬ regAligned off size then answer s 2 0
        else match s.tryRead 6 pg off size with
          | (s, some v) => answer s 0 v
          | (s, none) => answer s 2 0
      | none => answer s.unmapped 1 0)

/-! ### Management messages (R507) -/

/-- A register message: with the rights of the host's column of Table 17-2, performed by the management controller. -/
def State.regMessage (s : State) (t : Nat) (addr : BitVec 64) (write : Bool) (f : State → Nat → Nat → State) : State :=
  s.mgmt t fun s =>
    match mmioAt addr.toNat with
    | some (pg, off) =>
      if off % 4 ≠ 0 then s.respond t 7 []
      else if ¬ hostMay pg off write then (s.privDenied 0 pg).respond t 4 []
      else f s pg off
    | none => s.respond t 7 []

/-- `REG_READ`. -/
def execRegRead (transport : Fin 2) (addr : BitVec 64) (s : State) : Res :=
  .next (s.regMessage transport addr false fun s pg off =>
    let (s, v) := s.readReg 5 pg off 4
    s.respond transport 0 (natLE 4 v))

/-- `REG_WRITE`. -/
def execRegWrite (transport : Fin 2) (addr : BitVec 64) (value : BitVec 32) (s : State) : Res :=
  .next (s.regMessage transport addr true fun s pg off =>
    (if pg = 498 ∧ 0x120 ≤ off ∧ off < 0x128 then s else s.writeReg 5 pg off 4 value.toNat).respond transport 0 [])

/-! ### The host port (R491, R505, R528) -/

/-- A read completes: status 0 SC, 1 UR; EP; its bytes. -/
def State.hostAnswer (s : State) (st : Nat) (ep : Bool) (bs : List Byte) : State :=
  s.modHost fun h => { h with cpl := some (st, ep, bs) }

/-- The access counts as unsupported; a read completes with UR. -/
def State.hostUr (s : State) (write : Bool) : State :=
  let s := s.count R.hostUrCnt 1
  if write then s else s.hostAnswer 1 false []

/-- Memory requests are answered UR until phase 1 ends, and in RECOVERY. -/
def State.hostShut (s : State) : Bool := decide (s.phase ≤ 1) || s.phase == 8 || s.phase == 9

def State.devFatal (s : State) : Bool := s.bit R.hostStatus 11

/-- `BAR0_ACCESS`. -/
def execBar0Access (write : Bool) (offset : BitVec 24) (size : Fin 65) (value : BitVec 64) (s : State) : Res :=
  .next (
    let n := size.val
    let pg := offset.toNat / 4096
    let off := offset.toNat % 4096
    if ¬ s.hostUp then s
    else
      let s := s.globalEvent 49 (if write then 1 else 2) n
      if s.hostShut then (if write then s else s.hostAnswer 1 false [])
      else if ¬ regAligned off n then
        (if s.bit R.trustAccess 0 then s.hostUr write
         else if write then s.privDenied 1 pg else (s.privDenied 1 pg).hostAnswer 0 false (natLE n 0))
      else if s.devFatal ∧ ¬ [0x05, 0x12, 0x13, 0x14].contains (pageBlock pg) then
        (if write then s else s.hostAnswer 0 false (natLE n 0))
      else if write then (s.tryWrite 4 pg off n value.toNat).1
      else match s.tryRead 4 pg off n with
        | (s, some v) => s.hostAnswer 0 false (natLE n v)
        | (s, none) => s.hostAnswer 0 false (natLE n 0))

/-- Bytes that the host path moves count for the owners of their granules (R491, Table 13-5). -/
def State.hostAccount (s : State) (a n : Nat) : State :=
  (granulesOf a n).foldl (fun (st : State) g =>
    let k := min (a + n) (g * 2 ^ 25 + 2 ^ 25) - max a (g * 2 ^ 25)
    (st.account (st.granOwner g) 9 k).account (st.granOwner g) 6 k) s

/-- A BAR2 read is performed. -/
def State.bar2Read (s : State) (a n : Nat) : State :=
  let (s, bs, lost) := s.memRead a n
  let s := (s.hostAccount a n).globalEvent 49 2 n
  if lost.isSome then (s.count R.hostPoisonTxCnt 1).hostAnswer 0 true (List.replicate n 0) else s.hostAnswer 0 false bs

/-- A BAR2 write is performed; one with EP poisons every word it touches. -/
def State.bar2Write (s : State) (a : Nat) (bs : List Byte) (ep : Bool) : State :=
  let s := (s.hostAccount a bs.length).globalEvent 49 1 bs.length
  if ep then
    (wordsOf a bs.length).foldl (fun (st : State) w => (st.rowWritten w).setMemHealth w 2) (s.count R.hostPoisonRxCnt 1)
  else s.memWrite a bs

/-- A BAR2 access is performed, or is unsupported where a granule is not VALID. -/
def State.bar2Go (s : State) (f : FillWait) : State :=
  if ¬ (f.addr + f.len ≤ smSize ∧ (granulesOf f.addr f.len).all s.granValid) then s.hostUr f.write.isSome
  else match f.write with
    | none => s.bar2Read f.addr f.len
    | some bs => s.bar2Write f.addr bs f.poison

/-- Two accesses touch the same bytes. -/
def fillClash (a b : FillWait) : Bool := a.addr < b.addr + b.len && b.addr < a.addr + a.len

/-- The waiting accesses that no zero fill blocks any more, in order, and those left: one stays behind an earlier one to
the same bytes (R28). -/
def fillReady (s : State) : List FillWait → List FillWait → List FillWait × List FillWait
  | [], left => ([], left)
  | f :: t, left =>
    if (granulesOf f.addr f.len).any (fun g => s.granBusy g) || left.any (fillClash f) then fillReady s t (left ++ [f])
    else
      let r := fillReady s t left
      (f :: r.1, r.2)

/-- A BAR2 access: it waits where a granule's zero fill is in progress (R212), or where an earlier one waits for the same
bytes (R28). -/
def State.bar2Access (s : State) (f : FillWait) : State :=
  if ¬ s.hostUp then s
  else if s.hostShut then (if f.write.isSome then s else s.hostAnswer 1 false [])
  else if ¬ s.bit R.trustAccess 0 then
    let s := s.privDenied 1 0xFFFF
    if f.write.isSome then s else s.hostAnswer 0 false (List.replicate f.len 0)
  else if s.devFatal ∧ f.write.isSome then s
  else if ((granulesOf f.addr f.len).any fun g => s.granValid g && s.granBusy g) || s.smem.fillWaits.any (fillClash f) then
    { s with smem := { s.smem with fillWaits := s.smem.fillWaits ++ [f] } }
  else s.bar2Go f

/-- `BAR2_READ`: `len` − 1 as given. -/
def execBar2Read (addr : BitVec 34) (len : Fin 4096) (upsets : List Upset) (s : State) : Res :=
  .next ((s.memUpset upsets).bar2Access { addr := addr.toNat, len := len + 1 })

/-- `BAR2_WRITE`. -/
def execBar2Write (addr : BitVec 34) (data : List Byte) (ep : Bool) (s : State) : Res :=
  .next (if data.isEmpty then s
    else s.bar2Access { addr := addr.toNat, len := data.length, write := some data, poison := ep })

/-- `ZERO_FILL_END`: ZF_BUSY clears, and what waited is performed in order (R212). -/
def execZeroFillEnd (granule : Fin 512) (s : State) : Res :=
  .next (if ¬ s.granBusy granule then s
  else
    let s := s.setBit (R.smemcGranule granule) 12 false
    let r := fillReady s s.smem.fillWaits []
    r.1.foldl (fun (st : State) f => st.bar2Go f) { s with smem := { s.smem with fillWaits := r.2 } })

end Sys2Proof.Machine
end

