-- ==== Sys2Proof/Machine/Carts.lean ====
section
/-! DEFINITION. Link cartridges: identity, acceptance, wear and retirement (R331–R336). -/

namespace Sys2Proof.Machine

def State.cart (s : State) (p : Nat) : Cart := s.carts.get {} p
def State.modCart (s : State) (p : Nat) (f : Cart → Cart) : State := { s with carts := s.carts.set {} p (f (s.cart p)) }

/-- The presence input is ignored on a port of board reach (R332). -/
def State.boardPort (s : State) (p : Nat) : Bool := s.fld (R.lnkPortCfg p) 5 4 == 1

/-- The sum of a page's bytes, modulo 256. -/
def pageSum (bs : List Byte) : Nat := (bs.foldl (fun n b => n + b.toNat) 0) % 256

/-- A wear page that holds together: MAGIC and CHECK (Table 11-9). -/
def wearOk (bs : List Byte) : Bool := bs.length == 32 && leNat (bs.take 2) == 0x5744 && pageSum bs == 0

/-- The serial of a cartridge, as its registers show it. -/
def State.cartSerial (s : State) (p : Nat) : Nat :=
  leNat ((List.range 4).flatMap fun i => natLE 4 (s.rd (R.cartCSerial p i)).toNat)

/-- The device writes the wear page, ADJ keeping the sum at zero, while the bus works (R331, R333, R334). -/
def State.writeWear (s : State) (p : Nat) : State :=
  let x := s.cart p
  let st := s.fld (R.cartCStatus p) 5 4
  let head := [0x44, 0x57] ++ natLE 2 x.ratedMatings ++ natLE 4 x.ratedLaser ++ natLE 4 (s.rd (R.cartCMatings p)).toNat
    ++ natLE 4 (s.rd (R.cartCLaserH p)).toNat ++ natLE 1 st ++ natLE 6 0
  let tail := natLE 8 (s.rd R.trustSerial).toNat
  let adj := (256 - pageSum (head ++ tail)) % 256
  if s.now < x.pausedUntil then s else s.modCart p fun y => { y with wearPage := head ++ natLE 1 adj ++ tail }

/-- Counts or flags that the page of a bus out of service still owes. -/
def State.oweWear (s : State) (p : Nat) : Bool :=
  ((s.cart p).wearPage.drop 8).take 9 != natLE 4 (s.rd (R.cartCMatings p)).toNat ++ natLE 4 (s.rd (R.cartCLaserH p)).toNat
    ++ natLE 1 (s.fld (R.cartCStatus p) 5 4)

/-- The ledger's entry for the cartridge in port `p` (R334, Table 16-5). -/
def State.ledgerCart (s : State) (p : Nat) : State :=
  let serial := s.cartSerial p
  let vendor := leNat ((List.range 4).flatMap fun i => natLE 4 (s.rd (R.cartCVendor p i)).toNat)
  let m := (s.rd (R.cartCMatings p)).toNat
  let l := (s.rd (R.cartCLaserH p)).toNat
  let w := s.bit (R.cartCStatus p) 4
  let o := s.bit (R.cartCStatus p) 5
  s.modLedger fun g =>
    let t := g.life.get 0 0
    let e : LedgCart := { serial, vendor, port := p, matings := m, laser := l, warned := w, worn := o, first := t, last := t }
    let g := if (g.ports.get (0, 0) p).1 = serial then g else { g with ports := g.ports.set (0, 0) p (serial, t) }
    if g.carts.any fun c => c.serial == serial then
      { g with carts := g.carts.map fun c => if c.serial = serial then { e with first := c.first } else c }
    else if g.carts.length < 256 then { g with carts := g.carts ++ [e] }
    else
      let old := g.carts.foldl (fun (a : Nat) c => min a c.last) (2 ^ 64)
      match g.carts.find? fun c => c.last == old with
      | some v => { g with carts := g.carts.map fun c => if c = v then e else c }
      | none => g

/-- The wear fraction in thousandths, and whether it has reached `n`/10 (R334). -/
def State.wearAtLeast (s : State) (p n : Nat) : Bool :=
  let x := s.cart p
  n * x.ratedMatings ≤ 10 * (s.rd (R.cartCMatings p)).toNat
    || (x.ratedLaser != 0 && n * x.ratedLaser ≤ 10 * (s.rd (R.cartCLaserH p)).toNat)

def State.showWear (s : State) (p : Nat) : State :=
  let x := s.cart p
  let f (a b : Nat) : Nat := if b = 0 then 0 else 1000 * a / b
  s.setFld (R.cartCStatus p) 25 16
    (min 1000 (max (f (s.rd (R.cartCMatings p)).toNat x.ratedMatings) (f (s.rd (R.cartCLaserH p)).toNat x.ratedLaser)))

/-- A worn cartridge retires its port, which stays DISABLED where it is not enabled (R311, R335). -/
def State.retireWorn (s : State) (p : Nat) : State :=
  let s := s.linkRaise p 0x5008 0xFF
  if ¬ s.bit (R.lnkPortCfg p) 0 then s
  else if s.portState p = 5 ∨ s.portState p = 6 ∨ s.portState p = 7 then s.startDrain p 1 else s.setPortState p 9

/-- Wear counts changed: WARNED at 0.9, WORN at 1.0, and the page and the ledger are written. -/
def State.judgeWear (s : State) (p : Nat) : State :=
  let s := s.showWear p
  let warn : Bool := s.wearAtLeast p 9 && !s.bit (R.cartCStatus p) 4
  let worn : Bool := s.wearAtLeast p 10 && !s.bit (R.cartCStatus p) 5
  let s := if warn then (s.setBit (R.cartCStatus p) 4 true).intEvent (480 + p / 4) (4 + p % 4) else s
  let s := if worn then (s.setBit (R.cartCStatus p) 5 true).intEvent (480 + p / 4) (4 + p % 4) else s
  let s := (s.writeWear p).ledgerCart p
  let s := if warn then (s.linkRaise p 0x5007 0xFF).advise 1 else s
  if worn then s.retireWorn p else s

/-- Matings counted and not yet written go to the page. -/
def State.payMatings (s : State) (p : Nat) : State :=
  let n := (s.cart p).owed
  if n = 0 then s
  else ((s.count (R.cartCMatings p) n).modCart p fun x => { x with owed := 0 }).judgeWear p

/-- CART_PRS_N asserts: PRESENT, and one mating (R334). -/
def execCartPrsAssert (port : Fin 32) (s : State) : Res :=
  if s.bit (R.cartCStatus port) 0 ∨ s.boardPort port then .next s
  else
    let s := (s.setBit (R.cartCStatus port) 0 true).intEvent (480 + port / 4) (port % 4)
    .next (s.modCart port fun x => { x with owed := x.owed + 1 })

/-- CART_PRS_N deasserts (R336): the port goes to DISABLED within 1 µs and its retry buffer is discarded. -/
def execCartAbsent (port : Fin 32) (s : State) : Res :=
  if ¬ s.bit (R.cartCStatus port) 0 ∨ s.boardPort port then .next s
  else
    let s := ((s.setBit (R.cartCStatus port) 0 false).setBit (R.cartCStatus port) 1 false).intEvent (480 + port / 4) (port % 4)
    let s := s.modCart port fun x => { pausedUntil := x.pausedUntil }
    if s.portState port = 0 then .next s
    else
      let s := s.linkRaise port 0x5005 0xFF
      let s := s.modPort port fun x => { encCtr := x.encCtr, txq := x.txq, slotNo := x.slotNo }
      .next (s.setPortState port 0)

/-- What a poll has read of a cartridge, accepted or not, is shown (R339). -/
def State.showCart (s : State) (p : Nat) (r : CartRead) : State :=
  let put (s : State) (k : Nat → Nat) (v : Nat) : State :=
    (List.range 4).foldl (fun (st : State) i => st.wr (k i) (BitVec.ofNat 64 (v / 2 ^ (32 * i) % 2 ^ 32))) s
  let s := put (put s (R.cartCSerial p) r.serial) (R.cartCVendor p) r.vendor
  let s := s.setFld (R.cartCStatus p) 3 2 r.reach
  let f := leNat ((r.page.drop 16).take 1)
  let s := (s.setBit (R.cartCStatus p) 4 (f % 2 == 1)).setBit (R.cartCStatus p) 5 (f / 2 % 2 == 1)
  let s := s.wr (R.cartCMatings p) (BitVec.ofNat 64 (leNat ((r.page.drop 8).take 4)))
  let s := s.wr (R.cartCLaserH p) (BitVec.ofNat 64 (leNat ((r.page.drop 12).take 4)))
  let s := s.modCart p fun x => { x with
    ratedMatings := leNat ((r.page.drop 2).take 2), ratedLaser := leNat ((r.page.drop 4).take 4), wearPage := r.page }
  s.showWear p

/-- Acceptance of a cartridge (R332); one that fails is reported once. -/
def State.acceptCart (s : State) (p : Nat) (r : CartRead) (start : Bool) : State :=
  let reach := s.fld (R.lnkPortCfg p) 5 4
  let s := s.showCart p r
  if r.rev < 50 ∨ ¬ r.hostIf ∨ (r.reach ≠ 2 ∧ r.reach ≠ 3) ∨ (reach ≠ 0 ∧ reach ≠ r.reach) ∨ ¬ wearOk r.page then
    if (s.cart p).rejected then s else (s.linkRaise p 0x5006 0xFF).modCart p fun x => { x with rejected := true }
  else
    let s := s.setBit (R.cartCStatus p) 1 true
    let more := if start && (s.obs.ledger.ports.get (0, 0) p).1 != r.serial then 1 else 0
    let s := s.modCart p fun x => { x with owed := x.owed + more, rejected := false }
    let worn := s.bit (R.cartCStatus p) 5
    let s := (s.ledgerCart p).payMatings p
    if worn then s.retireWorn p else s

/-- The port no longer expects the class of its accepted cartridge (R332). -/
def State.cartUnfit (s : State) (p : Nat) : Bool :=
  let reach := s.fld (R.lnkPortCfg p) 5 4
  s.portState p == 0 && reach != 0 && reach != s.fld (R.cartCStatus p) 3 2

/-- A poll of CMIS flags (R331, R332, R336); `start`: the identity read of start-up, which finds a cartridge that was in place
before and counts no mating for it (R334). -/
def execCartPoll (port : Fin 32) (read : CartRead) (start : Bool) (s : State) : Res :=
  let bus := port.val / 4
  let s := if start ∧ ¬ s.boardPort port then s.setBit (R.cartCStatus port) 0 true else s
  if ¬ s.bit (R.cartCStatus port) 0 ∨ s.boardPort port ∨ s.now < (s.cart port).pausedUntil then .next s
  else if ¬ read.busOk then
    let detail := [(1, port.val), (1, 0xFF), (1, s.portState port), (8, (s.rd (R.lnkPeerKey port)).toNat)]
    let s := (s.count (R.cartCBusErrCnt port) 3).raise { code := 0x500D, loc := bus, detail }
    .next ((List.range 4).foldl (fun (st : State) k => st.modCart (4 * bus + k) fun x => { x with pausedUntil := st.now + 1600000000 }) s)
  else
   let s := s.count (R.cartCBusErrCnt port) read.retries
   if ¬ s.bit (R.cartCStatus port) 1 then .next (s.acceptCart port read start)
   else if s.cartUnfit port then .next ((s.setBit (R.cartCStatus port) 1 false).acceptCart port read start)
   else if read.failed ∧ s.portState port ≠ 8 ∧ s.portState port ≠ 9 ∧ (s.port port).draining = none then
    let s := s.linkRaise port 0x5009 0xFF
    .next (if ¬ s.bit (R.lnkPortCfg port) 0 then s
      else if s.portState port = 5 ∨ s.portState port = 6 ∨ s.portState port = 7 then s.startDrain port 2
      else s.setPortState port 8)
   else
    let s := s.payMatings port
    .next (if s.oweWear port then s.writeWear port else s)

/-- 3,600 counted seconds of a lit optical cartridge (R334). -/
def execLaserHour (port : Fin 32) (s : State) : Res :=
  if ¬ s.bit (R.cartCStatus port) 1 ∨ s.fld (R.cartCStatus port) 3 2 ≠ 3 then .next s
  else .next ((s.count (R.cartCLaserH port) 1).judgeWear port)

end Sys2Proof.Machine
end

