-- ==== Sys2Proof/Machine/Dispatch.lean ====
section
/-! DEFINITION. One arm per command: each arm is one direct call of the command's meaning. -/

namespace Sys2Proof.Machine

def exec (i : Instr) (s : State) : Host.Outcome State Fault Refusal :=
  match i with
  | .bundleIssue core dt upsets => Sys2Proof.Machine.execBundleIssue core dt upsets s
  | .podFlagWaitRequest core waiter => Sys2Proof.Machine.execPodFlagWaitRequest core waiter s
  | .mmaOs core parity go => Sys2Proof.Machine.execMmaOs core parity go s
  | .mmaWs core parity go => Sys2Proof.Machine.execMmaWs core parity go s
  | .mmaWt core parity go => Sys2Proof.Machine.execMmaWt core parity go s
  | .ewmul core go => Sys2Proof.Machine.execEwmul core go s
  | .accDrain core parity upsets => Sys2Proof.Machine.execAccDrain core parity upsets s
  | .tileDrain core => Sys2Proof.Machine.execTileDrain core s
  | .vmap core go => Sys2Proof.Machine.execVmap core go s
  | .vred core go => Sys2Proof.Machine.execVred core go s
  | .delivery core eng dt withVe => Sys2Proof.Machine.execDelivery core eng dt withVe s
  | .ld core => Sys2Proof.Machine.execLd core s
  | .st core => Sys2Proof.Machine.execSt core s
  | .stSignal core => Sys2Proof.Machine.execStSignal core s
  | .stSignalDelivery core => Sys2Proof.Machine.execStSignalDelivery core s
  | .scnt core go => Sys2Proof.Machine.execScnt core go s
  | .scas core upsets => Sys2Proof.Machine.execScas core upsets s
  | .smcnt core => Sys2Proof.Machine.execSmcnt core s
  | .smcas core => Sys2Proof.Machine.execSmcas core s
  | .completionPoint core eng => Sys2Proof.Machine.execCompletionPoint core eng s
  | .stageMemoryResponse core eng pick upsets => Sys2Proof.Machine.execStageMemoryResponse core eng pick upsets s
  | .eccWriteBack core addr => Sys2Proof.Machine.execEccWriteBack core addr s
  | .jobEnd unit eng => Sys2Proof.Machine.execJobEnd unit eng s
  | .parkRequest unit reason => Sys2Proof.Machine.execParkRequest unit reason s
  | .parkPoint core eng inFlight => Sys2Proof.Machine.execParkPoint core eng inFlight s
  | .parkTimeout core eng => Sys2Proof.Machine.execParkTimeout core eng s
  | .resume unit => Sys2Proof.Machine.execResume unit s
  | .syncDeadlock unit core waiter dt => Sys2Proof.Machine.execSyncDeadlock unit core waiter dt s
  | .bundleLimit core => Sys2Proof.Machine.execBundleLimit core s
  | .settle unit => Sys2Proof.Machine.execSettle unit s
  | .dbgBundleLimit core limit => Sys2Proof.Machine.execDbgBundleLimit core limit s
  | .agSel core desc => Sys2Proof.Machine.execAgSel core desc s
  | .dbgAddr core waddr => Sys2Proof.Machine.execDbgAddr core waddr s
  | .jobDispatch => Sys2Proof.Machine.execJobDispatch s
  | .jobWatchdog unit dt => Sys2Proof.Machine.execJobWatchdog unit dt s
  | .snapUnit unit dt => Sys2Proof.Machine.execSnapUnit unit dt s
  | .enqueue agent queue card => Sys2Proof.Machine.execEnqueue agent queue card s
  | .dequeue agent queue err => Sys2Proof.Machine.execDequeue agent queue err s
  | .queueEnable queue => Sys2Proof.Machine.execQueueEnable queue s
  | .queueDisable queue => Sys2Proof.Machine.execQueueDisable queue s
  | .flush => Sys2Proof.Machine.execFlush s
  | .card port => Sys2Proof.Machine.execCard port s
  | .leadCardEnqueue => Sys2Proof.Machine.execLeadCardEnqueue s
  | .readinessSignal unit => Sys2Proof.Machine.execReadinessSignal unit s
  | .retire card => Sys2Proof.Machine.execRetire card s
  | .replayReq card => Sys2Proof.Machine.execReplayReq card s
  | .replayNak card => Sys2Proof.Machine.execReplayNak card s
  | .shelfSetEnable set => Sys2Proof.Machine.execShelfSetEnable set s
  | .assemblerEnable asm => Sys2Proof.Machine.execAssemblerEnable asm s
  | .serveReq asm => Sys2Proof.Machine.execServeReq asm s
  | .batchDeadline asm => Sys2Proof.Machine.execBatchDeadline asm s
  | .batchClose asm => Sys2Proof.Machine.execBatchClose asm s
  | .nop q => Sys2Proof.Machine.execNop q s
  | .alu q => Sys2Proof.Machine.execAlu q s
  | .addi q => Sys2Proof.Machine.execAddi q s
  | .stgLi q => Sys2Proof.Machine.execStgLi q s
  | .liw q => Sys2Proof.Machine.execLiw q s
  | .stgBr q => Sys2Proof.Machine.execStgBr q s
  | .stgCall q => Sys2Proof.Machine.execStgCall q s
  | .stgRet q => Sys2Proof.Machine.execStgRet q s
  | .halt q => Sys2Proof.Machine.execHalt q s
  | .ldd q => Sys2Proof.Machine.execLdd q s
  | .std q => Sys2Proof.Machine.execStd q s
  | .lds q upsets => Sys2Proof.Machine.execLds q upsets s
  | .sts q => Sys2Proof.Machine.execSts q s
  | .mcas q upsets => Sys2Proof.Machine.execMcas q upsets s
  | .mcnt q upsets => Sys2Proof.Machine.execMcnt q upsets s
  | .time q => Sys2Proof.Machine.execTime q s
  | .watch q => Sys2Proof.Machine.execWatch q s
  | .waite q => Sys2Proof.Machine.execWaite q s
  | .tset q => Sys2Proof.Machine.execTset q s
  | .timerExpiry q => Sys2Proof.Machine.execTimerExpiry q s
  | .ewait q => Sys2Proof.Machine.execEwait q s
  | .deq q => Sys2Proof.Machine.execDeq q s
  | .enq q => Sys2Proof.Machine.execEnq q s
  | .cget q => Sys2Proof.Machine.execCget q s
  | .cput q => Sys2Proof.Machine.execCput q s
  | .cclr q => Sys2Proof.Machine.execCclr q s
  | .ccopy q => Sys2Proof.Machine.execCcopy q s
  | .qflush q => Sys2Proof.Machine.execQflush q s
  | .rxdeq q => Sys2Proof.Machine.execRxdeq q s
  | .rxdrop q => Sys2Proof.Machine.execRxdrop q s
  | .disp q => Sys2Proof.Machine.execDisp q s
  | .tbind q => Sys2Proof.Machine.execTbind q s
  | .tnext q upsets => Sys2Proof.Machine.execTnext q upsets s
  | .jlink q => Sys2Proof.Machine.execJlink q s
  | .pwin q => Sys2Proof.Machine.execPwin q s
  | .xreq q => Sys2Proof.Machine.execXreq q s
  | .xstat q => Sys2Proof.Machine.execXstat q s
  | .xmove q upsets => Sys2Proof.Machine.execXmove q upsets s
  | .xbind q => Sys2Proof.Machine.execXbind q s
  | .xdone q => Sys2Proof.Machine.execXdone q s
  | .xfree q => Sys2Proof.Machine.execXfree q s
  | .crel q => Sys2Proof.Machine.execCrel q s
  | .xcard q => Sys2Proof.Machine.execXcard q s
  | .mmr q => Sys2Proof.Machine.execMmr q s
  | .mmw q => Sys2Proof.Machine.execMmw q s
  | .run q => Sys2Proof.Machine.execRun q s
  | .runClear q => Sys2Proof.Machine.execRunClear q s
  | .xtimeout q k => Sys2Proof.Machine.execXtimeout q k s
  | .creditReq => Sys2Proof.Machine.execCreditReq s
  | .creditGrant pool => Sys2Proof.Machine.execCreditGrant pool s
  | .creditReply => Sys2Proof.Machine.execCreditReply s
  | .poolEnable pool => Sys2Proof.Machine.execPoolEnable pool s
  | .poolDisable pool => Sys2Proof.Machine.execPoolDisable pool s
  | .write => Sys2Proof.Machine.execWrite s
  | .wack => Sys2Proof.Machine.execWack s
  | .rreq => Sys2Proof.Machine.execRreq s
  | .rcpl => Sys2Proof.Machine.execRcpl s
  | .reqTimeout tag => Sys2Proof.Machine.execReqTimeout tag s
  | .tagExhaust requester => Sys2Proof.Machine.execTagExhaust requester s
  | .fence group => Sys2Proof.Machine.execFence group s
  | .rollcall => Sys2Proof.Machine.execRollcall s
  | .rollcallSend port => Sys2Proof.Machine.execRollcallSend port s
  | .rollcallDone => Sys2Proof.Machine.execRollcallDone s
  | .chipId chip => Sys2Proof.Machine.execChipId chip s
  | .tblData value => Sys2Proof.Machine.execTblData value s
  | .copy => Sys2Proof.Machine.execCopy s
  | .copyEnd => Sys2Proof.Machine.execCopyEnd s
  | .arm => Sys2Proof.Machine.execArm s
  | .epochTick => Sys2Proof.Machine.execEpochTick s
  | .tsyncSend => Sys2Proof.Machine.execTsyncSend s
  | .tsyncReq => Sys2Proof.Machine.execTsyncReq s
  | .tsyncRsp => Sys2Proof.Machine.execTsyncRsp s
  | .timeHoldover => Sys2Proof.Machine.execTimeHoldover s
  | .timeLost => Sys2Proof.Machine.execTimeLost s
  | .collectiveRequest h upsets => Sys2Proof.Machine.execCollectiveRequest h upsets s
  | .chunkNotice h upsets => Sys2Proof.Machine.execChunkNotice h upsets s
  | .collPeerLost h => Sys2Proof.Machine.execCollPeerLost h s
  | .portEnable port => Sys2Proof.Machine.execPortEnable port s
  | .detect port signal => Sys2Proof.Machine.execDetect port signal s
  | .calibrate port trained => Sys2Proof.Machine.execCalibrate port trained s
  | .align port locked => Sys2Proof.Machine.execAlign port locked s
  | .config port flit => Sys2Proof.Machine.execConfig port flit s
  | .configAck port flit => Sys2Proof.Machine.execConfigAck port flit s
  | .transmitFlit port => Sys2Proof.Machine.execTransmitFlit port s
  | .dataFlit port rx => Sys2Proof.Machine.execDataFlit port rx s
  | .idleFlit port flit => Sys2Proof.Machine.execIdleFlit port flit s
  | .retryReq port flit => Sys2Proof.Machine.execRetryReq port flit s
  | .retryReqResend port locked => Sys2Proof.Machine.execRetryReqResend port locked s
  | .retrain port => Sys2Proof.Machine.execRetrain port s
  | .retrainReq port flit => Sys2Proof.Machine.execRetrainReq port flit s
  | .retrainAck port flit => Sys2Proof.Machine.execRetrainAck port flit s
  | .fastRetrainTimeout port => Sys2Proof.Machine.execFastRetrainTimeout port s
  | .laneFailed port lane loss => Sys2Proof.Machine.execLaneFailed port lane loss s
  | .widthReq port flit => Sys2Proof.Machine.execWidthReq port flit s
  | .widthAck port flit => Sys2Proof.Machine.execWidthAck port flit s
  | .widthChangeTimeout port => Sys2Proof.Machine.execWidthChangeTimeout port s
  | .standbyCalibrated port ok => Sys2Proof.Machine.execStandbyCalibrated port ok s
  | .fecDegraded port lane corrected => Sys2Proof.Machine.execFecDegraded port lane corrected s
  | .drain port flit => Sys2Proof.Machine.execDrain port flit s
  | .retireDrainEnd port => Sys2Proof.Machine.execRetireDrainEnd port s
  | .restart port => Sys2Proof.Machine.execRestart port s
  | .cartPrsAssert port => Sys2Proof.Machine.execCartPrsAssert port s
  | .cartAbsent port => Sys2Proof.Machine.execCartAbsent port s
  | .cartPoll port read start => Sys2Proof.Machine.execCartPoll port read start s
  | .laserHour port => Sys2Proof.Machine.execLaserHour port s
  | .create ctx => Sys2Proof.Machine.execCreate ctx s
  | .resumeCtx ctx => Sys2Proof.Machine.execResumeCtx ctx s
  | .haltCtx ctx => Sys2Proof.Machine.execHaltCtx ctx s
  | .teardown ctx => Sys2Proof.Machine.execTeardown ctx s
  | .ctxHalted ctx => Sys2Proof.Machine.execCtxHalted ctx s
  | .spill ctx => Sys2Proof.Machine.execSpill ctx s
  | .spillDone ctx ok => Sys2Proof.Machine.execSpillDone ctx ok s
  | .restore ctx => Sys2Proof.Machine.execRestore ctx s
  | .restoreDone ctx ok image => Sys2Proof.Machine.execRestoreDone ctx ok image s
  | .release ctx => Sys2Proof.Machine.execRelease ctx s
  | .energyApportion acts => Sys2Proof.Machine.execEnergyApportion acts s
  | .thresholdEvaluation => Sys2Proof.Machine.execThresholdEvaluation s
  | .slotRetired pod testOk => Sys2Proof.Machine.execSlotRetired pod testOk s
  | .arraySelfTest core arr failing => Sys2Proof.Machine.execArraySelfTest core arr failing s
  | .qmSwitched readable => Sys2Proof.Machine.execQmSwitched readable s
  | .d2dLost => Sys2Proof.Machine.execD2dLost s
  | .pllLost ref => Sys2Proof.Machine.execPllLost ref s
  | .ctrlStoreUe => Sys2Proof.Machine.execCtrlStoreUe s
  | .mcWatchdog => Sys2Proof.Machine.execMcWatchdog s
  | .rejoin => Sys2Proof.Machine.execRejoin s
  | .reclaim => Sys2Proof.Machine.execReclaim s
  | .grantAge pool => Sys2Proof.Machine.execGrantAge pool s
  | .checkpointRequest h upsets => Sys2Proof.Machine.execCheckpointRequest h upsets s
  | .digestNotice h => Sys2Proof.Machine.execDigestNotice h s
  | .noticeWaitEnd h => Sys2Proof.Machine.execNoticeWaitEnd h s
  | .cclkStepEdge vout => Sys2Proof.Machine.execCclkStepEdge vout s
  | .powerSample powers => Sys2Proof.Machine.execPowerSample powers s
  | .temperatureRead readings => Sys2Proof.Machine.execTemperatureRead readings s
  | .thermalLimiterInterval => Sys2Proof.Machine.execThermalLimiterInterval s
  | .supplySample volts => Sys2Proof.Machine.execSupplySample volts s
  | .pwrBrakeAssert => Sys2Proof.Machine.execPwrBrakeAssert s
  | .pwrBrakeRelease => Sys2Proof.Machine.execPwrBrakeRelease s
  | .ringOscillatorMeasure quotients => Sys2Proof.Machine.execRingOscillatorMeasure quotients s
  | .vmaxMinute => Sys2Proof.Machine.execVmaxMinute s
  | .domainEn value => Sys2Proof.Machine.execDomainEn value s
  | .domainOn domain ok => Sys2Proof.Machine.execDomainOn domain ok s
  | .freezeArm => Sys2Proof.Machine.execFreezeArm s
  | .freeze => Sys2Proof.Machine.execFreeze s
  | .unfreeze => Sys2Proof.Machine.execUnfreeze s
  | .ns2Sample late => Sys2Proof.Machine.execNs2Sample late s
  | .dumpArm => Sys2Proof.Machine.execDumpArm s
  | .dumpCopy => Sys2Proof.Machine.execDumpCopy s
  | .bufferEnable ctx => Sys2Proof.Machine.execBufferEnable ctx s
  | .profileWrite ctx value => Sys2Proof.Machine.execProfileWrite ctx value s
  | .ledgerWrite verified => Sys2Proof.Machine.execLedgerWrite verified s
  | .sync verified => Sys2Proof.Machine.execSync verified s
  | .granuleWrite granule value => Sys2Proof.Machine.execGranuleWrite granule value s
  | .zeroFillEnd granule => Sys2Proof.Machine.execZeroFillEnd granule s
  | .scrub addr passEnd upsets => Sys2Proof.Machine.execScrub addr passEnd upsets s
  | .spareRow tier bank row => Sys2Proof.Machine.execSpareRow tier bank row s
  | .bankRebuild tier bank => Sys2Proof.Machine.execBankRebuild tier bank s
  | .rebuildDone walk => Sys2Proof.Machine.execRebuildDone walk s
  | .loadData transport offset data => Sys2Proof.Machine.execLoadData transport offset data s
  | .load transport kind ctx seqr level addr size => Sys2Proof.Machine.execLoad transport kind ctx seqr level addr size s
  | .unload transport handle => Sys2Proof.Machine.execUnload transport handle s
  | .regRead transport addr => Sys2Proof.Machine.execRegRead transport addr s
  | .regWrite transport addr value => Sys2Proof.Machine.execRegWrite transport addr value s
  | .mgmtEnq transport queue card => Sys2Proof.Machine.execMgmtEnq transport queue card s
  | .mgmtDeq transport queue err => Sys2Proof.Machine.execMgmtDeq transport queue err s
  | .sbufRead transport offset len => Sys2Proof.Machine.execSbufRead transport offset len s
  | .mctpMessage transport head intact eid => Sys2Proof.Machine.execMctpMessage transport head intact eid s
  | .entdaa addr => Sys2Proof.Machine.execEntdaa addr s
  | .pldmFirmwareUpdate transport image => Sys2Proof.Machine.execPldmFirmwareUpdate transport image s
  | .getVersion transport => Sys2Proof.Machine.execGetVersion transport s
  | .getCapabilities transport => Sys2Proof.Machine.execGetCapabilities transport s
  | .negotiateAlgorithms transport supported => Sys2Proof.Machine.execNegotiateAlgorithms transport supported s
  | .getDigests transport => Sys2Proof.Machine.execGetDigests transport s
  | .getCertificate transport slot offset len => Sys2Proof.Machine.execGetCertificate transport slot offset len s
  | .challenge transport slot nonce => Sys2Proof.Machine.execChallenge transport slot nonce s
  | .getMeasurements transport index => Sys2Proof.Machine.execGetMeasurements transport index s
  | .keyExchange transport slot => Sys2Proof.Machine.execKeyExchange transport slot s
  | .finish transport verifies root => Sys2Proof.Machine.execFinish transport verifies root s
  | .heartbeat transport => Sys2Proof.Machine.execHeartbeat transport s
  | .keyUpdate transport => Sys2Proof.Machine.execKeyUpdate transport s
  | .endSession transport => Sys2Proof.Machine.execEndSession transport s
  | .getCtxMeasurement transport ctx nonce => Sys2Proof.Machine.execGetCtxMeasurement transport ctx nonce s
  | .pqSign transport transcript => Sys2Proof.Machine.execPqSign transport transcript s
  | .commitSvn transport => Sys2Proof.Machine.execCommitSvn transport s
  | .setKey transport slice slot gen key => Sys2Proof.Machine.execSetKey transport slice slot gen key s
  | .clearKey transport slice slot => Sys2Proof.Machine.execClearKey transport slice slot s
  | .setEnc transport slice enc => Sys2Proof.Machine.execSetEnc transport slice enc s
  | .armTx transport slice slot epoch => Sys2Proof.Machine.execArmTx transport slice slot epoch s
  | .dbgNonce => Sys2Proof.Machine.execDbgNonce s
  | .debugToken transport token => Sys2Proof.Machine.execDebugToken transport token s
  | .dbgLock => Sys2Proof.Machine.execDbgLock s
  | .secureBoot fuses => Sys2Proof.Machine.execSecureBoot fuses s
  | .bypass => Sys2Proof.Machine.execBypass s
  | .idcode => Sys2Proof.Machine.execIdcode s
  | .samplePreload pins load => Sys2Proof.Machine.execSamplePreload pins load s
  | .extest => Sys2Proof.Machine.execExtest s
  | .bar0Access write offset size value => Sys2Proof.Machine.execBar0Access write offset size value s
  | .bar2Read addr len upsets => Sys2Proof.Machine.execBar2Read addr len upsets s
  | .bar2Write addr data ep => Sys2Proof.Machine.execBar2Write addr data ep s
  | .hostCompletion tag status ep data => Sys2Proof.Machine.execHostCompletion tag status ep data s
  | .hostCplTimeout tag => Sys2Proof.Machine.execHostCplTimeout tag s
  | .hostLinkDown => Sys2Proof.Machine.execHostLinkDown s
  | .snpdata line => Sys2Proof.Machine.execSnpdata line s
  | .snpinv line => Sys2Proof.Machine.execSnpinv line s
  | .snpcur line => Sys2Proof.Machine.execSnpcur line s
  | .goWritepull line => Sys2Proof.Machine.execGoWritepull line s
  | .goWritepulldrop line => Sys2Proof.Machine.execGoWritepulldrop line s
  | .goErrWritepull line => Sys2Proof.Machine.execGoErrWritepull line s
  | .doorbell ring => Sys2Proof.Machine.execDoorbell ring s
  | .ringIndexRead ring => Sys2Proof.Machine.execRingIndexRead ring s
  | .h2dCardRetry ring => Sys2Proof.Machine.execH2dCardRetry ring s
  | .d2hCard ring err => Sys2Proof.Machine.execD2hCard ring err s
  | .ringIndexWrite ring => Sys2Proof.Machine.execRingIndexWrite ring s
  | .ringReadRetry ring => Sys2Proof.Machine.execRingReadRetry ring s
  | .ringEnable ring value => Sys2Proof.Machine.execRingEnable ring value s
  | .ringInterrupt ring => Sys2Proof.Machine.execRingInterrupt ring s
  | .qstopLevelChange a b => Sys2Proof.Machine.execQstopLevelChange a b s
  | .qstopInputFault => Sys2Proof.Machine.execQstopInputFault s
  | .qstopRdy verified => Sys2Proof.Machine.execQstopRdy verified s
  | .faultClear => Sys2Proof.Machine.execFaultClear s
  | .powerOnReset => Sys2Proof.Machine.execPowerOnReset s
  | .coldReset source => Sys2Proof.Machine.execColdReset source s
  | .warmReset preset addr verified => Sys2Proof.Machine.execWarmReset preset addr verified s
  | .hostReset => Sys2Proof.Machine.execHostReset s
  | .resetRelease preset addr readings => Sys2Proof.Machine.execResetRelease preset addr readings s
  | .thermalHoldEnd => Sys2Proof.Machine.execThermalHoldEnd s
  | .rootLock => Sys2Proof.Machine.execRootLock s
  | .phaseRom us => Sys2Proof.Machine.execPhaseRom us s
  | .phaseFirmware us board => Sys2Proof.Machine.execPhaseFirmware us board s
  | .phaseUncore us ok => Sys2Proof.Machine.execPhaseUncore us ok s
  | .phaseMemory us failing qm0 qm1 => Sys2Proof.Machine.execPhaseMemory us failing qm0 qm1 s
  | .phaseCores us slots cols => Sys2Proof.Machine.execPhaseCores us slots cols s
  | .phaseLinks us => Sys2Proof.Machine.execPhaseLinks us s
  | .intForce agent page value => Sys2Proof.Machine.execIntForce agent page value s
  | .intEnable agent page value => Sys2Proof.Machine.execIntEnable agent page value s
  | .lock agent page => Sys2Proof.Machine.execLock agent page s
  | .readLatch agent page word => Sys2Proof.Machine.execReadLatch agent page word s
  | .registerWrite agent page word wide value => Sys2Proof.Machine.execRegisterWrite agent page word wide value s
  | .hostLinkUp cxl width speed => Sys2Proof.Machine.execHostLinkUp cxl width speed s
  | .cxlCacheResponse line low high => Sys2Proof.Machine.execCxlCacheResponse line low high s
  | .msiXUnmask vector entry => Sys2Proof.Machine.execMsiXUnmask vector entry s
  | .domainFail domain => Sys2Proof.Machine.execDomainFail domain s
  | .configTimeout port => Sys2Proof.Machine.execConfigTimeout port s
  | .stageMemoryWriteBack addr => Sys2Proof.Machine.execStageMemoryWriteBack addr s

end Sys2Proof.Machine
end

