-- ==== Sys2Proof/WellFormed.lean ====
section
/-! DEFINITION. What the world may supply with a command: the sizes of the lists that stand for readings, samples and
transfers.  Every other operand is bounded by its type. -/

namespace Sys2Proof

/-- A command's operands are such as the device can meet. -/
def Instr.wf : Instr → Bool
  | .powerSample powers => powers.length == 48
  | .temperatureRead readings => readings.length == 48
  | .resetRelease _ _ readings => readings.length == 48
  | .supplySample volts => volts.length == 9
  | .ringOscillatorMeasure quotients => quotients.length == 170
  | .energyApportion acts => acts.length == 48
  | .arraySelfTest _ _ failing => failing.all (decide <| · < 64)
  | .bar2Write addr data _ => decide (1 ≤ data.length) && decide (data.length ≤ 4096) && decide (addr.toNat + data.length ≤ 2 ^ 34)
  | .bar2Read addr len _ => decide (addr.toNat + len.val < 2 ^ 34)
  | .hostCompletion _ _ _ data => decide (data.length ≤ 4096)
  | .debugToken _ token => decide (token.length ≤ 5464)
  | _ => true

end Sys2Proof
end

