-- ==== Sys2Proof/Safety.lean ====
section
/-! DEFINITION. What counts as a good state and a safe step. -/

namespace Sys2Proof.Machine

/-- The canonical form of a memory: addresses strictly rising, no entry equal to what an unlisted address reads as. -/
def Memory.wf (m : Memory) : Bool := Tab.wf 0 m

/-- The canonical form of a register table: keys strictly rising, no register listed at its reset value. -/
def regsWf : Tab Word → Bool
  | [] => true
  | (j, v) :: t => (v != regReset j) && Tab.above j t && regsWf t

/-- Stage memory, the scratchpads and the registers are in canonical form. -/
def State.memOk (s : State) : Prop := Memory.wf s.mem = true ∧ Tab.wf 0 s.spad = true ∧ regsWf s.regs = true

/-- A step neither faults nor is refused. -/
def State.safe (s : State) : Prop := ∃ t, step s = .next t

/-- Every command that waits is one the device can meet. -/
def State.pendingOk (s : State) : Prop := s.pending.all Sys2Proof.Instr.wf = true

end Sys2Proof.Machine
end

