-- ==== Sys2Proof/Certificates/Slice0/Obligations.lean ====
section
/-! DEFINITION. The statements for the provers: what each command does, what a step keeps, what reset leaves. -/

open Sys2Proof Sys2Proof.Machine

/-- R105, R106, R117, R134, R135, R164, R206: one clause per way the command goes; `us` are the upsets that precede the
attempt, `t` the cycle of the attempt, `x` the core as it meets the bundle. -/
def Obligations.IssueAndDebugCommandsComplete : Prop :=
  (∀ (s s₁ s₂ : State) (core : Fin 128) (dt u t : Nat) (us : List Upset) (b : Bundle) (x : Core),
      s₁ = s.upset core us →
      s₁.unitOf core = some u →
      s₁.bundleNext core = some b →
      t = s₁.attemptAt u core dt →
      s₁.coreRuns core = true →
      s₁.beforeWatchdogs u t = true →
      s₂ = s₁.elapse u t →
      x = (s₂.core core).meets (t - (s₂.core core).cycles) →
      s₂.syMet core b.sy = true →
      x.fullMask b = 0 →
      narrowFaults b x = none →
      exec (.bundleIssue core dt us) s = .next (s₂.issue core x b)) ∧
  (∀ (s s₁ s₂ : State) (core : Fin 128) (dt u t : Nat) (us : List Upset) (b : Bundle) (x : Core),
      s₁ = s.upset core us →
      s₁.unitOf core = some u →
      s₁.bundleNext core = some b →
      t = s₁.attemptAt u core dt →
      s₁.coreRuns core = true →
      s₁.beforeWatchdogs u t = true →
      s₂ = s₁.elapse u t →
      x = (s₂.core core).meets (t - (s₂.core core).cycles) →
      (s₂.syMet core b.sy = false ∨ x.fullMask b ≠ 0) →
      exec (.bundleIssue core dt us) s = .next (s₂.setCore core { x with phase := if s₂.syMet core b.sy then .heldFull else .syWait })) ∧
  (∀ (s : State) (core : Fin 128) (waiter : Fin 5) (f n : Nat),
      s.coreRuns core = true →
      s.podRequest core waiter = some (f, n) →
      s.podRequests core f = [(core.val, waiter, n)] →
      n ≤ s.flag core f →
      exec (.podFlagWaitRequest core waiter) s = .next (match waiterEng waiter with
      | none => (s.setFlag core f (s.flag core f - n)).modCore core fun x => { x with syGranted := true }
      | some e => (s.setFlag core f (s.flag core f - n)).modEng core e fun g => { g with granted := true })) ∧
  (∀ (s : State) (core : Fin 128) (waiter : Fin 5) (f n : Nat),
      s.coreRuns core = true →
      s.podRequest core waiter = some (f, n) →
      exec (.podFlagWaitRequest core waiter) s = .next ((s.podRequests core f).foldl (fun st r => st.podJudge f r) s)) ∧
  (∀ (s : State) (core : Fin 128),
      s.coreRuns core = true →
      s.pastLimit core = true →
      (s.core core).phase ≠ .ended →
      exec (.bundleLimit core) s = .next (s.modCore core fun x => { x with phase := .limit })) ∧
  (∀ (s : State) (core : Fin 128) (limit : Word) (u x : Nat),
      s.unitOf core = some u →
      s.unitState u = 2 →
      s.debugCtx core = some x →
      s.debugFor x = true →
      exec (.dbgBundleLimit core limit) s = .next (s.wr (R.coreDbgBundleLimit core) limit)) ∧
  (∀ (s : State) (core : Fin 128) (desc : Fin 32) (x : Nat),
      s.debugCtx core = some x →
      s.debugFor x = true →
      exec (.agSel core desc) s = .next (s.wr (R.coreAgSel core) (BitVec.ofNat 64 desc))) ∧
  (∀ (s : State) (core : Fin 128) (waddr : BitVec 16) (u x a : Nat),
      a = waddr.toNat * 8 →
      s.unitOf core = some u →
      s.unitState u = 2 →
      s.debugCtx core = some x →
      s.debugFor x = true →
      s.spadHealth core a = 0 →
      exec (.dbgAddr core waddr) s = .next (((s.wr (R.spadDbgAddr core) (BitVec.ofNat 64 a)).wr (R.spadDbgStatus core) 1).wr (R.spadDbgData core) (BitVec.ofNat 64 (s.spadRead core a 8))))

/-- R69, R75, R76, R97, R99, R111, R152, R170, R181: the operation at the head of its queue begins, or the operation in
progress goes on, for as many stretches (R99) or strips (R181) as the command names. -/
def Obligations.EngineOperationsComplete : Prop :=
  (∀ (s s₁ s₂ : State) (core : Fin 128) (passes : Nat) (parity : Option (Nat × Nat)) (us : List Upset) (q : QOp) (o : MxOp),
      s₁ = s.upset core us →
      s₁.coreRuns core = true →
      (s₁.core core).mxRun = none →
      s₁.headReady core .mx = some q →
      q.op = .mx o →
      o.kind = .mmaOs →
      s₂ = s₁.flushDrains core (fun _ => true) →
      s₂.coreRuns core = true →
      (firstFault ((mxRoles o (s₂.drainWidth core o)).map fun (d, r, n) => (d, r, (q.descs.get 0 d).checkNear n)) = none) →
      exec (.mmaOs core parity ⟨passes, us⟩) s = .next (((s₂.takeHead core .mx).mxStart core q o).go core o passes parity)) ∧
  (∀ (s s₁ : State) (core : Fin 128) (passes : Nat) (parity : Option (Nat × Nat)) (us : List Upset) (g : MxProg) (o : MxOp),
      s₁ = s.upset core us →
      s₁.coreRuns core = true →
      (s₁.core core).mxRun = some g →
      g.q.op = .mx o →
      o.kind = .mmaOs →
      exec (.mmaOs core parity ⟨passes, us⟩) s = .next (MxRun.go { s := s₁, g } core o passes parity)) ∧
  (∀ (s s₁ s₂ : State) (core : Fin 128) (passes : Nat) (parity : Option (Nat × Nat)) (us : List Upset) (q : QOp) (o : MxOp),
      s₁ = s.upset core us →
      s₁.coreRuns core = true →
      (s₁.core core).mxRun = none →
      s₁.headReady core .mx = some q →
      q.op = .mx o →
      o.kind = .mmaWs →
      s₂ = s₁.flushDrains core (fun _ => true) →
      s₂.coreRuns core = true →
      (firstFault ((mxRoles o (s₂.drainWidth core o)).map fun (d, r, n) => (d, r, (q.descs.get 0 d).checkNear n)) = none) →
      exec (.mmaWs core parity ⟨passes, us⟩) s = .next (((s₂.takeHead core .mx).mxStart core q o).go core o passes parity)) ∧
  (∀ (s s₁ : State) (core : Fin 128) (passes : Nat) (parity : Option (Nat × Nat)) (us : List Upset) (g : MxProg) (o : MxOp),
      s₁ = s.upset core us →
      s₁.coreRuns core = true →
      (s₁.core core).mxRun = some g →
      g.q.op = .mx o →
      o.kind = .mmaWs →
      exec (.mmaWs core parity ⟨passes, us⟩) s = .next (MxRun.go { s := s₁, g } core o passes parity)) ∧
  (∀ (s s₁ s₂ : State) (core : Fin 128) (passes : Nat) (parity : Option (Nat × Nat)) (us : List Upset) (q : QOp) (o : MxOp),
      s₁ = s.upset core us →
      s₁.coreRuns core = true →
      (s₁.core core).mxRun = none →
      s₁.headReady core .mx = some q →
      q.op = .mx o →
      o.kind = .mmaWt →
      s₂ = s₁.flushDrains core (fun _ => true) →
      s₂.coreRuns core = true →
      (firstFault ((mxRoles o (s₂.drainWidth core o)).map fun (d, r, n) => (d, r, (q.descs.get 0 d).checkNear n)) = none) →
      exec (.mmaWt core parity ⟨passes, us⟩) s = .next (((s₂.takeHead core .mx).mxStart core q o).go core o passes parity)) ∧
  (∀ (s s₁ : State) (core : Fin 128) (passes : Nat) (parity : Option (Nat × Nat)) (us : List Upset) (g : MxProg) (o : MxOp),
      s₁ = s.upset core us →
      s₁.coreRuns core = true →
      (s₁.core core).mxRun = some g →
      g.q.op = .mx o →
      o.kind = .mmaWt →
      exec (.mmaWt core parity ⟨passes, us⟩) s = .next (MxRun.go { s := s₁, g } core o passes parity)) ∧
  (∀ (s s₁ s₂ : State) (core : Fin 128) (passes : Nat) (us : List Upset) (q : QOp) (o : MxOp),
      s₁ = s.upset core us →
      s₁.coreRuns core = true →
      (s₁.core core).mxRun = none →
      s₁.headReady core .mx = some q →
      q.op = .mx o →
      o.kind = .ewmul →
      s₂ = s₁.flushDrains core (fun _ => true) →
      s₂.coreRuns core = true →
      (firstFault ((mxRoles o (s₂.drainWidth core o)).map fun (d, r, n) => (d, r, (q.descs.get 0 d).checkNear n)) = none) →
      exec (.ewmul core ⟨passes, us⟩) s = .next (((s₂.takeHead core .mx).mxStart core q o).go core o passes none)) ∧
  (∀ (s s₁ : State) (core : Fin 128) (passes : Nat) (us : List Upset) (g : MxProg) (o : MxOp),
      s₁ = s.upset core us →
      s₁.coreRuns core = true →
      (s₁.core core).mxRun = some g →
      g.q.op = .mx o →
      o.kind = .ewmul →
      exec (.ewmul core ⟨passes, us⟩) s = .next (MxRun.go { s := s₁, g } core o passes none)) ∧
  (∀ (s s₁ s₂ : State) (core : Fin 128) (parity : Option (Nat × Nat)) (us : List Upset) (q : QOp) (o : MxOp),
      s₁ = s.upset core us →
      s₁.coreRuns core = true →
      (s₁.core core).mxRun = none →
      s₁.headReady core .mx = some q →
      q.op = .mx o →
      o.kind = .accDrain →
      s₂ = s₁.flushDrains core (fun _ => true) →
      s₂.coreRuns core = true →
      (firstFault ((mxRoles o (s₂.drainWidth core o)).map fun (d, r, n) => (d, r, (q.descs.get 0 d).checkNear n)) = none) →
      exec (.accDrain core parity us) s = .next ((s₂.takeHead core .mx).accDrain core q o parity)) ∧
  (∀ (s : State) (core : Fin 128) (j : DrainJob) (rest : List DrainJob),
      s.coreRuns core = true →
      (s.core core).drains = j :: rest →
      exec (.tileDrain core) s = .next ((s.modCore core fun x => { x with drains := rest }).drain core j)) ∧
  (∀ (s s₁ : State) (core : Fin 128) (strips : Nat) (us : List Upset) (q : QOp) (o : VeOp),
      s₁ = s.upset core us →
      s₁.coreRuns core = true →
      (s₁.core core).veRun = none →
      s₁.headReady core .ve = some q →
      q.op = .ve o →
      o.vred = false →
      (firstFault ((veRoles o).map fun (d, r, n) => (d, r, (q.descs.get 0 d).checkNear n)) = none) →
      exec (.vmap core ⟨strips, us⟩) s = .next ((s₁.takeHead core .ve).veGo core { q } o strips)) ∧
  (∀ (s s₁ : State) (core : Fin 128) (strips : Nat) (us : List Upset) (g : VeProg) (o : VeOp),
      s₁ = s.upset core us →
      s₁.coreRuns core = true →
      (s₁.core core).veRun = some g →
      g.q.op = .ve o →
      o.vred = false →
      exec (.vmap core ⟨strips, us⟩) s = .next (s₁.veGo core g o strips)) ∧
  (∀ (s s₁ : State) (core : Fin 128) (strips : Nat) (us : List Upset) (q : QOp) (o : VeOp),
      s₁ = s.upset core us →
      s₁.coreRuns core = true →
      (s₁.core core).veRun = none →
      s₁.headReady core .ve = some q →
      q.op = .ve o →
      o.vred = true →
      (firstFault ((veRoles o).map fun (d, r, n) => (d, r, (q.descs.get 0 d).checkNear n)) = none) →
      exec (.vred core ⟨strips, us⟩) s = .next ((s₁.takeHead core .ve).veGo core { q } o strips)) ∧
  (∀ (s s₁ : State) (core : Fin 128) (strips : Nat) (us : List Upset) (g : VeProg) (o : VeOp),
      s₁ = s.upset core us →
      s₁.coreRuns core = true →
      (s₁.core core).veRun = some g →
      g.q.op = .ve o →
      o.vred = true →
      exec (.vred core ⟨strips, us⟩) s = .next (s₁.veGo core g o strips))

/-- R120–R139, R507–R512. The response bytes and the placement order are the model's choices (log entries 36, 37 and
83). -/
def Obligations.LoadingAndManagementCommandsComplete : Prop :=
  (∀ (s : State) (transport : Fin 2) (offset : BitVec 32) (data : List Byte),
      s.firmware = true →
      (transport = 0 ∨ (s.hostUp = true ∧ s.bit R.trustAccess 0 = true)) →
      data.length ≤ 1024 →
      offset.toNat + data.length ≤ 2 ^ 24 →
      exec (.loadData transport offset data) s = .next ((s.modHost fun h => { h with staging := h.staging.set [] transport (overlay (h.staging.get [] transport) offset.toNat data) }).respond transport 0 [])) ∧
  (∀ (s : State) (transport : Fin 2) (kind ctx seqr level : Nat) (n : BitVec 32) (bs : List Byte),
      s.firmware = true →
      (transport = 0 ∨ (s.hostUp = true ∧ s.bit R.trustAccess 0 = true)) →
      (s.host.loads.get none transport).isSome = false →
      kind ≤ 1 →
      ctx ≤ 511 →
      (kind = 1 → seqr ≤ 3 ∧ level ≤ 1) →
      bs = s.host.staging.get [] transport →
      exec (.load transport kind ctx seqr level none n) s = .next ((s.modHost fun h => { h with staging := h.staging.set [] transport [] }).loadDelivered transport { kind, ctx, seqr, level, addr := 0, size := 0 } bs)) ∧
  (∀ (s : State) (transport : Fin 2) (kind ctx seqr level : Nat) (a : BitVec 64) (n : BitVec 32),
      s.firmware = true →
      (transport = 0 ∨ (s.hostUp = true ∧ s.bit R.trustAccess 0 = true)) →
      (s.host.loads.get none transport).isSome = false →
      kind ≤ 1 →
      ctx ≤ 511 →
      (kind = 1 → seqr ≤ 3 ∧ level ≤ 1) →
      exec (.load transport kind ctx seqr level (some a) n) s = .next (s.loadMore transport { kind, ctx, seqr, level, addr := a.toNat, size := n.toNat })) ∧
  (∀ (s : State) (transport : Fin 2) (handle : BitVec 16),
      s.firmware = true →
      (transport = 0 ∨ (s.hostUp = true ∧ s.bit R.trustAccess 0 = true)) →
      handle.toNat < 1024 →
      ((s.progs.any fun p => p.1 = handle.toNat) = true) →
      exec (.unload transport handle) s = .next ((s.unload handle.toNat).respond transport 0 [])) ∧
  (∀ (s : State) (transport : Fin 2) (queue : Fin 4096) (card : BitVec 512) (s₁ : State),
      s.firmware = true →
      (transport = 0 ∨ (s.hostUp = true ∧ s.bit R.trustAccess 0 = true)) →
      s.offer .mc none queue card = (s₁, .ok) →
      exec (.mgmtEnq transport queue card) s = .next (s₁.respond transport 0 [])) ∧
  (∀ (s : State) (transport : Fin 2) (queue : Fin 4096) (c : Card) (s₁ : State),
      s.firmware = true →
      (transport = 0 ∨ (s.hostUp = true ∧ s.bit R.trustAccess 0 = true)) →
      (s.dequeue .mc none queue (fun _ => false) = (s₁, .card c)) →
      exec (.mgmtDeq transport queue 0) s = .next (s₁.respond transport 0 (natLE 64 c.toNat))) ∧
  (∀ (s : State) (transport : Fin 2) (offset len : BitVec 32) (bs : List Byte) (lost : Option Nat) (s₁ : State),
      s.firmware = true →
      (transport = 0 ∨ (s.hostUp = true ∧ s.bit R.trustAccess 0 = true)) →
      len.toNat ≤ 1024 →
      offset.toNat + len.toNat ≤ s.fld R.obsSbufSize 33 12 * 4096 →
      s.memRead (s.fld R.obsSbufBase 33 12 * 4096 + offset.toNat) len.toNat = (s₁, bs, lost) →
      exec (.sbufRead transport offset len) s = .next (s₁.respond transport 0 bs)) ∧
  (∀ (s : State) (transport : Fin 2) (code e : BitVec 8),
      s.firmware = true →
      (transport = 0 ∨ s.hostUp = true) →
      exec (.mctpMessage transport ⟨0, code⟩ true (some e)) s = .next (s.modHost fun h => { h with eid := e.toNat })) ∧
  (∀ (s : State) (transport : Fin 2) (code : BitVec 8) (eid : Option (BitVec 8)),
      s.firmware = true →
      (transport = 0 ∨ s.hostUp = true) →
      spdmRequests.contains code.toNat = false →
      exec (.mctpMessage transport ⟨5, code⟩ true eid) s = .next (s.spdmError 7)) ∧
  (∀ (s : State) (transport : Fin 2) (code : BitVec 8) (eid : Option (BitVec 8)),
      s.firmware = true →
      (transport = 0 ∨ (s.hostUp = true ∧ s.bit R.trustAccess 0 = true)) →
      (code = 0 ∨ 8 < code.toNat) →
      exec (.mctpMessage transport ⟨0x7F, code⟩ true eid) s = .next (s.respond transport 7 [])) ∧
  (∀ (s : State) (transport : Fin 2) (type : Fin 128) (code : BitVec 8) (intact : Bool) (eid : Option (BitVec 8)),
      s.firmware = true →
      (transport = 0 ∨ s.hostUp = true) →
      (intact = false ∨ [0x00, 0x01, 0x05, 0x06, 0x7F].contains type.val = false) →
      exec (.mctpMessage transport ⟨type, code⟩ intact eid) s = .next ((s.modHost fun h => { h with mctpDrops := h.mctpDrops + 1 }).hostRaise 0xA009 0xFF 0xFFFF 0)) ∧
  (∀ (s : State) (addr : Fin 128),
      (s.firmware = true ∨ s.trust.recovery = true) →
      exec (.entdaa addr) s = .next (s.modHost fun h => { h with i3cAddr := some addr.val })) ∧
  (∀ (s : State) (transport : Fin 2) (image : List Byte),
      s.firmware = true →
      (transport = 0 ∨ s.hostUp = true) →
      s.trust.running = some 0 →
      exec (.pldmFirmwareUpdate transport image) s = .next ({ s with trust := { s.trust with slotB := image } })) ∧
  (∀ (s : State) (transport : Fin 2) (image : List Byte) (s₁ : State),
      s.firmware = true →
      (transport = 0 ∨ s.hostUp = true) →
      s.trust.running ≠ some 0 →
      s₁ = { s with trust := { s.trust with slotA := image } } →
      s₁.trust.recovery = false →
      exec (.pldmFirmwareUpdate transport image) s = .next (s₁))

/-- R472–R478. Response codes follow DSP0274, message bodies and signatures are opaque (log entries 11, 12 and 80). -/
def Obligations.AttestationAndSessionCommandsComplete : Prop :=
  (∀ (s : State) (transport : Fin 2),
      s.firmware = true →
      (transport = 0 ∨ s.hostUp = true) →
      0 ≤ s.trust.spdm.phase →
      exec (.getVersion transport) s = .next ((s.modSpdm fun _ => { phase := 1 }).spdmAnswer 0x04 (Config.spdmBody 0x04 []))) ∧
  (∀ (s : State) (transport : Fin 2),
      s.firmware = true →
      (transport = 0 ∨ s.hostUp = true) →
      1 ≤ s.trust.spdm.phase →
      exec (.getCapabilities transport) s = .next ((s.modSpdm fun x => { x with phase := max x.phase 2 }).spdmAnswer 0x61 (Config.spdmBody 0x61 []))) ∧
  (∀ (s : State) (transport : Fin 2),
      s.firmware = true →
      (transport = 0 ∨ s.hostUp = true) →
      2 ≤ s.trust.spdm.phase →
      exec (.negotiateAlgorithms transport true) s = .next ((s.modSpdm fun x => { x with phase := 3 }).spdmAnswer 0x63 (Config.spdmBody 0x63 []))) ∧
  (∀ (s : State) (transport : Fin 2),
      s.firmware = true →
      (transport = 0 ∨ s.hostUp = true) →
      3 ≤ s.trust.spdm.phase →
      exec (.getDigests transport) s = .next (s.spdmAnswer 0x01 (sha384 s.chain))) ∧
  (∀ (s : State) (transport : Fin 2) (offset len : BitVec 16),
      s.firmware = true →
      (transport = 0 ∨ s.hostUp = true) →
      3 ≤ s.trust.spdm.phase →
      exec (.getCertificate transport 0 offset len) s = .next (s.spdmAnswer 0x02 ((s.chain.drop offset.toNat).take len.toNat))) ∧
  (∀ (s : State) (transport : Fin 2) (nonce : BitVec 256),
      s.firmware = true →
      (transport = 0 ∨ s.hostUp = true) →
      3 ≤ s.trust.spdm.phase →
      exec (.challenge transport 0 nonce) s = .next (s.spdmAnswer 0x03 (Config.aliasSign s.trust.aliasSeed (Config.spdmBody 0x03 (sha384 s.chain ++ natLE 32 nonce.toNat))))) ∧
  (∀ (s : State) (transport : Fin 2) (index : BitVec 8),
      s.firmware = true →
      (transport = 0 ∨ s.hostUp = true) →
      3 ≤ s.trust.spdm.phase →
      1 ≤ index.toNat →
      index.toNat ≤ 8 →
      exec (.getMeasurements transport index) s = .next (s.spdmAnswer 0x60 (s.mreg (index.toNat - 1)))) ∧
  (∀ (s : State) (transport : Fin 2),
      s.firmware = true →
      (transport = 0 ∨ s.hostUp = true) →
      3 ≤ s.trust.spdm.phase →
      exec (.getMeasurements transport 0xFF) s = .next (s.spdmAnswer 0x60 ((List.range 8).map s.mreg).flatten)) ∧
  (∀ (s : State) (transport : Fin 2) (s₁ : State) (r : List Byte),
      s.firmware = true →
      (transport = 0 ∨ s.hostUp = true) →
      3 ≤ s.trust.spdm.phase →
      s.draw 32 = (s₁, r) →
      exec (.keyExchange transport 0) s = .next ((s₁.modSpdm fun x => { x with exchange := true, session := false, qualified := false, updates := 0 }).spdmAnswer 0x64 (Config.spdmBody 0x64 (s₁.trust.aliasSeed ++ r)))) ∧
  (∀ (s : State) (transport : Fin 2) (root : Option (List Byte)) (q : Bool),
      s.firmware = true →
      (transport = 0 ∨ s.hostUp = true) →
      3 ≤ s.trust.spdm.phase →
      s.trust.spdm.exchange = true →
      (q = match root with | some k => s.oprKey.any (· ≠ 0) && sha384 k == s.oprKey | none => false) →
      exec (.finish transport true root) s = .next ((s.modSpdm fun x => { x with exchange := false, session := true, qualified := q }).spdmAnswer 0x65 (Config.spdmBody 0x65 []))) ∧
  (∀ (s : State) (transport : Fin 2),
      s.firmware = true →
      (transport = 0 ∨ s.hostUp = true) →
      3 ≤ s.trust.spdm.phase →
      s.trust.spdm.session = true →
      exec (.heartbeat transport) s = .next (s.spdmAnswer 0x68 [])) ∧
  (∀ (s : State) (transport : Fin 2),
      s.firmware = true →
      (transport = 0 ∨ s.hostUp = true) →
      3 ≤ s.trust.spdm.phase →
      s.trust.spdm.session = true →
      exec (.keyUpdate transport) s = .next ((s.modSpdm fun x => { x with updates := x.updates + 1 }).spdmAnswer 0x69 [])) ∧
  (∀ (s : State) (transport : Fin 2),
      s.firmware = true →
      (transport = 0 ∨ s.hostUp = true) →
      3 ≤ s.trust.spdm.phase →
      s.trust.spdm.session = true →
      exec (.endSession transport) s = .next ((s.modSpdm fun x => { x with session := false, qualified := false }).spdmAnswer 0x6C [])) ∧
  (∀ (s : State) (transport : Fin 2) (ctx : Fin 512) (nonce : BitVec 256),
      s.firmware = true →
      (transport = 0 ∨ s.hostUp = true) →
      3 ≤ s.trust.spdm.phase →
      exec (.getCtxMeasurement transport ctx nonce) s = .next (s.spdmAnswer 0x7E (s.cMeas ctx ++ Config.aliasSign s.trust.aliasSeed (label "NS4-CTXM" ++ natLE 32 nonce.toNat ++ natLE 2 ctx.val ++ s.cMeas ctx)))) ∧
  (∀ (s : State) (transport : Fin 2) (transcript : List Byte),
      s.firmware = true →
      (transport = 0 ∨ s.hostUp = true) →
      3 ≤ s.trust.spdm.phase →
      exec (.pqSign transport transcript) s = .next (s.spdmAnswer 0x7E (Config.aliasSign s.trust.aliasSeed transcript)))

/-- R464–R471, R479–R489. Signature and AEAD functions are opaque (log entries 11 and 81). -/
def Obligations.KeyDebugAndBootCommandsComplete : Prop :=
  (∀ (s : State) (transport : Fin 2),
      s.firmware = true →
      (transport = 0 ∨ s.hostUp = true) →
      3 ≤ s.trust.spdm.phase →
      s.trust.spdm.session = true →
      s.trust.spdm.qualified = true →
      exec (.commitSvn transport) s = .next ((s.setFld R.trustSvn 6 0 (max (s.fld R.trustSvn 6 0) (s.fld R.trustSvn 14 7))).spdmAnswer 0x7E [])) ∧
  (∀ (s : State) (transport : Fin 2) (slice : Fin 4096) (slot : BitVec 8) (gen : BitVec 32) (key : BitVec 256) (s₁ s₂ : State) (salt : List Byte),
      s.firmware = true →
      (transport = 0 ∨ s.hostUp = true) →
      3 ≤ s.trust.spdm.phase →
      s.trust.spdm.session = true →
      s.trust.spdm.qualified = true →
      slot.toNat ≤ 1 →
      s.draw 4 = (s₁, salt) →
      (s₂ = s₁.modFab fun x => { x with keys := x.keys.set {} (2 * slice + slot.toNat) { key := natLE 32 key.toNat, salt := leNat salt } }) →
      exec (.setKey transport slice slot gen key) s = .next (((s₂.setBit (R.sliceselSliceState slice) (1 + slot.toNat) true).wr (R.sliceselSliceGen slice slot.toNat) (gen.setWidth 64)).spdmAnswer 0x7E [])) ∧
  (∀ (s : State) (transport : Fin 2) (slice : Fin 4096) (slot : BitVec 8) (s₁ : State),
      s.firmware = true →
      (transport = 0 ∨ s.hostUp = true) →
      3 ≤ s.trust.spdm.phase →
      s.trust.spdm.session = true →
      s.trust.spdm.qualified = true →
      slot.toNat ≤ 1 →
      s.fld (R.sliceselSliceState slice) 3 3 ≠ slot.toNat →
      (s₁ = s.modFab fun x => { x with keys := x.keys.set {} (2 * slice + slot.toNat) {} }) →
      exec (.clearKey transport slice slot) s = .next (((s₁.setBit (R.sliceselSliceState slice) (1 + slot.toNat) false).wr (R.sliceselSliceGen slice slot.toNat) 0).spdmAnswer 0x7E [])) ∧
  (∀ (s : State) (transport : Fin 2) (slice : Fin 4096) (enc : Bool),
      s.firmware = true →
      (transport = 0 ∨ s.hostUp = true) →
      3 ≤ s.trust.spdm.phase →
      s.trust.spdm.session = true →
      s.trust.spdm.qualified = true →
      s.permit slice = (0, false, false) →
      exec (.setEnc transport slice enc) s = .next ((s.setBit (R.sliceselSliceState slice) 0 enc).spdmAnswer 0x7E [])) ∧
  (∀ (s : State) (transport : Fin 2) (slice : Fin 4096) (slot : BitVec 8) (epoch : BitVec 64) (s₁ : State),
      s.firmware = true →
      (transport = 0 ∨ s.hostUp = true) →
      3 ≤ s.trust.spdm.phase →
      s.trust.spdm.session = true →
      s.trust.spdm.qualified = true →
      slot.toNat ≤ 1 →
      s.slotValid slice slot.toNat = true →
      s.epoch < epoch.toNat →
      (s₁ = s.modFab fun x => { x with armSlots := x.armSlots.set 0 slice slot.toNat }) →
      exec (.armTx transport slice slot epoch) s = .next (((s₁.setBit (R.sliceselSliceState slice) 4 true).wr (R.sliceselSliceArmEpoch slice) epoch).spdmAnswer 0x7E [])) ∧
  (∀ (s : State) (s₁ : State) (bs : List Byte),
      s.draw 32 = (s₁, bs) →
      exec (.dbgNonce) s = .next ((s₁.putBytes R.trustDbgNonce 8 bs).modTrust fun t => { t with nonce := some bs })) ∧
  (∀ (s : State) (transport : Fin 2) (token : List Byte),
      s.firmware = true →
      (transport = 0 ∨ s.hostUp = true) →
      3 ≤ s.trust.spdm.phase →
      token.length = 5464 →
      exec (.debugToken transport token) s = .next ((s.submitToken token).spdmAnswer 0x7E [])) ∧
  (∀ (s : State) (ks : List Nat),
      (ks = (s.regs.filter fun r => 0x1400 ≤ r.1 / 4096 && r.1 / 4096 < 0x1600 && r.1 % 4096 == 0x204).map (·.1)) →
      exec (.dbgLock) s = .next (ks.foldl (fun (st : State) k => st.setBit k 5 false) (s.setBit R.trustLifecycle 2 false))) ∧
  (∀ (s : State) (s₁ : State) (a : Nat) (p q : State × Bool),
      s.start.held = false →
      s.phase = 0 →
      s.firmware = false →
      s.trust.recovery = false →
      (s₁ = (if s.bit R.pwrDomainState 46 then s else s.domainUp 46)) →
      a = s₁.trust.lastGood.getD 0 →
      p = s₁.trySlot a →
      q = p.1.trySlot (1 - a) →
      exec (.secureBoot true) s = .next (if p.2 then p.1 else if q.2 then q.1 else ((q.1.trustRaise 0x9002 0xFF 0xFFFF).modTrust fun t => { t with recovery := true }).setPhase 9)) ∧
  (∀ s : State,
      exec (.bypass) s = .next (s.jtagTo 0 0)) ∧
  (∀ s : State,
      exec (.idcode) s = .next (s.jtagTo 1 0x1A041B73)) ∧
  (∀ (s : State) (pins load : List Bool),
      exec (.samplePreload pins load) s = .next ((s.jtagTo 2 0).modTrust fun t => { t with scan := pins, preload := load })) ∧
  (∀ s : State,
      s.start.scanHold = true →
      exec (.extest) s = .next ((s.jtagTo 3 0).modTrust fun t => { t with extest := true })) ∧
  (∀ s : State,
      s.start.scanHold = false →
      exec (.extest) s = .next (s.jtagTo 0 0))

/-- R490–R506: one clause per command and outcome. A ring starts with its indices at 0; snoops skip nothing (log entries
70 and 71). -/
def Obligations.HostLinkAndRingCommandsComplete : Prop :=
  (∀ (s : State) (cxl : Bool) (width : Fin 17) (speed : Fin 7),
      s.start.held = false →
      s.hostUp = false →
      s.fld R.pwrDomainState 46 46 = 1 →
      linkTrains width speed = true →
      exec (.hostLinkUp cxl width speed) s = .next ((s.wr R.hostStatus (BitVec.ofNat 64 ((if cxl then 3 else 2) + width.val * 4 + speed.val * 128 + (if cxl then 1024 else 0) + s.fld R.hostStatus 11 11 * 2048))).intEvent 503 0)) ∧
  (∀ (s : State) (ring : Fin 64) (value : BitVec 32) (v : Word) (s₁ s₂ : State),
      s.ringEn ring = false →
      v = value.setWidth 64 →
      bits v 0 0 = 1 →
      s₁ = s.wr (R.hostRingCfg ring) (ringFields (s.rd (R.hostRingCfg ring)) v) →
      s₁.ringOk ring = true →
      s₂ = (s₁.setBit (R.hostRingCfg ring) 0 true).setRing ring {} →
      exec (.ringEnable ring value) s = .next ((s₂.setFld (R.hostRingState ring) 1 0 0).setBit (R.hostRingState ring) 2 s₂.hostCxl)) ∧
  (∀ (s : State) (ring : Fin 64),
      s.hostCxl = false →
      s.ringEn ring = true →
      exec (.doorbell ring) s = .next (s.setBit (R.hostRingState ring) 2 true)) ∧
  (∀ (s : State) (ring : Fin 64) (s₁ s₂ : State),
      s.ringEn ring = true →
      s.hostUp = true →
      (s.ring ring).busy = false →
      s.bit (R.hostRingState ring) 2 = true →
      s.bit R.hostStatus 11 = false →
      (s₁ = (s.setBit (R.hostRingState ring) 2 false).modRing ring fun x => { x with busy := true }) →
      s₁.hostCxl = false →
      s₁.hostRead 2 ring (s₁.ringIdx ring) 64 false = some s₂ →
      exec (.ringIndexRead ring) s = .next (s₂)) ∧
  (∀ (s : State) (ring : Fin 64),
      s.ringEn ring = true →
      s.hostUp = true →
      (s.ring ring).dirty = true →
      exec (.ringIndexWrite ring) s = .next (s.writeIndex ring)) ∧
  (∀ (s : State) (ring : Fin 64),
      s.ringEn ring = true →
      s.ringD2h ring = false →
      s.bit (R.hostRingState ring) 0 = true →
      s.bit R.hostStatus 11 = false →
      exec (.h2dCardRetry ring) s = .next (s.offerMore ring (s.ring ring).cards)) ∧
  (∀ (s : State) (ring : Fin 64) (s₁ : State),
      s.ringEn ring = true →
      s.hostUp = true →
      (s.ring ring).retry = true →
      (s₁ = s.modRing ring fun x => { x with retry := false }) →
      (s.ring ring).waiting ≠ 0 →
      s₁.ringD2h ring = false →
      exec (.ringReadRetry ring) s = .next (s₁.readCards ring)) ∧
  (∀ (s : State) (ring : Fin 64) (s₁ : State) (c : Card),
      s.ringEn ring = true →
      s.ringD2h ring = true →
      s.hostUp = true →
      (s.ring ring).busy = false →
      s.bit R.hostStatus 11 = false →
      ((s.ring ring).own - (s.ring ring).host).toNat < s.ringDepth ring →
      s.qEmpty (s.ringQueue ring) = false →
      s.dequeue .host (some (s.ringCtx ring)) (s.ringQueue ring) (s.ringOther ring) = (s₁, .card c) →
      exec (.d2hCard ring 0) s = .next (s₁.writeCard ring (s.ring ring).own.toNat c)) ∧
  (∀ (s : State) (ring : Fin 64),
      s.ringEn ring = true →
      (s.ring ring).unsignalled ≠ 0 →
      s.fld (R.hostRingIrq ring) 31 20 ≠ 0 →
      s.bit (R.hostRingIrq ring) 11 = true →
      exec (.ringInterrupt ring) s = .next ((s.advanceTo ((s.ring ring).since + 1600 * s.fld (R.hostRingIrq ring) 31 20)).ringSignal ring)) ∧
  (∀ (s : State) (tag : Fin 1024) (g : HostTag) (data : List Byte),
      s.hostTag tag = some g →
      g.quarantined = false →
      data.length = g.len →
      exec (.hostCompletion tag 0 false data) s = .next ((s.closeHostTag tag).hostDelivered g data)) ∧
  (∀ (s : State) (tag : Fin 1024) (status : Fin 3) (ep : Bool) (data : List Byte) (g : HostTag),
      s.hostTag tag = some g →
      g.quarantined = false →
      (status ≠ 0 ∨ ep = true) →
      exec (.hostCompletion tag status ep data) s = .next ((((s.closeHostTag tag).intEvent 503 1).hostRaise (if status = 0 then 0xA004 else 0xA003) g.requester tag g.addr (s.hostCtx g)).hostFailed g)) ∧
  (∀ (s : State) (tag : Fin 1024) (status : Fin 3) (ep : Bool) (data : List Byte) (g : HostTag),
      s.hostTag tag = some g →
      g.quarantined = true →
      exec (.hostCompletion tag status ep data) s = .next ((s.count R.hostLateCplCnt 1).modHost fun h => { h with aerUnexpected := h.aerUnexpected + 1 })) ∧
  (∀ (s : State) (tag : Fin 1024) (g : HostTag),
      s.hostTag tag = some g →
      g.quarantined = false →
      exec (.hostCplTimeout tag) s = .next (((((s.quarantineTag tag).count R.hostCplTimeoutCnt 1).intEvent 503 1).hostRaise 0xA002 g.requester tag g.addr ((((s.quarantineTag tag).count R.hostCplTimeoutCnt 1).intEvent 503 1).hostCtx g)).hostFailed g)) ∧
  (∀ (s : State) (line : BitVec 64) (low high : BitVec 256) (q : CxlReq) (s₁ : State),
      (s.host.reqs.find? (fun q => q.line == line.toNat) = some q) →
      (s₁ = s.modHost fun h => { h with reqs := h.reqs.erase q }) →
      s₁.ringEn q.ring = true →
      q.kind = 0 →
      exec (.cxlCacheResponse line low high) s = .next ((s₁.putLine q.line { st := 1, data := high ++ low, pinned := true }).hostIndex q.ring (BitVec.ofNat 32 (leNat (natLE 4 (high ++ low).toNat))))) ∧
  (∀ (s : State) (line : BitVec 64),
      exec (.snpdata line) s = .next (s.snoop 0 line.toNat)) ∧
  (∀ (s : State) (line : BitVec 64),
      exec (.snpcur line) s = .next (s.snoop 2 line.toNat)) ∧
  (∀ (s : State) (line : BitVec 64) (r : Nat),
      s.hostCxl = true →
      s.indexRing line.toNat = some r →
      exec (.snpinv line) s = .next ((s.snoop 1 line.toNat).doorbell r)) ∧
  (∀ (s : State) (line : BitVec 64),
      s.hostCxl = true →
      s.indexRing line.toNat = none →
      exec (.snpinv line) s = .next (s.snoop 1 line.toNat)) ∧
  (∀ (s : State) (line : BitVec 64) (e : Evict) (s₁ : State),
      s.evicting line.toNat = some e →
      (s₁ = s.modHost fun h => { h with evicts := h.evicts.erase e }) →
      exec (.goWritepull line) s = .next ((s₁.modHost fun h => { h with out := h.out ++ [(line.toNat, natLE 64 e.data.toNat)] }).evictLeaving.cxlRetry)) ∧
  (∀ (s : State) (line : BitVec 64) (e : Evict) (s₁ : State),
      s.evicting line.toNat = some e →
      (s₁ = s.modHost fun h => { h with evicts := h.evicts.erase e }) →
      exec (.goWritepulldrop line) s = .next (s₁.evictLeaving.cxlRetry)) ∧
  (∀ (s : State) (line : BitVec 64) (e : Evict) (s₁ s₂ : State),
      s.evicting line.toNat = some e →
      (s₁ = s.modHost fun h => { h with evicts := h.evicts.erase e }) →
      (s₂ = s₁.modHost fun h => { h with out := h.out ++ [(line.toNat, natLE 64 e.data.toNat)] }) →
      exec (.goErrWritepull line) s = .next (((s₂.intEvent 503 3).hostRaise 0xA006 2 0xFFFF line.toNat).evictLeaving.cxlRetry)) ∧
  (∀ (s : State) (vector : Fin 2048) (entry : BitVec 128),
      s.hostUp = true →
      exec (.msiXUnmask vector entry) s = .next (s.msixEntry vector entry)) ∧
  (∀ s : State,
      s.hostUp = true →
      exec (.hostLinkDown) s = .next (s.linkDown))

/-- R508–R511, R515–R535: one clause per command. Phase times and the board description are operands (log entries 4, 86
and 87). -/
def Obligations.ResetAndStartupCommandsComplete : Prop :=
  (∀ s : State,
      exec (.powerOnReset) s = .next ((s.resetTo 0 1).holdReset false)) ∧
  (∀ (s : State) (source : Fin 3),
      s.starting = false →
      exec (.coldReset source) s = .next ((s.resetTo 1 (2 + source)).holdReset (source.val == 0))) ∧
  (∀ (s : State) (source : Fin 3),
      s.starting = true →
      2 ≤ s.fld R.mgtResetCause 2 0 →
      exec (.coldReset source) s = .next ((s.resetTo 1 (2 + source)).holdReset (source.val == 0))) ∧
  (∀ (s : State) (source : Fin 3),
      s.starting = true →
      s.fld R.mgtResetCause 2 0 ≤ 1 →
      exec (.coldReset source) s = .next ((s.resetTo 0 (s.fld R.mgtResetCause 2 0)).holdReset (source.val == 0))) ∧
  (∀ (s : State) (preset : Fin 8) (addr : Fin 4) (verified : Bool) (s₁ : State),
      (s₁ = if s.fld R.mgtRecState 1 0 = 3 then s else s.ledgerWrite verified) →
      s₁.starting = false →
      s₁.hotSensor = false →
      exec (.warmReset preset addr verified) s = .next ((s₁.resetTo 2 5).latchStraps preset.val addr.val)) ∧
  (∀ (s : State) (preset : Fin 8) (addr : Fin 4) (verified : Bool) (s₁ : State),
      (s₁ = if s.fld R.mgtRecState 1 0 = 3 then s else s.ledgerWrite verified) →
      s₁.hotSensor = true →
      exec (.warmReset preset addr verified) s = .next (((s₁.resetTo (s₁.resetKind 2 5).1 (s₁.resetKind 2 5).2).latchStraps preset.val addr.val).thermalHold)) ∧
  (∀ (s : State) (s₁ : State),
      (s₁ = { s.linkDown with regs := s.linkDown.regs.filter (fun e => !hostResets e.1) }) →
      exec (.hostReset) s = .next (s₁.modHost fun h => { h with msix := [], pba := [], rings := [], snoop := none, aerInternal := false, aerUnexpected := 0, cpl := none })) ∧
  (∀ (s : State) (preset : Fin 8) (addr : Fin 4) (readings : List Nat) (s₁ : State),
      s.start.held = true →
      s.phase ≠ 8 →
      ((readings.any fun r => decide (880 ≤ r)) = false) →
      s₁ = ({ s with start := { s.start with armed := true } } : State).latchStraps preset.val addr.val →
      exec (.resetRelease preset addr readings) s = .next (({ s₁ with start := { s₁.start with held := false, scanHold := false } } : State).modPower fun p => { p with trip := false })) ∧
  (∀ (s : State) (preset : Fin 8) (addr : Fin 4) (readings : List Nat) (s₁ : State),
      s.start.held = true →
      s.phase ≠ 8 →
      ((readings.any fun r => decide (880 ≤ r)) = true) →
      s₁ = ({ s with start := { s.start with armed := true } } : State).latchStraps preset.val addr.val →
      exec (.resetRelease preset addr readings) s = .next s₁.thermalHold) ∧
  (∀ (s : State) (s₁ : State),
      s.phase = 8 →
      s₁ = { s with start := { s.start with held := false, scanHold := false } } →
      exec (.thermalHoldEnd) s = .next (((s₁.modPower fun p => { p with trip := false }).setPhase 0).setBit R.mgtResetCause 3 true)) ∧
  (∀ s : State,
      s.start.held = false →
      exec (.rootLock) s = .next (((s.setBit R.clkPllStatus 0 true).setBit R.clkPllStatus 1 false).setBit R.clkPllStatus 2 true)) ∧
  (∀ (s : State) (us : BitVec 32),
      s.start.held = false →
      s.phase = 0 →
      s.firmware = true →
      exec (.phaseRom us) s = .next (s.endPhase 0 us)) ∧
  (∀ (s : State) (us : BitVec 32) (board : BoardDesc) (s₁ s₂ s₃ s₄ s₅ : State),
      s.phase = 1 →
      s.bit R.clkPllStatus 0 = true →
      board.checksum = true →
      s₁ = { s with start := { s.start with board } } →
      s₂ = (s₁.loadLedger.extend 1 (Config.measured 1 [board.bytes, (board.portMap.getD []).map (BitVec.ofNat 8 ·), natLE 2 (s₁.start.preset + 8 * s₁.start.mgtAddr)])).countReset →
      (s₃ = ((s₂.setBit R.trustAccess 0 board.hostPriv).setBit R.trustAccess 1 board.fabricMgmt).putBytes (fun w => R.trustSysKey (w / 24) (w % 24)) 48 (fitBytes 192 board.sysKeys)) →
      s₄ = (s₃.setFld R.trustSysKeyEn 1 0 (board.sysKeyEn % 4)).putBytes R.trustOprKey 12 (fitBytes 48 board.oprKey) →
      s₅ = s₄.extend 3 (Config.measured 3 [natLE 4 (s₄.rd R.trustAccess).toNat, s₄.regBytes R.trustOprKey 12, s₄.regBytes (R.trustSysKey 0) 24 ++ s₄.regBytes (R.trustSysKey 1) 24, natLE 1 (s₄.rd R.trustSysKeyEn).toNat]) →
      exec (.phaseFirmware us board) s = .next ((s₅.setBit (R.hdrLock 502) 0 true).endPhase 1 us)) ∧
  (∀ (s : State) (us : BitVec 32),
      s.phase = 2 →
      exec (.phaseUncore us true) s = .next (((s.domainUp 40).domainUp 41).endPhase 2 us)) ∧
  (∀ (s : State) (us : BitVec 32) (qm0 qm1 : Bool) (failing : List (Fin 8 × Fin 290 × List (Fin 16384) × Fin 65)) (kept : List Nat),
      s.phase = 3 →
      s.fld R.mgtResetCause 2 0 = 5 →
      (kept = [0, 1, 2, 3, 4, 5, 6, 7].flatMap fun t => [R.smemSpareBank t 0, R.smemSpareBank t 1, R.smemSpareRowMin t]) →
      exec (.phaseMemory us failing qm0 qm1) s = .next ((s.keepRegs ((List.range 8).foldl (fun (st : State) t => st.domainUp (32 + t)) s) kept).endPhase 3 us)) ∧
  (∀ (s : State) (us : BitVec 32) (s₁ : State),
      s.phase = 3 →
      s.fld R.mgtResetCause 2 0 ≠ 5 →
      (s₁ = (List.range 8).foldl (fun (st : State) k => st.showSpares k) ((List.range 8).foldl (fun (st : State) t => st.domainUp (32 + t)) s)) →
      s₁.phase ≠ 10 →
      exec (.phaseMemory us [] true true) s = .next (s₁.endPhase 3 us)) ∧
  (∀ (s : State) (us : BitVec 32) (slots : List (Fin 160)) (cols : List (Fin 128 × Fin 4 × Fin 64)) (maps : List Nat) (s₁ s₂ s₃ s₄ : State),
      s.phase = 4 →
      s.fld R.mgtResetCause 2 0 = 5 →
      (maps = (List.range 128).flatMap fun c => (List.range 4).map (R.coreArrColmap c)) →
      (s₁ = s.keepRegs ((List.range 32).foldl (fun (st : State) d => st.domainUp d) s) maps) →
      (s₂ = ((List.range 171).foldl (fun (st : State) u => if st.unitOut u then st else st.setUnit u 0 none) s₁).enableUnitQueues.startSummary 0) →
      s₃ = s₂.wr R.clkCclkMax (BitVec.ofNat 64 (min 4 s₂.start.board.cclkMax)) →
      s₄ = { s₃ with start := { s₃.start with freed := true } } →
      exec (.phaseCores us slots cols) s = .next (((((s₄.demand 0 (s₄.fld R.clkCclkMax 2 0)).vmaxDemand).applyLimits).endPhase 4 us).dividePorts)) ∧
  (∀ (s : State) (us : BitVec 32) (failed : Nat) (s₁ s₂ s₃ : State),
      s.phase = 5 →
      (List.range 32).any s.training = false →
      (failed = ((List.range 32).filter fun p => s.bit (R.lnkPortCfg p) 0 && s.portState p != 5).length) →
      s₁ = s.setFld R.mgtStartSummary 29 24 failed →
      (s₂ = if failed ≠ 0 then s₁.setBit R.mgtStartStatus 4 true else s₁) →
      s₃ = (s₂.wr R.mgtStartTime (us.setWidth 64)).endPhase 5 us →
      exec (.phaseLinks us) s = .next ({ s₃ with start := { s₃.start with ready := true } })) ∧
  (∀ (s : State) (s₁ s₂ : State),
      s₁ = (s.setBit R.hostQstopStatus 0 true).setBit R.hostQstopStatus 1 true →
      (s₂ = s₁.modHost fun h => { h with disagree := false }) →
      s₂.qstopFault = false →
      s₂.quiesced = false →
      exec (.qstopLevelChange true true) s = .next ((s₂.quiesce.intEvent 503 4).hostRaise 0xA007 0xFF 0xFFFF 0)) ∧
  (∀ (s : State) (s₁ s₂ : State),
      s.host.disagree = false →
      s₁ = (s.setBit R.hostQstopStatus 0 false).setBit R.hostQstopStatus 1 false →
      (s₂ = s₁.modHost fun h => { h with disagree := false }) →
      s₂.quiesced = true →
      s₂.qstopFault = false →
      exec (.qstopLevelChange false false) s = .next (s₂.quiesceEnd)) ∧
  (∀ (s : State) (a b : Bool) (s₁ : State),
      a ≠ b →
      s.bit R.hostQstopStatus 0 = s.bit R.hostQstopStatus 1 →
      s₁ = (s.setBit R.hostQstopStatus 0 a).setBit R.hostQstopStatus 1 b →
      exec (.qstopLevelChange a b) s = .next (s₁.modHost fun h => { h with disagree := true })) ∧
  (∀ (s : State) (s₁ s₂ : State),
      s.host.disagree = true →
      (s₁ = (s.modHost fun h => { h with disagree := false }).setBit R.hostQstopStatus 4 true) →
      s₂ = ((s₁.count R.hostQstopFaultCnt 1).intEvent 503 4).hostRaise 0xA008 0xFF 0xFFFF 0 →
      exec (.qstopInputFault) s = .next (if s₂.quiesced then s₂ else s₂.quiesce)) ∧
  (∀ (s : State) (verified : Bool),
      s.portsQuiet = true →
      s.bit R.hostQstopStatus 3 = false →
      s.ownFlitsGone = true →
      exec (.qstopRdy verified) s = .next ((s.setBit R.hostQstopStatus 3 true).ledgerWrite verified)) ∧
  (∀ s : State,
      s.qstopFault = true →
      s.bit R.hostQstopStatus 0 = false →
      s.bit R.hostQstopStatus 1 = false →
      exec (.faultClear) s = .next ((s.setBit R.hostQstopStatus 4 false).quiesceEnd))

/-- The model of a block: commands wait first in, first out (log entry 1). -/
def Obligations.StepPerformsTheFrontCommand : Prop :=
  ∀ (s : State) (c : Instr) (rest : List Instr), step { s with pending := c :: rest } = exec c { s with pending := rest }

/-- DESIGN CHOICE of log entry 2: the table has no row for a clock tick. -/
def Obligations.EmptyQueueIdles : Prop :=
  ∀ s : State, s.pending = [] → step s = .next s

/-- R534 and the table of reset values: everything not listed reads as its reset value; memory nothing has written reads
0 (log entries 7 and 8). -/
def Obligations.ResetHoldsTheInvariant : Prop :=
  State.reset.memOk ∧ State.reset.pending = [] ∧ State.reset.mem = [] ∧ State.reset.spad = [] ∧ State.reset.cores = [] ∧ State.reset.jobs = [] ∧ State.reset.flog = []

/-- R14, R424 and the Reset columns of the field tables. -/
def Obligations.ResetValuesOfTheRegisters : Prop :=
  State.reset.rd R.pwrPSust = 1600 ∧ (∀ p < 32, State.reset.rd (R.podSlotMap p) = 0x4688) ∧ (∀ u < 171, State.reset.unitState u = 3) ∧
    (∀ x < 512, State.reset.ctxState x = 0) ∧ (∀ i < 128, State.reset.poolEn i = false) ∧ (∀ q < 4, State.reset.seqState q = 0) ∧
    (∀ p < 32, State.reset.portState p = 0) ∧ State.reset.fld R.mgtRecState 1 0 = 0 ∧ State.reset.rd R.fabEpochCfg = 24 ∧
    State.reset.rd R.pwrThrottleTemp = 105 ∧ State.reset.phase = 0 ∧ State.reset.start.ready = false

/-- No meaning stops: the manual gives every command of the table an effect, a report or a refusal that the machine
itself goes on from (R7). -/
def Obligations.EveryStepCompletes : Prop :=
  ∀ s : State, s.memOk → s.safe

/-- The one canonical form of memory makes equal memories equal data; this is the invariant the other statements assume. -/
def Obligations.StepsKeepTheCanonicalForm : Prop :=
  ∀ s t : State, s.memOk → step s = .next t → t.memOk

/-- R466, R482: the fuses are written in manufacturing; commands wait first in, first out (log entries 1 and 8). The SVN
counter, which COMMIT_SVN advances, is the TRUST.SVN register and not part of this array in the model. -/
def Obligations.StepsTakeOneCommandAndKeepTheFuses : Prop :=
  ∀ s t : State, s.memOk → step s = .next t → t.pending = s.pending.tail ∧ t.trust.fuses = s.trust.fuses

/-- R190, R210: a read returns what was written last. -/
def Obligations.StageMemoryReadsBackWhatWasWritten : Prop :=
  (∀ (s : State) (a : Nat) (bs : List Byte), s.memOk →
      (∀ i : Fin bs.length, Tab.get 0 (s.memWrite a bs).mem (a + i) = bs[i]) ∧
      ∀ x, x < a ∨ a + bs.length ≤ x → Tab.get 0 (s.memWrite a bs).mem x = Tab.get 0 s.mem x) ∧
    (∀ (s : State) (c a : Nat) (b : Byte), s.memOk → a < 524288 →
      (s.spadWrite c a [b]).spad.get 0 (spadKey c a) = b ∧
      ∀ d x, x < 524288 → (d ≠ c ∨ x ≠ a) → (s.spadWrite c a [b]).spad.get 0 (spadKey d x) = Tab.get 0 s.spad (spadKey d x))

/-- R211, R212: the zero fill when a granule is given to a context. -/
def Obligations.GranuleFillClearsExactlyTheGranule : Prop :=
  ∀ (s : State) (granule : Fin 512) (value : Word), s.memOk → bits value 11 10 ≠ 3 →
    (s.granValid granule && s.ctxBusy (s.granOwner granule)) = false → bits value 9 9 = 1 → s.ctxBusy (bits value 8 0) = false →
    (∀ t < 4, s.bit R.pwrDomainState (32 + granule.val / 256 * 4 + t) = true) →
    (s.granValid granule = false ∨ s.granOwner granule ≠ bits value 8 0 ∨ s.granClass granule ≠ bits value 11 10) →
    ∃ t, exec (.granuleWrite granule value) s = .next t ∧
      (∀ a, granule.val * 2 ^ 25 ≤ a → a < (granule.val + 1) * 2 ^ 25 → Tab.get 0 t.mem a = 0 ∧ t.smem.ecc.get 0 a = 0) ∧
      ∀ a, a < granule.val * 2 ^ 25 ∨ (granule.val + 1) * 2 ^ 25 ≤ a → Tab.get 0 t.mem a = Tab.get 0 s.mem a

/-- R280: STS moves one 8-aligned word; frames of STS and LDS. -/
def Obligations.StsStoresEightBytesAndNoOther : Prop :=
  (∀ (s : State) (q : Fin 4) (a : Nat) (w : BitVec 32), s.memOk → w = s.seqWord q → s.seqReady q 0x0C = true →
      a = ((s.seqBegin q 0x0C).g q (swB w) + swImm18 w).toNat → a % 8 = 0 → (s.seqBegin q 0x0C).seqReach q a 8 = true →
      (s.seqBegin q 0x0C).seqWaits q a 8 = false →
      ∃ t, exec (.sts q) s = .next t ∧
        (∀ i : Fin 8, Tab.get 0 t.mem (a + i) = BitVec.ofNat 8 (((s.seqBegin q 0x0C).g q (swA w)).toNat / 256 ^ i.val)) ∧
        (∀ x, x < a ∨ a + 8 ≤ x → Tab.get 0 t.mem x = Tab.get 0 s.mem x) ∧ t.spad = s.spad ∧ t.cores = s.cores) ∧
    (∀ (s t : State) (q : Fin 4) (us : List Upset), exec (.lds q us) s = .next t → s.seqReady q 0x0B = true →
      ((s.seqBegin q 0x0B).g q (swB (s.seqWord q)) + swImm18 (s.seqWord q)).toNat % 8 = 0 →
      (s.seqBegin q 0x0B).seqReach q ((s.seqBegin q 0x0B).g q (swB (s.seqWord q)) + swImm18 (s.seqWord q)).toNat 8 = true →
      (((s.seqBegin q 0x0B).memUpset us).seqRead q ((s.seqBegin q 0x0B).g q (swB (s.seqWord q)) + swImm18 (s.seqWord q)).toNat).2 ≠ none →
      t.mem = s.mem ∧ t.spad = s.spad)

/-- R239, clause by clause; a card that is enqueued is not zero (R242). -/
def Obligations.QueueRingRule : Prop :=
  (∀ (s : State) (q : Nat), s.memOk → s.qEn q = false → s.queueEnableOk q = true →
      (s.queueOn q).qEn q = true ∧ (s.queueOn q).qWr q = 0 ∧ (s.queueOn q).qRd q = 0 ∧ 4 ≤ (s.queueOn q).qLog q ∧ (s.queueOn q).qLog q ≤ 12) ∧
    ∀ (s : State) (q : Nat), s.memOk → 4 ≤ s.qLog q → s.qLog q ≤ 12 → s.qWr q < 2 * s.qDepth q → s.qRd q < 2 * s.qDepth q →
    s.qDepth q = 2 ^ s.qLog q ∧ 16 ≤ s.qDepth q ∧ s.qDepth q ≤ 4096 ∧
    (∀ n, s.qSlot q n = s.qBase q + n % s.qDepth q) ∧
    (s.qEmpty q = true ↔ s.qWr q = s.qRd q) ∧
    (s.qFull q = true ↔ s.qWr q % s.qDepth q = s.qRd q % s.qDepth q ∧ s.qWr q / s.qDepth q ≠ s.qRd q / s.qDepth q) ∧
    (∀ c : Card, c ≠ 0 →
      (s.qPush q c).qm.store.get 0 (s.qSlot q (s.qWr q)) = c ∧
      (∀ k, k ≠ s.qSlot q (s.qWr q) → (s.qPush q c).qm.store.get 0 k = s.qm.store.get 0 k) ∧
      (s.qPush q c).qWr q = (s.qWr q + 1) % (2 * s.qDepth q) ∧ (s.qPush q c).qRd q = s.qRd q) ∧
    (s.qCards q).head? = (if s.qWr q = s.qRd q then none else some (s.qm.store.get 0 (s.qSlot q (s.qRd q)))) ∧
    (s.qPop q).qRd q = (s.qRd q + 1) % (2 * s.qDepth q) ∧ (s.qPop q).qWr q = s.qWr q ∧ (s.qPop q).qm.store = s.qm.store

/-- R242, R244. -/
def Obligations.IdleCardIsNeverEnqueued : Prop :=
  Card.get idleCard 4 4 = 0xFFFFFFFF ∧ (∀ b < 64, b < 4 ∨ 8 ≤ b → Card.get idleCard b 1 = 0) ∧
    ∀ (s : State) (a : Agent) (ctx : Option Nat) (q : Nat) (c : Card), c.tag = 0 →
      s.offer a ctx q c = (s.cardEvent 0x4001 (some c.ctx) (some q) c, .tag)

/-- R283, clause by clause. -/
def Obligations.CardInstructionRule : Prop :=
  (∀ (s s₁ : State) (q : Fin 4) (w : BitVec 32), w = s.seqWord q → s.seqReady q 0x1A = true → s₁ = s.seqBegin q 0x1A →
      bits w 9 4 + 2 ^ bits w 3 2 ≤ 64 →
      exec (.cget q) s = .next (s₁.seqPut q w (BitVec.ofNat 64 (leNat ((List.range (2 ^ bits w 3 2)).map fun i =>
        BitVec.ofNat 8 (Card.get (s₁.seqCard q (swN w)) (bits w 9 4 + i) 1)))))) ∧
    (∀ (s s₁ : State) (q : Fin 4) (w : BitVec 32) (c : Card) (v : Word), w = s.seqWord q → s.seqReady q 0x1B = true → s₁ = s.seqBegin q 0x1B →
      c = s₁.seqCard q (swN w) → v = s₁.g q (swB w) → bits w 9 4 + 2 ^ bits w 3 2 ≤ 64 →
      ∃ d : Card, exec (.cput q) s = .next ((s₁.setSeqCard q (swN w) d).seqNext q) ∧
        ∀ k < 64, Card.get d k 1 = if bits w 9 4 ≤ k ∧ k < bits w 9 4 + 2 ^ bits w 3 2 then v.toNat / 256 ^ (k - bits w 9 4) % 256 else Card.get c k 1) ∧
    (∀ (s s₁ : State) (q : Fin 4) (w : BitVec 32), w = s.seqWord q → s.seqReady q 0x1C = true → s₁ = s.seqBegin q 0x1C → bits w 0 0 = 0 →
      exec (.cclr q) s = .next (((s₁.setSeqCard q (swN w) 0).setOrigin q (swN w) 0xFFF).seqNext q)) ∧
    (∀ (s s₁ : State) (q : Fin 4) (w : BitVec 32), w = s.seqWord q → s.seqReady q 0x1C = true → s₁ = s.seqBegin q 0x1C → bits w 0 0 = 1 →
      exec (.ccopy q) s = .next (((s₁.setSeqCard q (swN w) (s₁.seqCard q (swM w))).setOrigin q (swN w) (s₁.seqOrigin q (swM w))).seqNext q)) ∧
    (∀ (n level : Nat) (tails : List Bool) (w : BitVec 32), (swOp w = 0x1A ∨ swOp w = 0x1B) →
      (bits w 9 4 % 2 ^ bits w 3 2 ≠ 0 ∨ 64 < bits w 9 4 + 2 ^ bits w 3 2) → 0x030B ∈ wordBad n tails level w)

/-- R225, clause by clause; a write of EN = 0 disables the pool (R227). -/
def Obligations.PoolEnableRule : Prop :=
  (∀ (s : State) (i : Fin 128), s.memOk → s.poolEn i = false →
      (s.poolEnableOk i = true ↔ s.poolBase i % s.slotSize i = 0 ∧ s.poolBase i + s.poolSlots i * s.slotSize i ≤ smSize ∧
        ∀ g ∈ granulesOf (s.poolBase i) (s.poolSlots i * s.slotSize i), s.granValid g = true ∧ s.granOwner g = s.poolCtx i ∧ s.granClass g = 2) ∧
      (s.poolOn i).poolEn i = s.poolEnableOk i ∧
      (s.poolEnableOk i = false → (s.poolOn i).bit R.smemcStatus 1 = true)) ∧
    (∀ (s : State) (ag : Nat) (h : RegHit) (w m : Word), s.poolEn (64 * (h.home - 393) + h.i) = true →
      (h.row.off = 0x100 → bits (s.merged h w m) 0 0 = 1) → s.poolWrite ag h w m = s)

/-- Frames of R277–R283: what these instructions do not change. -/
def Obligations.SequencerInstructionsTouchOnlyTheirSequencer : Prop :=
  ∀ (s t : State) (q : Fin 4) (c : Instr), s.memOk → Tab.wf {} s.seqs = true →
    c ∈ [.nop q, .alu q, .addi q, .stgLi q, .liw q, .stgCall q, .stgRet q, .time q, .tset q, .ewait q, .cget q, .cput q, .cclr q, .ccopy q] → exec c s = .next t →
    t.mem = s.mem ∧ t.spad = s.spad ∧ t.cores = s.cores ∧ t.jobs = s.jobs ∧ t.progs = s.progs ∧ t.qm = s.qm ∧ t.flog = s.flog ∧
    t.smem = s.smem ∧ t.fab = s.fab ∧ t.ports = s.ports ∧ t.carts = s.carts ∧ t.host = s.host ∧ t.trust = s.trust ∧ t.start = s.start ∧
    (∀ r : Fin 4, r ≠ q → t.seq r = s.seq r) ∧ Tab.wf {} t.seqs = true

/-- R472–R479: requests for evidence change no evidence. -/
def Obligations.AttestationAnswersChangeNoOtherState : Prop :=
  ∀ (s t : State) (tr : Fin 2) (b : Bool) (slot : Fin 8) (o l : BitVec 16) (nc : BitVec 256) (ix : BitVec 8) (rt : Option (List Byte)) (x : Fin 512) (ts : List Byte) (c : Instr),
    c ∈ [.getVersion tr, .getCapabilities tr, .negotiateAlgorithms tr b, .getDigests tr, .getCertificate tr slot o l, .challenge tr slot nc, .getMeasurements tr ix, .keyExchange tr slot, .finish tr b rt, .heartbeat tr, .keyUpdate tr, .endSession tr, .getCtxMeasurement tr x nc, .pqSign tr ts] →
    exec c s = .next t → ∃ (z : Spdm) (n : Nat), t = { s with freeCtr := n, trust := { s.trust with spdm := z } }

/-- R113, R114, R117 step 3, R118. -/
def Obligations.SignalsAddToTheirFlagAlone : Prop :=
  ∀ (s : State) (c f n : Nat), s.memOk → c < 128 → f < 96 →
    (s.flag c f + n ≤ 65535 → (s.signal c f n).flag c f = s.flag c f + n ∧
      (∀ g, g < 96 → g ≠ f → (s.signal c f n).flag c g = s.flag c g) ∧ (s.signal c f n).mem = s.mem ∧ (s.signal c f n).spad = s.spad) ∧
    (65535 < s.flag c f + n → s.signal c f n = s.coreFault c 0x2002 [(1, f), (2, s.flag c f), (4, n)])

/-- R11 and Table 0-9 for RW, RO, W1C, W1S and RWL. -/
def Obligations.RegisterWritesFollowTheAccessCodes : Prop :=
  (∀ (s : State) (h : RegHit) (w m : Word), s.memOk →
      (h.row.rw &&& h.row.w1c = 0 ∧ h.row.rw &&& h.row.w1s = 0 ∧ h.row.w1c &&& h.row.w1s = 0 ∧ h.row.rwl &&& (h.row.rw ||| h.row.w1c ||| h.row.w1s) = 0) →
      (∀ i < 64, ((s.plain h w m).rd h.key).getLsbD i =
        if (h.row.rw.testBit i || (h.row.rwl.testBit i && !s.bit (R.hdrLock h.pg) 0)) && m.getLsbD i then w.getLsbD i
        else if h.row.w1c.testBit i && w.getLsbD i && m.getLsbD i then false
        else if h.row.w1s.testBit i && w.getLsbD i && m.getLsbD i then true
        else (s.rd h.key).getLsbD i) ∧
      ∀ k, k ≠ h.key → (s.plain h w m).rd k = s.rd k) ∧
    (∀ r ∈ rowsUd ++ rowsCore ++ rowsPod ++ rowsHalf ++ rowsMgt ++ rowsSpad ++ rowsSmem ++ rowsSmemc ++ rowsPool ++ rowsQm ++ rowsStg ++ rowsCol ++ rowsLnk ++ rowsCart ++ rowsFab ++ rowsCtx ++ rowsPwr ++ rowsClk ++ rowsObs ++ rowsLedg ++ rowsTrust ++ rowsHost ++ rowsHdr ++ rowsCtxsel ++ rowsObssel ++ rowsTrustsel ++ rowsWdsel ++ rowsQsel ++ rowsSlicesel,
      r.rw &&& r.w1c = 0 ∧ r.rw &&& r.w1s = 0 ∧ r.w1c &&& r.w1s = 0 ∧ r.rwl &&& (r.rw ||| r.w1c ||| r.w1s) = 0)

/-- R554–R557: an event, INT_FORCE included, sets a bit and records nothing. -/
def Obligations.InterruptEventsSetTheirStatusBit : Prop :=
  ∀ (s : State) (pg i : Nat), s.memOk → i < 64 →
    (s.intEvent pg i).bit (R.hdrIntStatus pg) i = true ∧
    (∀ j < 64, j ≠ i → (s.intEvent pg i).bit (R.hdrIntStatus pg) j = s.bit (R.hdrIntStatus pg) j) ∧
    (∀ k, k ≠ R.hdrIntStatus pg → (s.intEvent pg i).rd k = s.rd k) ∧
    (s.intEvent pg i).mem = s.mem ∧ (s.intEvent pg i).spad = s.spad ∧ (s.intEvent pg i).qm = s.qm ∧
    (s.intEvent pg i).cores = s.cores ∧ (s.intEvent pg i).jobs = s.jobs ∧ (s.intEvent pg i).flog = s.flog

/-- R389: the latest 1,024 records, SEQ counting up. -/
def Obligations.FaultLogKeepsTheLatestRecords : Prop :=
  ∀ (s : State) (f : FaultRec) (b n k : Nat) (esc : Bool), Tab.wf 0 s.flog = true → n = s.fld R.mgtFlogHead 31 0 →
    Tab.wf 0 (s.record f b esc).flog = true ∧ (s.record f b esc).flog.get 0 k =
      if k = n + 1 then mkRecord f b esc s.now (n + 1) s.chip else if n < k + 1023 then s.flog.get 0 k else 0

/-- R314: the CRC and the discard. -/
def Obligations.FlitsCarryTheirChecksum : Prop :=
  (∀ (hdr : Nat) (payload : List Byte), hdr < 2 ^ 96 → payload.length ≤ 240 →
      Flit.crcOk (mkFlit hdr payload) = true ∧ (Flit.payload (mkFlit hdr payload)).take payload.length = payload) ∧
    (∀ (s : State) (port ty : Nat) (f : BitVec 2048), Flit.crcOk f = false → s.rxFlit port f ty = none)

/-- R108: S0 reads as zero, and writes to it are discarded. -/
def Obligations.ScalarRegisterZeroReadsZero : Prop :=
  ∀ (x : Core) (v : Word), x.sreg 0 = 0 ∧ x.setSreg 0 v = x ∧
    ∀ n m, n ≠ 0 → Tab.wf 0 x.sregs = true → (x.setSreg n v).sreg n = v ∧ (m ≠ n → (x.setSreg n v).sreg m = x.sreg m) ∧ Tab.wf 0 (x.setSreg n v).sregs = true

/-- R515–R520, R534: what a power-on reset resets and what it keeps. -/
def Obligations.PowerOnResetEmptiesTheMachine : Prop :=
  ∀ s : State, ∃ t, exec .powerOnReset s = .next t ∧ t.mem = [] ∧ t.spad = [] ∧ t.cores = [] ∧ t.jobs = [] ∧ t.progs = [] ∧
    t.flog = [] ∧ t.qm = {} ∧ t.seqs = [] ∧ t.fab = {} ∧ t.ports = [] ∧ t.host = {} ∧ t.start.held = true ∧
    t.rd R.mgtResetCause = 1 ∧
    (∀ k, k ≠ R.mgtResetCause → k ≠ R.trustLifecycle → k ≠ R.trustSvn → k ≠ R.trustSerial → t.rd k = regReset k) ∧
    t.trust.fuses = s.trust.fuses ∧ t.trust.slotA = s.trust.slotA ∧ t.trust.slotB = s.trust.slotB ∧
    t.obs.ledger.copyA = s.obs.ledger.copyA ∧ t.obs.ledger.copyB = s.obs.ledger.copyB ∧ t.pending = s.pending

/-- R38, R40, R44, R45 and Table 2-2. -/
def Obligations.NumberFormatExamples : Prop :=
  convert .e4m3 .rne .sat (.fin false 464 0) = (0x7E, .plain) ∧ convert .e4m3 .rne .sat (.fin false 465 0) = (0x7E, .sat) ∧
    Fmt.decode .e4m3 0x7E = .fin false 14 5 ∧
    (convert .fp32 .rne .sat .nan).1 = 0x7FC00000 ∧ (convert .fp16 .rne .sat .nan).1 = 0x7E00 ∧ (convert .bf16 .rne .sat .nan).1 = 0x7FC0 ∧
    (convert .e5m2 .rne .sat .nan).1 = 0x7E ∧ (convert .e4m3 .rne .sat .nan).1 = 0x7F ∧
    (∀ f ∈ [Fmt.e4m3, .e5m2, .e3m2, .e2m3, .e2m1], ∀ p < 2 ^ f.bits, (Fmt.decode f p).isNan = false → (Fmt.decode f p).isInf = false →
      (convert f .rne .sat (Fmt.decode f p)).1 = p) ∧
    (∀ p < 256, Fmt.decodeScaled .mxfp8e4m3 130 p = (Fmt.decode .e4m3 p).scale 3 ∧ Fmt.decodeScaled .mxfp8e4m3 0xFF p = .nan)

/-- R208 whole, over the decoding of R207 and its worked example. -/
def Obligations.GranuleNumberRule : Prop :=
  (∀ a < 2 ^ 34, smGranule a = a / 2 ^ 25 ∧
      ∀ g < 512, (smGranule a = g ↔ smTier a / 4 = g / 256 ∧ 64 * (g % 256) ≤ smRow a ∧ smRow a ≤ 64 * (g % 256) + 63)) ∧
    (∀ t < 8, ∀ b < 256, ∀ r < 16384, ∀ w < 64, smGranule (smAddr t b r w) = 256 * (t / 4) + r / 64 ∧
      smTier (smAddr t b r w) = t ∧ smBank (smAddr t b r w) = b ∧ smRow (smAddr t b r w) = r) ∧
    smTier 0x2456789AB = 4 ∧ smBank 0x2456789AB = 143 ∧ smRow 0x2456789AB = 2220 ∧ smGranule 0x2456789AB = 290

/-- R39 whole. -/
def Obligations.IntegerFormatsRule : Prop :=
  (∀ p : Nat, p < 256 → ∃ n : Int, -128 ≤ n ∧ n ≤ 127 ∧ (p : Int) = n % 256 ∧ Fmt.decode .int8 p = ofInt n 0 ∧ Fmt.decode .mxint8 p = ofInt n (-6)) ∧
    (∀ n : Int, -128 ≤ n → n ≤ 127 → ∃ p : Nat, p < 256 ∧ Fmt.decode .int8 p = ofInt n 0 ∧ Fmt.decode .mxint8 p = ofInt n (-6)) ∧
    (∀ p : Nat, p < 2 ^ 32 → ∃ n : Int, -2 ^ 31 ≤ n ∧ n ≤ 2 ^ 31 - 1 ∧ (p : Int) = n % 2 ^ 32 ∧ Fmt.decode .int32 p = ofInt n 0) ∧
    (∀ n : Int, -2 ^ 31 ≤ n → n ≤ 2 ^ 31 - 1 → ∃ p : Nat, p < 2 ^ 32 ∧ Fmt.decode .int32 p = ofInt n 0)

/-- R213, R211. -/
def Obligations.ClassThreeIsNeverStored : Prop :=
  ∀ (s : State) (granule : Fin 512) (value : Word), s.memOk → ∃ t, exec (.granuleWrite granule value) s = .next t ∧
      (bits value 11 10 = 3 → t.granClass granule = s.granClass granule ∧ t.bit R.smemcStatus 0 = true) ∧
      (s.granClass granule ≠ 3 → t.granClass granule ≠ 3) ∧
      ∀ g : Fin 512, g ≠ granule → t.rd (R.smemcGranule g) = s.rd (R.smemcGranule g)

/-- R148, R149, R150, R152, R154, R293: one clause per command and per outcome of the checks. -/
def Obligations.TransfersBegin : Prop :=
  (∀ (s : State) (s₁ : State) (core : Fin 128) (q : QOp) (win off near far base size : Nat) (y : SyncF),
      s.beginHead core .ld = some q →
      q.op = .ld (.ld win off near far y) →
      (s.core core).ldFree = true →
      s₁ = s.takeHead core .ld →
      s₁.coreWindow core win = (base, size) →
      q.xferFault near far (q.regs.get 0 off).toNat size = none →
      exec (.ld core) s = .next (s₁.startOp core .ld { q, reqs := q.xferReqs near far (base + (q.regs.get 0 off).toNat) y })) ∧
  (∀ (s : State) (s₁ : State) (core : Fin 128) (q : QOp) (win off near far base size : Nat) (y : SyncF) (f : Nat × Nat × AddrFault),
      s.beginHead core .ld = some q →
      q.op = .ld (.ld win off near far y) →
      (s.core core).ldFree = true →
      s₁ = s.takeHead core .ld →
      s₁.coreWindow core win = (base, size) →
      q.xferFault near far (q.regs.get 0 off).toNat size = some f →
      exec (.ld core) s = .next (s₁.coreFault core f.2.2.code (addrDetail 2 q.iseq f.1 f.2.1 f.2.2.value))) ∧
  (∀ (s : State) (s₁ : State) (core : Fin 128) (q : QOp) (win off near far base size : Nat) (y : SyncF),
      s.beginHead core .st = some q →
      q.op = .st (.st win off near far y) →
      s₁ = s.takeHead core .st →
      s₁.coreWindow core win = (base, size) →
      q.xferFault near far (q.regs.get 0 off).toNat size = none →
      exec (.st core) s = .next (s₁.startOp core .st { q, reqs := q.xferReqs near far (base + (q.regs.get 0 off).toNat) y })) ∧
  (∀ (s : State) (s₁ : State) (core : Fin 128) (q : QOp) (win off near far base size : Nat) (y : SyncF) (f : Nat × Nat × AddrFault),
      s.beginHead core .st = some q →
      q.op = .st (.st win off near far y) →
      s₁ = s.takeHead core .st →
      s₁.coreWindow core win = (base, size) →
      q.xferFault near far (q.regs.get 0 off).toNat size = some f →
      exec (.st core) s = .next (s₁.coreFault core f.2.2.code (addrDetail 3 q.iseq f.1 f.2.1 f.2.2.value))) ∧
  (∀ (s : State) (s₁ : State) (core : Fin 128) (q : QOp) (buf near far : Nat) (y : SyncF),
      s.beginHead core .st = some q →
      q.op = .st (.stLink buf near far y) →
      s₁ = s.takeHead core .st →
      q.xferFault near far 0 (s₁.bufferSize core buf) = none →
      exec (.st core) s = .next (s₁.startOp core .st { q, reqs := q.xferReqs near far 0 y }))

/-- R108, R109, R116, R120, R184, R195, R199, R201, R209, R222, R223: one clause per command and, for DELIVERY, per
collision. -/
def Obligations.SignalsDeliveriesAndCountsComplete : Prop :=
  (∀ (s : State) (core : Fin 128) (eng : EngId) (g : SigOwed) (rest : List SigOwed),
      s.coreRuns core = true →
      ((s.core core).eng eng).sigs = g :: rest →
      exec (.completionPoint core eng) s = .next ((s.modEng core eng fun x => { x with sigs := rest }).signal core g.flag g.n)) ∧
  (∀ (s s₁ s₂ : State) (core : Fin 128) (eng : EngId) (dt : Nat) (withVe : Bool) (d : Deliv) (rest : List Deliv),
      s.coreRuns core = true →
      ((s.core core).eng eng).delivs = d :: rest →
      (withVe = false ∨ s.veRival core eng d.reg = none) →
      (s.core core).collides d.reg dt = false →
      (s₁ = s.modEng core eng fun x => { x with delivs := rest }) →
      (s₂ = s₁.modCore core fun x => x.delivered d.reg dt) →
      exec (.delivery core eng dt withVe) s = .next (s₂.deliver core [d])) ∧
  (∀ (s s₁ s₂ : State) (core : Fin 128) (eng : EngId) (dt : Nat) (withVe : Bool) (d : Deliv) (rest : List Deliv),
      s.coreRuns core = true →
      ((s.core core).eng eng).delivs = d :: rest →
      (withVe = false ∨ s.veRival core eng d.reg = none) →
      (s.core core).collides d.reg dt = true →
      (s₁ = s.modEng core eng fun x => { x with delivs := rest }) →
      (s₂ = s₁.modCore core fun x => x.delivered d.reg dt) →
      exec (.delivery core eng dt withVe) s = .next ((s₂.count (R.coreSregCollideCnt core) 1).deliver core [d])) ∧
  (∀ (s s₁ s₂ s₃ : State) (core : Fin 128) (dt : Nat) (d v : Deliv) (rest vs : List Deliv),
      s.coreRuns core = true →
      ((s.core core).eng .ld).delivs = d :: rest →
      (s.core core).ve.delivs = v :: vs →
      v.reg = d.reg →
      (s₁ = s.modEng core .ld fun x => { x with delivs := rest }) →
      (s₂ = s₁.modEng core .ve fun x => { x with delivs := x.delivs.tail }) →
      (s₃ = s₂.modCore core fun x => x.delivered d.reg dt) →
      exec (.delivery core .ld dt true) s = .next ((s₃.count (R.coreSregCollideCnt core) 1).deliver core [d, v])) ∧
  (∀ (s : State) (s₁ : State) (core : Fin 128) (q : QOp) (u t f n : Nat) (y : SyncF),
      s.beginHead core .st = some q →
      s.unitOf core = some u →
      q.op = .st (.stSignal t f n y) →
      ((s.core core).st.cur = [] ∧ (s.core core).st.sigs = [] ∧ (s.core core).stSignals = []) →
      s₁ = s.takeHead core .st →
      unitFirst u + t ≠ core →
      exec (.stSignal core) s = .next (s₁.modCore core fun x => { x with stSignals := x.stSignals ++ [{ target := unitFirst u + t, flag := f, n, own := ownSignal y }] })) ∧
  (∀ (s : State) (s₁ : State) (core : Fin 128) (q : QOp) (u t f n : Nat) (y : SyncF),
      s.beginHead core .st = some q →
      s.unitOf core = some u →
      q.op = .st (.stSignal t f n y) →
      ((s.core core).st.cur = [] ∧ (s.core core).st.sigs = [] ∧ (s.core core).stSignals = []) →
      s₁ = s.takeHead core .st →
      unitFirst u + t = core →
      exec (.stSignal core) s = .next (s₁.stSignalLand core { target := core, flag := f, n, own := ownSignal y })) ∧
  (∀ (s : State) (core : Fin 128) (g : StSig) (rest : List StSig),
      s.coreRuns core = true →
      (s.core core).stSignals = g :: rest →
      exec (.stSignalDelivery core) s = .next ((s.modCore core fun x => { x with stSignals := rest }).stSignalLand core g)) ∧
  (∀ (s s₁ s₂ : State) (core : Fin 128) (reqs : Nat) (us : List Upset) (q : QOp) (ds fmt : Nat) (kind : CntKind) (sv rl : Nat) (t : CntTgt) (y : SyncF),
      s₁ = s.upset core us →
      s₁.coreRuns core = true →
      (s₁.core core).ld.cur = [] →
      s₁.headReady core .ld = some q →
      q.op = .ld (.scnt ds fmt kind sv rl t y) →
      countChecks q ds ((q.descs.get 0 ds).checkNear (countBytes (fmtOf fmt))) t = none →
      s₂ = (s₁.takeHead core .ld).startOp core .ld { q, reqs := scntReqs (q.descs.get 0 ds) (fmtOf fmt) (segUnits (q.descs.get 0 ds) rl t) } →
      exec (.scnt core ⟨reqs, us⟩) s = .next (s₂.scntRun core reqs)) ∧
  (∀ (s s₁ : State) (core : Fin 128) (reqs : Nat) (us : List Upset),
      s₁ = s.upset core us →
      s₁.coreRuns core = true →
      (s₁.core core).ld.cur ≠ [] →
      exec (.scnt core ⟨reqs, us⟩) s = .next (s₁.scntRun core reqs)) ∧
  (∀ (s : State) (s₁ s₂ : State) (core : Fin 128) (us : List Upset) (q : QOp) (a se sn d f w : Nat) (imm : Int) (y : SyncF),
      s.beginHead core .ld = some q →
      q.op = .ld (.scas a imm se sn d f y) →
      (s.core core).ld.cur = [] →
      s₁ = (s.upset core us).takeHead core .ld →
      w = (q.regs.get 0 a + BitVec.ofInt 64 imm).toNat →
      (w % 8 = 0 ∧ w < 0x80000) →
      s₁.spadCheck core w 8 = (s₂, false) →
      exec (.scas core us) s = .next (s₂.scasGo core q w (BitVec.ofNat 64 (s₂.spadRead core w 8)) se sn d f y)) ∧
  (∀ (s : State) (s₁ : State) (core : Fin 128) (q : QOp) (win off ds fmt : Nat) (kind : CntKind) (sv rl base size : Nat) (t : CntTgt) (y : SyncF),
      s.beginHead core .ld = some q →
      q.op = .ld (.smcnt win off ds fmt kind sv rl t y) →
      (s.core core).ld.cur = [] →
      s₁ = s.takeHead core .ld →
      s₁.coreWindow core win = (base, size) →
      countChecks q ds ((q.descs.get 0 ds).checkFar (q.regs.get 0 off).toNat size (countBytes (fmtOf fmt))) t = none →
      exec (.smcnt core) s = .next (s₁.startOp core .ld { q, reqs := q.cntReqs ds fmt rl (base + (q.regs.get 0 off).toNat) t })) ∧
  (∀ (s : State) (s₁ : State) (core : Fin 128) (q : QOp) (win off se sn d f base size o : Nat) (imm : Int) (y : SyncF),
      s.beginHead core .ld = some q →
      q.op = .ld (.smcas win off imm se sn d f y) →
      (s.core core).ld.cur = [] →
      s₁ = s.takeHead core .ld →
      s₁.coreWindow core win = (base, size) →
      o = (q.regs.get 0 off + BitVec.ofInt 64 imm).toNat →
      ((base + o) % 8 = 0 ∧ o + 8 ≤ size) →
      exec (.smcas core) s = .next (s₁.startOp core .ld { q, reqs := [{ near := 0, far := base + o, len := 8 }] })) ∧
  (∀ (s : State) (s₁ : State) (core : Fin 128) (pick k : Nat) (us : List Upset) (r : MemReq) (o : CurOp),
      s₁ = s.memUpset us →
      ((s₁.core core).eng .ld).flat[pick]? = some (k, r) →
      s₁.mayLand core ((s₁.core core).eng .ld) pick = true →
      ((s₁.core core).eng .ld).pickable pick k r = true →
      ((s₁.core core).eng .ld).cur[k]? = some o →
      exec (.stageMemoryResponse core .ld pick us) s = .next (s₁.completeReq core .ld k r o)) ∧
  (∀ (s : State) (s₁ : State) (core : Fin 128) (pick k : Nat) (us : List Upset) (r : MemReq) (o : CurOp),
      s₁ = s.upset core us →
      ((s₁.core core).eng .st).flat[pick]? = some (k, r) →
      s₁.mayLand core ((s₁.core core).eng .st) pick = true →
      ((s₁.core core).eng .st).pickable pick k r = true →
      ((s₁.core core).eng .st).cur[k]? = some o →
      s₁.badStore core (pick + 1) = none →
      exec (.stageMemoryResponse core .st pick us) s = .next (s₁.completeReq core .st k r o)) ∧
  (∀ (s : State) (s₁ : State) (core : Fin 128) (pick k b : Nat) (us : List Upset) (r : MemReq) (o : CurOp),
      s₁ = s.upset core us →
      ((s₁.core core).eng .st).flat[pick]? = some (k, r) →
      s₁.mayLand core ((s₁.core core).eng .st) pick = true →
      ((s₁.core core).eng .st).pickable pick k r = true →
      ((s₁.core core).eng .st).cur[k]? = some o →
      s₁.badStore core (pick + 1) = some b →
      exec (.stageMemoryResponse core .st pick us) s = .next ((List.range (b + 1)).foldl (fun (st : State) _ => st.completeFirst core .st) s₁)) ∧
  (∀ (s : State) (core : Fin 128) (addr k : Nat),
      k = spadKey core (addr / 8 * 8) →
      s.spadOwed.contains k = true →
      s.spadHealth core addr = 1 →
      exec (.eccWriteBack core addr) s = .next (({ s with spadOwed := s.spadOwed.erase k } : State).setSpadHealth core addr 0))

/-- R122, R126, R129–R134, R205, R247, R377, R455: one clause per command. That a job torn down ends only once parked,
and that RESUME releases the bundle limit, are readings of the model (log entries 19 and 20). -/
def Obligations.ParkingAndJobEndCommandsComplete : Prop :=
  (∀ (s : State) (unit : Fin 171) (eng : List Nat),
      s.hasJob unit = true →
      ((s.job unit).fault.isSome = true ∨ s.allEnded unit = true ∨ ((s.job unit).torn = true ∧ (s.job unit).parked = true)) →
      exec (.jobEnd unit eng) s = .next ((s.jobEnd unit eng).tearSettle (s.job unit).ctx)) ∧
  (∀ (s : State) (unit : Fin 171) (reason : Fin 6),
      reason ≠ 0 →
      exec (.parkRequest unit reason) s = .next (s.parkReq reason unit)) ∧
  (∀ (s : State) (core : Fin 128) (eng : EngId) (inFlight u : Nat),
      s.unitOf core = some u →
      (s.job u).parkReqs ≠ [] →
      (s.job u).parksOn = true →
      ((s.core core).eng eng).atPoint = false →
      exec (.parkPoint core eng inFlight) s = .next ((s.parkEngine core eng inFlight).parkUnit u)) ∧
  (∀ (s : State) (core : Fin 128) (eng : EngId) (u : Nat),
      s.unitOf core = some u →
      (s.job u).parkReqs ≠ [] →
      (s.job u).fault = none →
      ((s.core core).eng eng).atPoint = false →
      exec (.parkTimeout core eng) s = .next (s.coreFault core 0x2003 [(1, engNum eng), (4, (((s.core core).inProgress eng 0).map (·.1)).getD 0xFFFFFFFF), (1, topReason (s.job u).parkReqs)])) ∧
  (∀ (s s₁ s₂ : State) (unit : Fin 171),
      s.unitState unit = 2 →
      (s.job unit).fault = none →
      (s.job unit).torn = false →
      ((s.job unit).parkReqs.all (fun r => r == 5) = true) →
      s₁ = (s.setJob unit { s.job unit with parkReqs := [], parked := false }).setUnit unit 1 (some (s.job unit).ctx) →
      (s₂ = ((unitCores unit).foldl (fun (st : State) c => st.resumeCore c) s₁).signals ((unitCores unit).flatMap fun c => (s₁.core c).owedSignals c)) →
      exec (.resume unit) s = .next ((unitCores unit).foldl (fun (st : State) c => st.veCombine c) s₂)) ∧
  (∀ (s : State) (unit : Fin 171),
      s.unitState unit = 1 →
      (s.job unit).fault = none →
      (s.job unit).parkReqs = [] →
      ((unitCores unit).all (fun c => s.settled c) = true) →
      ((unitCores unit).any (fun c => (s.core c).phase == .limit) = true) →
      exec (.settle unit) s = .next (((unitCores unit).foldl (fun (st : State) c =>
        [EngId.mx, .ve, .ld, .st].foldl (fun (z : State) e => z.parkEngine c e 0) st) (s.parkReq 5 unit)).parkUnit unit)) ∧
  (∀ (s : State) (unit : Fin 171) (dt : Nat),
      exec (.snapUnit unit dt) s = .next (((s.pass unit dt).wr R.obsSnapUnit (BitVec.ofNat 64 unit)).takeSnapshot unit)) ∧
  (∀ (s : State) (unit : Fin 171) (core : Fin 128) (waiter : Fin 5) (t dt f n v at_ : Nat),
      s.unitOf core = some unit.val →
      s.firstWaiter unit = some (t, core.val, waiter) →
      t = (s.job unit).clock + dt →
      s.waiting core waiter = some (f, n, v, at_) →
      s.coreRuns core = true →
      (s.wdFires unit).all (t < ·) = true →
      exec (.syncDeadlock unit core waiter dt) s = .next (((s.elapse unit t).takeSnapshot unit).coreFault core 0x2001 [(1, waiterCode waiter), (1, f), (1, n), (2, v), (4, at_)])) ∧
  (∀ (s : State) (unit : Fin 171) (core : Fin 128) (waiter : Fin 5) (t dt f n v at_ : Nat),
      s.unitOf core = some unit.val →
      s.firstWaiter unit = some (t, core.val, waiter) →
      t = (s.job unit).clock + dt →
      s.waiting core waiter = some (f, n, v, at_) →
      s.coreRuns core = true →
      s.wdFires unit = some t →
      exec (.syncDeadlock unit core waiter dt) s = .next (((s.elapse unit t).takeSnapshot unit).coreFault core 0x2001 [(1, waiterCode waiter), (1, f), (1, n), (2, v), (4, at_), (1, 1)])) ∧
  (∀ (s : State) (unit : Fin 171) (t dt : Nat),
      s.unitState unit = 1 →
      (s.job unit).fault = none →
      (s.job unit).parkReqs = [] →
      s.wdFires unit = some t →
      t = (s.job unit).clock + dt →
      ((s.firstWaiter unit).all (fun x => t < x.1) = true) →
      exec (.jobWatchdog unit dt) s = .next (((s.elapse unit t).takeSnapshot unit).raise { code := 0x7003, ctx := some (s.job unit).ctx, unit, accession := (s.job unit).card.accession, layer := (s.job unit).card.layer, oper := (s.job unit).card.oper }))

/-- R238, R239, R240, R242, R265, R373, R374: one clause per command and outcome. -/
def Obligations.QueueCommandsComplete : Prop :=
  (∀ (s : State) (agent : Fin 56) (queue : Fin 4096) (card : BitVec 512),
      tagKnown (Card.tag card) = true →
      (Card.tag card ≠ 0x10 ∧ Card.tag card ≠ 0x11) →
      s.mayEnq queue (agentOf agent) (s.agentCtx agent (some card)) = true →
      s.qFull queue = false →
      exec (.enqueue agent queue card) s = .next ((s.accept queue card).answerQm agent 0 card)) ∧
  (∀ (s : State) (agent : Fin 56) (queue : Fin 4096) (card : BitVec 512),
      tagKnown (Card.tag card) = true →
      (Card.tag card ≠ 0x10 ∧ Card.tag card ≠ 0x11) →
      s.mayEnq queue (agentOf agent) (s.agentCtx agent (some card)) = true →
      s.qFull queue = true →
      exec (.enqueue agent queue card) s = .next (s.answerQm agent 1 card)) ∧
  (∀ (s : State) (agent : Fin 56) (queue : Fin 4096) (card : Card) (ctx : Option Nat),
      ctx = s.agentCtx agent none →
      s.mayDeq queue (agentOf agent) ctx = true →
      s.qHead queue = some card →
      s.cardBad (s.qSlot queue (s.qRd queue)) 1 = 0 →
      s.cardBad (s.qSlot queue (s.qRd queue)) 2 = 0 →
      s.otherCtx queue ctx card = false →
      exec (.dequeue agent queue 0) s = .next ((s.takeCard queue).answerQm agent 0 card)) ∧
  (∀ (s : State) (agent : Fin 56) (queue : Fin 4096),
      s.mayDeq queue (agentOf agent) (s.agentCtx agent none) = true →
      s.qHead queue = none →
      exec (.dequeue agent queue 0) s = .next ((s.globalEvent 40 3 1).answerQm agent 1 idleCard)) ∧
  (∀ (s : State) (queue : Fin 4096),
      s.qEn queue = false →
      s.queueEnableOk queue = true →
      exec (.queueEnable queue) s = .next ((((s.setFld (R.qselQptr queue) 12 0 0).setFld (R.qselQptr queue) 28 16 0).setBit (R.qselQcfg queue) 0 true).drainHeld queue 171)) ∧
  (∀ (s : State) (queue : Fin 4096),
      s.qEn queue = true →
      exec (.queueDisable queue) s = .next ((s.setBit (R.qselQcfg queue) 0 false).flushQueue queue)) ∧
  (∀ (s : State) (q : Nat),
      q = s.fld R.qmCtrl 11 0 →
      s.qEn q = true →
      exec (.flush) s = .next (s.flushQueue q)) ∧
  (∀ (s : State) (s₁ s₂ : State) (u : Nat) (c₀ c : Card),
      s.dispatchPaused = false →
      (s₁ = s.headCards.foldl (fun (st : State) h => st.dropInactive h) s) →
      s₁.pick = some (u, c₀) →
      s₂ = (s₁.takeJob u).1 →
      (s₁.takeJob u).2 = some c →
      exec (.jobDispatch) s = .next (s₂.dispatchCard u c))

/-- R252, R255, R257–R263, R269–R271, R296: one clause per command. -/
def Obligations.CardAndBatchCommandsComplete : Prop :=
  (∀ (s : State) (t u : State) (port : Fin 33) (e : Nat × Pkt),
      s.cardFrom port = some e →
      port.val < 32 →
      (t = s.modFab fun x => { x with chipIn := x.chipIn.erase e }) →
      t.arriveRx port e.2.card = some u →
      exec (.card port) s = .next (u.serveRx port 257)) ∧
  (∀ (s : State) (t u : State) (e : Nat × Pkt),
      s.cardFrom 32 = some e →
      (t = s.modFab fun x => { x with chipIn := x.chipIn.erase e }) →
      t.routeCard 32 e.2.card = some u →
      exec (.card 32) s = .next (u)) ∧
  (∀ (s : State) (l : LeadCard),
      s.qm.leads.find? s.leadDue = some l →
      exec (.leadCardEnqueue) s = .next (({ s with qm := { s.qm with leads := s.qm.leads.erase l } } : State).accept l.queue l.card)) ∧
  (∀ (s : State) (unit : Fin 171) (p f n : Nat),
      s.hasJob unit = true →
      (s.job unit).bound = some (p, f, n) →
      exec (.readinessSignal unit) s = .next (s.signalReady p f)) ∧
  (∀ (s : State) (card : BitVec 512),
      Card.tag card = 0x14 →
      exec (.retire card) s = .next (s.retireCard card)) ∧
  (∀ (s : State) (card : BitVec 512),
      Card.tag card = 0x13 →
      exec (.replayReq card) s = .next (s.replayReq card)) ∧
  (∀ (s : State) (card : BitVec 512),
      Card.tag card = 0x16 →
      exec (.replayNak card) s = .next (s.replayNak card)) ∧
  (∀ (s : State) (set : Fin 32),
      s.bit (R.qmShelfCfg set) 0 = false →
      s.shelfSetOk set = true →
      exec (.shelfSetEnable set) s = .next ((s.freeShelves set).setBit (R.qmShelfCfg set) 0 true)) ∧
  (∀ (s : State) (asm : Fin 16),
      s.bit (R.qmAsmCfg asm) 0 = false →
      s.asmOk asm = true →
      exec (.assemblerEnable asm) s = .next (((s.setAsm asm {}).setFld (R.qmAsmState asm) 19 14 0).setBit (R.qmAsmCfg asm) 0 true)) ∧
  (∀ (s : State) (s₁ : State) (asm : Fin 16) (q x : Nat) (c : Card),
      s.bit (R.qmAsmCfg asm) 0 = true →
      (s.asm asm).closing = false →
      q = s.asmSrc asm →
      x = s.qCtx (s.asmDst asm) →
      s.qHead q = some c →
      Card.tag c = 0x20 →
      (s.dequeue .asm (some x) q (fun _ => false) = (s₁, .card c)) →
      (1 ≤ reqRows c ∧ reqRows c ≤ 64) →
      s₁.inPartition x (reqPtr c) 1 = true →
      (s.asm asm).rows + reqRows c ≤ s₁.asmTarget asm →
      exec (.serveReq asm) s = .next (s₁.joinBatch asm c)) ∧
  (∀ (s : State) (asm : Fin 16),
      s.bit (R.qmAsmCfg asm) 0 = true →
      (s.asm asm).reqs ≠ [] →
      (s.asm asm).closing = false →
      exec (.batchDeadline asm) s = .next ((s.advanceTo ((s.asm asm).t0 + s.asmDeadline asm)).setAsm asm { s.asm asm with closing := true })) ∧
  (∀ (s : State) (s₁ s₂ s₃ : State) (asm : Fin 16) (a : Assembler) (d n place : Nat) (bs : List Byte),
      a = s.asm asm →
      d = s.asmDst asm →
      n = s.asmNext asm →
      place = s.asmBase asm + 1024 * n →
      bs = batchRecord 0 a.reqs →
      s.bit (R.qmAsmCfg asm) 0 = true →
      (a.closing = true ∧ a.next = none) →
      (s.qEn d = true ∧ s.qFull d = false) →
      (a.recBusy.any (fun r => r.1 == n) = false) →
      s₁ = (s.memWrite place (bs ++ List.replicate (1024 - bs.length) 0)).accept d (batchCard (s.qCtx d) asm n place a.reqs) →
      s₂ = s₁.count (R.qmAsmBatchCnt asm) 1 →
      s₃ = s₂.setFld (R.qmAsmState asm) 19 14 ((n + 1) % 64) →
      s₂.now ≤ a.t0 + s₂.asmDeadline asm →
      exec (.batchClose asm) s = .next (s₃.setAsm asm { a with reqs := [], closing := false, next := none, recBusy := a.recBusy ++ [(n, Card.accession (a.reqs.headD 0))] }))

/-- Chapter 10, Tables 10-3 and 10-4: `s₁` is the state as the instruction begins, `w` its word. -/
def Obligations.SequencerControlInstructionsComplete : Prop :=
  (∀ (s : State) (s₁ : State) (q : Fin 4) (w : BitVec 32),
      s.seqReady q 0 = true →
      s₁ = s.seqBegin q 0 →
      w = s.seqWord q →
      exec (.nop q) s = .next (s₁.seqNext q)) ∧
  (∀ (s : State) (s₁ : State) (q : Fin 4) (w : BitVec 32),
      s.seqReady q 1 = true →
      s₁ = s.seqBegin q 1 →
      w = s.seqWord q →
      exec (.alu q) s = .next (s₁.seqPut q w (stgAlu (bits w 3 0) (s₁.g q (swB w)) (s₁.g q (swC w))))) ∧
  (∀ (s : State) (s₁ : State) (q : Fin 4) (w : BitVec 32),
      s.seqReady q 2 = true →
      s₁ = s.seqBegin q 2 →
      w = s.seqWord q →
      exec (.addi q) s = .next (s₁.seqPut q w (s₁.g q (swB w) + swImm18 w))) ∧
  (∀ (s : State) (s₁ : State) (q : Fin 4) (w : BitVec 32),
      s.seqReady q 3 = true →
      s₁ = s.seqBegin q 3 →
      w = s.seqWord q →
      exec (.stgLi q) s = .next (s₁.seqPut q w (swImm22 w))) ∧
  (∀ (s : State) (s₁ : State) (q : Fin 4) (w : BitVec 32),
      s.seqReady q 4 = true →
      s₁ = s.seqBegin q 4 →
      w = s.seqWord q →
      bits w 0 0 = 0 →
      exec (.liw q) s = .next ((s₁.setSeqPc q (s₁.seqPc q + 1)).seqPut q w (BitVec.ofInt 64 (signed 32 (((s₁.seq q).code[s₁.seqPc q + 1]?).getD 0).toNat)))) ∧
  (∀ (s : State) (s₁ : State) (q : Fin 4) (w : BitVec 32),
      s.seqReady q 4 = true →
      s₁ = s.seqBegin q 4 →
      w = s.seqWord q →
      bits w 0 0 = 1 →
      exec (.liw q) s = .next ((s₁.setSeqPc q (s₁.seqPc q + 1)).seqPut q w (setBits (s₁.g q (swA w)) 63 32 (((s₁.seq q).code[s₁.seqPc q + 1]?).getD 0).toNat))) ∧
  (∀ (s : State) (s₁ : State) (q : Fin 4) (w : BitVec 32),
      s.seqReady q 5 = true →
      s₁ = s.seqBegin q 5 →
      w = s.seqWord q →
      stgCond (bits w 17 15) (s₁.g q (swA w)) (s₁.g q (swB w)) = true →
      exec (.stgBr q) s = .next ((match s₁.seqCtx q with | some x => s₁.account x 5 2 | none => s₁).seqGoto q (bits w 13 0))) ∧
  (∀ (s : State) (s₁ : State) (q : Fin 4) (w : BitVec 32),
      s.seqReady q 5 = true →
      s₁ = s.seqBegin q 5 →
      w = s.seqWord q →
      stgCond (bits w 17 15) (s₁.g q (swA w)) (s₁.g q (swB w)) = false →
      exec (.stgBr q) s = .next (s₁.seqNext q)) ∧
  (∀ (s : State) (s₁ : State) (q : Fin 4) (w : BitVec 32),
      s.seqReady q 6 = true →
      s₁ = s.seqBegin q 6 →
      w = s.seqWord q →
      exec (.stgCall q) s = .next ((s₁.modSeq q fun z => { z with link := some (s₁.seqPc q + 1) }).seqGoto q (bits w 13 0))) ∧
  (∀ (s : State) (s₁ : State) (q : Fin 4) (w : BitVec 32) (a : Nat),
      s.seqReady q 7 = true →
      s₁ = s.seqBegin q 7 →
      w = s.seqWord q →
      (s₁.seq q).link = some a →
      exec (.stgRet q) s = .next ((s₁.modSeq q fun z => { z with link := none }).seqGoto q a)) ∧
  (∀ (s : State) (s₁ : State) (q : Fin 4) (w : BitVec 32),
      s.seqReady q 8 = true →
      s₁ = s.seqBegin q 8 →
      w = s.seqWord q →
      exec (.halt q) s = .next ((s₁.setSeqState q 4).intEvent (408 + q) 0))

/-- Chapter 10, Table 10-4: `s₁` is the state as the instruction begins, `w` its word; an address that is out of reach
or misaligned is a stage fault, stated here for STS. -/
def Obligations.SequencerMemoryInstructionsComplete : Prop :=
  (∀ (s : State) (s₁ : State) (q : Fin 4) (w : BitVec 32) (a : Nat),
      s.seqReady q 9 = true →
      s₁ = s.seqBegin q 9 →
      w = s.seqWord q →
      s₁.dataAddr q w = some a →
      exec (.ldd q) s = .next (s₁.seqPut q w (BitVec.ofNat 64 ((s₁.seq q).data.readLE a 8)))) ∧
  (∀ (s : State) (s₁ : State) (q : Fin 4) (w : BitVec 32) (a : Nat),
      s.seqReady q 10 = true →
      s₁ = s.seqBegin q 10 →
      w = s.seqWord q →
      s₁.dataAddr q w = some a →
      exec (.std q) s = .next ((s₁.modSeq q fun z => { z with data := z.data.writeLE a 8 (s₁.g q (swA w)).toNat }).seqNext q)) ∧
  (∀ (s : State) (s₁ : State) (q : Fin 4) (w : BitVec 32) (s₂ : State) (us : List Upset) (a : Nat) (v : Word),
      s.seqReady q 11 = true →
      s₁ = s.seqBegin q 11 →
      w = s.seqWord q →
      a = (s₁.g q (swB w) + swImm18 w).toNat →
      a % 8 = 0 →
      s₁.seqReach q a 8 = true →
      s₁.seqWaits q a 8 = false →
      (s₁.memUpset us).seqRead q a = (s₂, some v) →
      exec (.lds q us) s = .next (s₂.seqPut q w v)) ∧
  (∀ (s : State) (s₁ : State) (q : Fin 4) (w : BitVec 32) (a : Nat),
      s.seqReady q 12 = true →
      s₁ = s.seqBegin q 12 →
      w = s.seqWord q →
      a = (s₁.g q (swB w) + swImm18 w).toNat →
      a % 8 = 0 →
      s₁.seqReach q a 8 = true →
      s₁.seqWaits q a 8 = false →
      exec (.sts q) s = .next (((s₁.memWrite a (natLE 8 (s₁.g q (swA w)).toNat)).seqBytes q 8).seqNext q)) ∧
  (∀ (s : State) (s₁ : State) (q : Fin 4) (w : BitVec 32) (a : Nat),
      s.seqReady q 12 = true →
      s₁ = s.seqBegin q 12 →
      w = s.seqWord q →
      a = (s₁.g q (swB w) + swImm18 w).toNat →
      (a % 8 ≠ 0 ∨ s₁.seqReach q a 8 = false) →
      exec (.sts q) s = .next (s₁.stageFault q 2)) ∧
  (∀ (s : State) (s₁ : State) (q : Fin 4) (w : BitVec 32) (s₂ : State) (us : List Upset) (a : Nat) (v : Word),
      s.seqReady q 13 = true →
      s₁ = s.seqBegin q 13 →
      w = s.seqWord q →
      a = (s₁.g q (swB w)).toNat →
      a % 8 = 0 →
      s₁.seqReach q a 8 = true →
      s₁.seqWaits q a 8 = false →
      (s₁.memUpset us).seqRead q a = (s₂, some v) →
      exec (.mcas q us) s = .next ((if v = s₂.g q (swC w) then s₂.memWrite a (natLE 8 (s₂.g q (swD w)).toNat) else s₂).seqPut q w v)) ∧
  (∀ (s : State) (s₁ : State) (q : Fin 4) (w : BitVec 32) (s₂ : State) (us : List Upset) (a n : Nat) (f : Fmt) (bs : List Byte),
      s.seqReady q 14 = true →
      s₁ = s.seqBegin q 14 →
      w = s.seqWord q →
      a = (s₁.g q (swB w)).toNat →
      n = (s₁.g q (swC w)).toNat →
      f = fmtOf (bits w 9 5) →
      a % execMcnt.esizeAlignOf (countBytes f) = 0 →
      s₁.seqReach q a n = true →
      s₁.seqWaits q a n = false →
      (s₁.memUpset us).memRead a n = (s₂, bs, none) →
      exec (.mcnt q us) s = .next ((s₂.seqBytes q n).seqPut q w (BitVec.ofNat 64 (countRun f (cntKind (bits w 4 2)) (s₁.g q (swD w)).toNat (bs.take (n / countBytes f * countBytes f)))))) ∧
  (∀ (s : State) (s₁ : State) (q : Fin 4) (w : BitVec 32),
      s.seqReady q 15 = true →
      s₁ = s.seqBegin q 15 →
      w = s.seqWord q →
      exec (.time q) s = .next (s₁.seqPut q w (if bits w 0 0 = 0 then BitVec.ofNat 64 s₁.epoch else s₁.rd R.fabTime))) ∧
  (∀ (s : State) (s₁ : State) (q : Fin 4) (w : BitVec 32) (v : Nat),
      s.seqReady q 16 = true →
      s₁ = s.seqBegin q 16 →
      w = s.seqWord q →
      v = (s₁.g q (swB w)).toNat →
      (v = 0xFFF ∨ (v < 4095 ∧ s₁.seqQueue q v = true) ∨ (0x1000 ≤ v ∧ s₁.seqPort q (v - 0x1000) = true)) →
      exec (.watch q) s = .next ((s₁.modSeq q fun z => { z with watch := z.watch.set 0xFFF (bits w 2 0) v }).seqNext q)) ∧
  (∀ (s : State) (s₁ : State) (q : Fin 4) (w : BitVec 32) (e : Nat),
      s.seqReady q 17 = true →
      s₁ = s.seqBegin q 17 →
      w = s.seqWord q →
      e = s₁.seqEvents q &&& bits w 11 0 →
      e ≠ 0 →
      exec (.waite q) s = .next ((s₁.modSeq q fun z => { z with events := z.events - (z.events &&& e) }).seqPut q w (BitVec.ofNat 64 e))) ∧
  (∀ (s : State) (s₁ : State) (q : Fin 4) (w : BitVec 32),
      s.seqReady q 17 = true →
      s₁ = s.seqBegin q 17 →
      w = s.seqWord q →
      s₁.seqEvents q &&& bits w 11 0 = 0 →
      s₁.seqState q = 2 →
      exec (.waite q) s = .next (s₁.seqHold q)) ∧
  (∀ (s : State) (s₁ : State) (q : Fin 4) (w : BitVec 32),
      s.seqReady q 18 = true →
      s₁ = s.seqBegin q 18 →
      w = s.seqWord q →
      exec (.tset q) s = .next ((s₁.modSeq q fun z => { z with timer := (s₁.g q (swB w)).toNat % 2 ^ 32, timerAt := s₁.ltime }).seqNext q)) ∧
  (∀ (s : State) (q : Fin 4),
      (s.seq q).timer ≠ 0 →
      exec (.timerExpiry q) s = .next ((s.localTo ((s.seq q).timerAt + uclk (s.seq q).timer)).modSeq q fun z => { z with timer := 0, events := z.events ||| 512 })) ∧
  (∀ (s : State) (s₁ : State) (q : Fin 4) (w : BitVec 32),
      s.seqReady q 19 = true →
      s₁ = s.seqBegin q 19 →
      w = s.seqWord q →
      (s₁.g q (swB w)).toNat ≤ s₁.epoch →
      exec (.ewait q) s = .next (s₁.seqNext q)) ∧
  (∀ (s : State) (s₁ : State) (q : Fin 4) (w : BitVec 32),
      s.seqReady q 19 = true →
      s₁ = s.seqBegin q 19 →
      w = s.seqWord q →
      s₁.epoch < (s₁.g q (swB w)).toNat →
      s₁.seqState q = 2 →
      exec (.ewait q) s = .next (s₁.seqHold q))

/-- Chapter 10, Table 10-4, with R266–R268, R278, R282–R285: `s₁` is the state as the instruction begins, `w` its word. -/
def Obligations.SequencerCardInstructionsComplete : Prop :=
  (∀ (s : State) (s₁ : State) (q : Fin 4) (w : BitVec 32) (s₂ : State) (n : Nat) (x : Option Nat) (c : Card),
      s.seqReady q 24 = true →
      s₁ = s.seqBegin q 24 →
      w = s.seqWord q →
      n = queueNo (s₁.g q (swB w)) →
      x = s₁.seqCtx q →
      s₁.dequeue .seq x n (s₁.otherCtx n x) = (s₂, .card c) →
      exec (.deq q) s = .next (((s₂.setSeqCard q (swN w) c).setOrigin q (swN w) n).seqPut q w 0)) ∧
  (∀ (s : State) (s₁ : State) (q : Fin 4) (w : BitVec 32) (s₂ : State) (n : Nat) (x : Option Nat),
      s.seqReady q 24 = true →
      s₁ = s.seqBegin q 24 →
      w = s.seqWord q →
      n = queueNo (s₁.g q (swB w)) →
      x = s₁.seqCtx q →
      s₁.dequeue .seq x n (s₁.otherCtx n x) = (s₂, .empty) →
      exec (.deq q) s = .next (((s₂.setSeqCard q (swN w) idleCard).setOrigin q (swN w) n).seqPut q w 1)) ∧
  (∀ (s : State) (s₁ : State) (q : Fin 4) (w : BitVec 32) (s₂ : State) (n : Nat) (c : Card) (r : EnqStatus),
      s.seqReady q 25 = true →
      s₁ = s.seqBegin q 25 →
      w = s.seqWord q →
      n = queueNo (s₁.g q (swB w)) →
      c = s₁.forced q (s₁.seqCard q (swN w)) →
      s₁.qClass n ≠ 0 →
      s₁.offer .seq (s₁.seqCtx q) n c = (s₂, r) →
      exec (.enq q) s = .next (s₂.seqPut q w (BitVec.ofNat 64 r.code))) ∧
  (∀ (s : State) (s₁ : State) (q : Fin 4) (w : BitVec 32),
      s.seqReady q 26 = true →
      s₁ = s.seqBegin q 26 →
      w = s.seqWord q →
      exec (.cget q) s = .next (s₁.seqPut q w (BitVec.ofNat 64 (Card.get (s₁.seqCard q (swN w)) (bits w 9 4) (2 ^ bits w 3 2))))) ∧
  (∀ (s : State) (s₁ : State) (q : Fin 4) (w : BitVec 32),
      s.seqReady q 27 = true →
      s₁ = s.seqBegin q 27 →
      w = s.seqWord q →
      exec (.cput q) s = .next ((s₁.setSeqCard q (swN w) (Card.put (s₁.seqCard q (swN w)) (bits w 9 4) (2 ^ bits w 3 2) (s₁.g q (swB w)).toNat)).seqNext q)) ∧
  (∀ (s : State) (s₁ : State) (q : Fin 4) (w : BitVec 32),
      s.seqReady q 28 = true →
      s₁ = s.seqBegin q 28 →
      w = s.seqWord q →
      bits w 0 0 = 0 →
      exec (.cclr q) s = .next (((s₁.setSeqCard q (swN w) 0).setOrigin q (swN w) 0xFFF).seqNext q)) ∧
  (∀ (s : State) (s₁ : State) (q : Fin 4) (w : BitVec 32),
      s.seqReady q 28 = true →
      s₁ = s.seqBegin q 28 →
      w = s.seqWord q →
      bits w 0 0 = 1 →
      exec (.ccopy q) s = .next (((s₁.setSeqCard q (swN w) (s₁.seqCard q (swM w))).setOrigin q (swN w) (s₁.seqOrigin q (swM w))).seqNext q)) ∧
  (∀ (s : State) (s₁ : State) (q : Fin 4) (w : BitVec 32) (n : Nat),
      s.seqReady q 29 = true →
      s₁ = s.seqBegin q 29 →
      w = s.seqWord q →
      n = queueNo (s₁.g q (swB w)) →
      s₁.qEn n = true →
      ((s₁.seqCtx q = none ∧ s₁.qClass n ≠ 0) ∨ (3 ≤ s₁.qClass n ∧ s₁.seqCtx q = some (s₁.qCtx n)) ∨
        ∃ x, (s₁.qClass n = 1 ∨ s₁.qClass n = 2) ∧ s₁.seqCtx q = some x ∧ ∀ c ∈ s₁.qCards n, Card.ctx c = x) →
      exec (.qflush q) s = .next ((s₁.flushQueue n).seqNext q)) ∧
  (∀ (s : State) (s₁ : State) (q : Fin 4) (w : BitVec 32) (p : Nat) (c : Card) (rest : List Card),
      s.seqReady q 30 = true →
      s₁ = s.seqBegin q 30 →
      w = s.seqWord q →
      p = (s₁.g q (swB w)).toNat →
      s₁.seqPort q p = true →
      (s₁.rx p).fifo = c :: rest →
      exec (.rxdeq q) s = .next (((((s₁.setRx p { s₁.rx p with fifo := rest, current := currentAfter (s₁.rx p).current c }).setSeqCard q (swN w) c).setOrigin q (swN w) 0xFFF).seqPut q w 0))) ∧
  (∀ (s : State) (s₁ : State) (q : Fin 4) (w : BitVec 32) (p : Nat),
      s.seqReady q 30 = true →
      s₁ = s.seqBegin q 30 →
      w = s.seqWord q →
      p = (s₁.g q (swB w)).toNat →
      s₁.seqPort q p = true →
      (s₁.rx p).fifo = [] →
      exec (.rxdeq q) s = .next (s₁.seqPut q w 1)) ∧
  (∀ (s : State) (s₁ : State) (q : Fin 4) (w : BitVec 32) (p : Nat),
      s.seqReady q 31 = true →
      s₁ = s.seqBegin q 31 →
      w = s.seqWord q →
      p = (s₁.g q (swB w)).toNat →
      s₁.seqPort q p = true →
      exec (.rxdrop q) s = .next ((s₁.rxDrop p).seqNext q)) ∧
  (∀ (s : State) (s₁ : State) (q : Fin 4) (w : BitVec 32) (s₂ : State) (c : Card) (r : EnqStatus),
      s.seqReady q 32 = true →
      s₁ = s.seqBegin q 32 →
      w = s.seqWord q →
      c = s₁.dispCard q w →
      (Card.tag c = 0x01 ∧ Card.jUnit c ≤ 170) →
      s₁.offer .seq (s₁.seqCtx q) (4 * Card.jUnit c) c = (s₂, r) →
      exec (.disp q) s = .next (s₂.seqPut q w (BitVec.ofNat 64 r.code))) ∧
  (∀ (s : State) (s₁ : State) (q : Fin 4) (w : BitVec 32) (s₂ s₃ : State) (a x n : Nat) (bs : List Byte) (es : List SchedEntry),
      s.seqReady q 33 = true →
      s₁ = s.seqBegin q 33 →
      w = s.seqWord q →
      a = (s₁.g q (swB w)).toNat →
      x = s₁.granOwner (smGranule a) →
      n = 4 * s₁.tableRead a 4096 →
      s₁.seqReach q a n = true →
      s₁.seqWaits q a n = false →
      s₁.tableEntries a 4096 = some es →
      s₁.memRead a n = (s₂, bs, none) →
      s₃ = s₂.seqBytes q n →
      s₃.tableOk q es = true →
      exec (.tbind q) s = .next ((s₃.modSeq q fun z => { z with table := some (bindTable a x (s₃.g q (swC w)).toNat es) }).seqNext q)) ∧
  (∀ (s : State) (s₁ : State) (q : Fin 4) (w : BitVec 32) (s₂ : State) (us : List Upset) (t : BoundTable) (bs : List Byte) (e : SchedEntry) (v : Word) (acc : Nat),
      s.seqReady q 34 = true →
      s₁ = s.seqBegin q 34 →
      w = s.seqWord q →
      (s₁.seq q).table = some t →
      s₁.seqReach q (t.addr + 4 * t.ptr) 4 = true →
      s₁.seqWaits q (t.addr + 4 * t.ptr) 4 = false →
      (s₁.memUpset us).memRead (t.addr + 4 * t.ptr) 4 = (s₂, bs, none) →
      e = BitVec.ofNat 32 (leNat bs) →
      SchedEntry.op e ≠ 0 →
      v = s₂.rd (R.qmVsmap q (SchedEntry.vstage e)) →
      bits v 53 53 ≠ 0 →
      (acc = (t.accBase + if SchedEntry.op e = 5 then t.maxMb else SchedEntry.mb e) % 2 ^ 32) →
      exec (.tnext q us) s = .next (((((s₂.seqBytes q 4).modSeq q fun z => { z with table := some { t with ptr := t.ptr + 1 } }).setSeqCard q (swN w)
        (tableCard t e acc (bits v 52 48))).setOrigin q (swN w) 0xFFF).seqPut q w (BitVec.ofNat 64 (e.toNat + acc * 2 ^ 32)))) ∧
  (∀ (s : State) (s₁ : State) (q : Fin 4) (w : BitVec 32) (s₂ : State) (us : List Upset) (t : BoundTable) (bs : List Byte) (x : Nat),
      s.seqReady q 34 = true →
      s₁ = s.seqBegin q 34 →
      w = s.seqWord q →
      (s₁.seq q).table = some t →
      s₁.seqReach q (t.addr + 4 * t.ptr) 4 = true →
      s₁.seqWaits q (t.addr + 4 * t.ptr) 4 = false →
      (s₁.memUpset us).memRead (t.addr + 4 * t.ptr) 4 = (s₂, bs, none) →
      SchedEntry.op (BitVec.ofNat 32 (leNat bs)) = 0 →
      (s₁.seqCtx q = some x ∧ (s₂.seqPut q w 0).seqCtx q = some x) →
      exec (.tnext q us) s = .next ((s₂.seqPut q w 0).scheduleEnd x)) ∧
  (∀ (s : State) (s₁ : State) (q : Fin 4) (w : BitVec 32) (m c d : Card),
      s.seqReady q 35 = true →
      s₁ = s.seqBegin q 35 →
      w = s.seqWord q →
      m = s₁.seqCard q (swM w) →
      c = setBits (setBits (s₁.seqCard q (swN w)) 115 96 (Card.srcChip m)) 127 116 (Card.slice m) →
      d = setBits (setBits (setBits c 511 500 (Card.get m 38 2 % 4096)) 486 480 (Card.xPool m)) 498 487 (Card.xFirst m) →
      (Card.tag m = 0x10 ∨ Card.tag m = 0x11) →
      exec (.jlink q) s = .next ((s₁.setSeqCard q (swN w) (if Card.tag m = 0x11 then setBits d 499 499 1 else d)).seqNext q)) ∧
  (∀ (s : State) (s₁ : State) (q : Fin 4) (w : BitVec 32) (h n b z : Nat) (p : Program),
      s.seqReady q 36 = true →
      s₁ = s.seqBegin q 36 →
      w = s.seqWord q →
      h = (s₁.g q (swA w)).toNat →
      n = (s₁.g q (swB w)).toNat →
      b = (s₁.g q (swC w)).toNat →
      z = (s₁.g q (swD w)).toNat →
      p = s₁.progs.get {} h →
      h < 1024 →
      (s₁.seqCtx q = none ∨ (s₁.seqCtx q = some p.ctx ∧ p.code ≠ [])) →
      (n < 16 ∧ b % 4096 = 0 ∧ z % 4096 = 0 ∧ b < 2 ^ 34 ∧ z < 2 ^ 35) →
      exec (.pwin q) s = .next (({ s₁ with wintab := s₁.wintab.set (0, 0) (16 * h + n) (b, z) } : State).seqNext q))

/-- R286–R296, R379: `s₁` is the state as the instruction begins, `w` its word. -/
def Obligations.TransferInstructionsComplete : Prop :=
  (∀ (s : State) (s₁ : State) (q : Fin 4) (w : BitVec 32) (s₀ s₂ s₃ : State) (k : Nat) (c : Card),
      s.seqReady q 40 = true →
      s₁ = s.seqBegin q 40 →
      w = s.seqWord q →
      k = swK w →
      c = s₁.seqCard q (swN w) →
      (s₁.slotState q k = 0 ∨ s₁.slotState q k = 3) →
      c.sendOk = true →
      (s₀ = (if s₁.slotState q k = 3 then s₁.advanceTo ((s₁.slot q k).since + uclk 64) else s₁)) →
      s₂ = s₀.setSlot q k { card := c, origin := s₀.seqOrigin q (swN w), since := s₀.now } →
      s₃ = s₂.setFld (R.stgXslot q k) 24 23 (s₂.slotGen q k + 1) →
      exec (.xreq q) s = .next (((s₃.setSlotState q k 1).slotRequest q k).seqNext q)) ∧
  (∀ (s : State) (s₁ : State) (q : Fin 4) (w : BitVec 32),
      s.seqReady q 41 = true →
      s₁ = s.seqBegin q 41 →
      w = s.seqWord q →
      exec (.xstat q) s = .next (s₁.seqPut q w (BitVec.ofNat 64 (s₁.fld (R.stgXslot q (swK w)) 22 0)))) ∧
  (∀ (s : State) (s₁ : State) (q : Fin 4) (w : BitVec 32) (s₂ : State) (us : List Upset) (k : Nat) (c : Card),
      s.seqReady q 42 = true →
      s₁ = s.seqBegin q 42 →
      w = s.seqWord q →
      k = swK w →
      c = (s₁.slot q k).card →
      s₁.slotState q k = 2 →
      s₁.seqReach q (Card.sSrc c) (Card.sBytes c) = true →
      s₁.seqWaits q (Card.sSrc c) (Card.sBytes c) = false →
      s₂ = ((s₁.memUpset us).sendLead q k).setSlotState q k 6 →
      exec (.xmove q us) s = .next (((s₂.setSlot q k { s₂.slot q k with moving := true, sent := 0 }).pump q k pumpFuel).seqNext q)) ∧
  (∀ (s : State) (s₁ : State) (q : Fin 4) (w : BitVec 32) (k b : Nat),
      s.seqReady q 43 = true →
      s₁ = s.seqBegin q 43 →
      w = s.seqWord q →
      k = swK w →
      b = 16 * q.val + bits w 7 4 →
      s₁.slotState q k = 2 →
      (((List.range 16).any fun j => s₁.slotState q j == 7 && (s₁.slot q j).buffer == some b) = false) →
      exec (.xbind q) s = .next (((((s₁.setSlot q k { s₁.slot q k with buffer := some b, unit := (s₁.g q (swB w)).toNat, accepting := true }).setSlotState q k 7).sendLead q k).seqNext q))) ∧
  (∀ (s : State) (s₁ : State) (q : Fin 4) (w : BitVec 32) (k : Nat),
      s.seqReady q 44 = true →
      s₁ = s.seqBegin q 44 →
      w = s.seqWord q →
      k = swK w →
      (s₁.slotState q k = 6 ∨ s₁.slotState q k = 8 ∨ s₁.slotState q k = 10) →
      s₁.seqState q = 2 →
      exec (.xdone q) s = .next (((s₁.seqHold q).modSeq q fun z => { z with xdone := some k }).xdoneTry q k)) ∧
  (∀ (s : State) (s₁ : State) (q : Fin 4) (w : BitVec 32) (k : Nat),
      s.seqReady q 44 = true →
      s₁ = s.seqBegin q 44 →
      w = s.seqWord q →
      k = swK w →
      s₁.slotState q k = 7 →
      s₁.seqState q = 2 →
      exec (.xdone q) s = .next ((((s₁.setSlot q k { s₁.slot q k with accepting := false }).seqHold q).modSeq q fun z => { z with xdone := some k }).xdoneTry q k)) ∧
  (∀ (s : State) (s₁ : State) (q : Fin 4) (w : BitVec 32) (k : Nat),
      s.seqReady q 45 = true →
      s₁ = s.seqBegin q 45 →
      w = s.seqWord q →
      k = swK w →
      (s₁.slotState q k = 3 ∨ s₁.slotState q k = 4 ∨ s₁.slotState q k = 9) →
      exec (.xfree q) s = .next (((s₁.setSlot q k {}).setSlotState q k 0).seqNext q)) ∧
  (∀ (s : State) (s₁ : State) (q : Fin 4) (w : BitVec 32) (k : Nat),
      s.seqReady q 45 = true →
      s₁ = s.seqBegin q 45 →
      w = s.seqWord q →
      k = swK w →
      s₁.slotState q k = 5 →
      (s₁.slot q k).freeing = false →
      exec (.xfree q) s = .next ((s₁.setSlot q k { s₁.slot q k with freeing := true, epoch := s₁.epoch + 2 }).seqNext q)) ∧
  (∀ (s : State) (s₁ : State) (q : Fin 4) (w : BitVec 32) (i f n : Nat) (ks : List Nat),
      s.seqReady q 46 = true →
      s₁ = s.seqBegin q 46 →
      w = s.seqWord q →
      i = (s₁.g q (swB w)).toNat →
      f = (s₁.g q (swC w)).toNat →
      n = (s₁.g q (swD w)).toNat →
      ks = slotRun (s₁.poolSlots i) f (min n 4096) →
      i < 128 →
      (s₁.seqCtx q = none ∨ s₁.seqCtx q = some (s₁.poolCtx i)) →
      (f < s₁.poolSlots i ∧ n ≤ s₁.poolSlots i) →
      (ks.any (fun k => (s₁.pool i).slots.get 0 k != 2) = false) →
      exec (.crel q) s = .next ((s₁.releaseSlots i ks).seqNext q)) ∧
  (∀ (s : State) (s₁ : State) (q : Fin 4) (w : BitVec 32) (d : Nat) (c : Card),
      s.seqReady q 47 = true →
      s₁ = s.seqBegin q 47 →
      w = s.seqWord q →
      d = (s₁.g q (swB w)).toNat % 2 ^ 20 →
      c = s₁.forced q (s₁.seqCard q (swN w)) →
      s₁.xcardTag q (Card.tag c) = true →
      d ≠ s₁.chip →
      exec (.xcard q) s = .next ((((s₁.sendPkt (mkCard d s₁.chip (Card.slice c) c) (some (Card.ctx c))).1).account (Card.ctx c) 7 (16 + 64)).seqNext q)) ∧
  (∀ (s : State) (s₁ : State) (q : Fin 4) (w : BitVec 32) (d : Nat) (c : Card),
      s.seqReady q 47 = true →
      s₁ = s.seqBegin q 47 →
      w = s.seqWord q →
      d = (s₁.g q (swB w)).toNat % 2 ^ 20 →
      c = s₁.forced q (s₁.seqCard q (swN w)) →
      s₁.xcardTag q (Card.tag c) = true →
      d = s₁.chip →
      exec (.xcard q) s = .next ((s₁.toChip 32 (mkCard d s₁.chip (Card.slice c) c)).seqNext q)) ∧
  (∀ (s : State) (q : Fin 4) (k : Fin 16),
      s.slotState q k = 1 →
      (s.slot q k).closing = false →
      exec (.xtimeout q k) s = .next ((s.advanceTo ((s.slot q k).since + s.xtimeout q)).setSlotState q k 5))

/-- R274, R297 and Table 17-2: `s₁` is the state as the instruction begins, `w` its word. A word out of reach is a stage
fault with reason MMIO. -/
def Obligations.SequencerRegisterAccessAndRunComplete : Prop :=
  (∀ (s : State) (s₁ : State) (q : Fin 4) (w : BitVec 32) (s₂ : State) (pg off v : Nat),
      s.seqReady q 48 = true →
      s₁ = s.seqBegin q 48 →
      w = s.seqWord q →
      mmioAt (s₁.g q (swB w)).toNat = some (pg, off) →
      off % 4 = 0 →
      s₁.mayAccess q pg off 4 false = true →
      s₁.readReg q pg off 4 = (s₂, v) →
      exec (.mmr q) s = .next (s₂.seqPut q w (BitVec.ofNat 64 v))) ∧
  (∀ (s : State) (s₁ : State) (q : Fin 4) (w : BitVec 32) (pg off : Nat),
      s.seqReady q 49 = true →
      s₁ = s.seqBegin q 49 →
      w = s.seqWord q →
      mmioAt (s₁.g q (swB w)).toNat = some (pg, off) →
      off % 4 = 0 →
      s₁.mayAccess q pg off 4 true = true →
      exec (.mmw q) s = .next ((s₁.writeReg q pg off 4 ((s₁.g q (swC w)).toNat % 2 ^ 32)).seqNext q)) ∧
  (∀ (s : State) (s₁ : State) (q : Fin 4) (w : BitVec 32) (pg off : Nat),
      s.seqReady q 49 = true →
      s₁ = s.seqBegin q 49 →
      w = s.seqWord q →
      mmioAt (s₁.g q (swB w)).toNat = some (pg, off) →
      off % 4 = 0 →
      s₁.mayAccess q pg off 4 true = false →
      exec (.mmw q) s = .next (s₁.stageFault q 8)) ∧
  (∀ (s : State) (q : Fin 4),
      s.bit (R.stgSeqCtrl q) 0 = false →
      (s.seq q).loaded = true →
      ((s.seq q).fresh = true ∨ s.seqState q = 4 ∨ s.seqState q = 5) →
      exec (.run q) s = .next (((s.seqStart q).setBit (R.stgSeqCtrl q) 0 true).setSeqState q 2)) ∧
  (∀ (s : State) (q : Fin 4),
      s.bit (R.stgSeqCtrl q) 0 = false →
      (s.seq q).loaded = true →
      (s.seq q).fresh = false →
      s.seqState q = 1 →
      exec (.run q) s = .next ((s.setBit (R.stgSeqCtrl q) 0 true).setSeqState q 2)) ∧
  (∀ (s : State) (s₁ : State) (q : Fin 4),
      (s₁ = (s.setBit (R.stgSeqCtrl q) 0 false).modSeq q fun z => { z with xdone := none }) →
      (s₁.seqState q = 2 ∨ s₁.seqState q = 3) →
      exec (.runClear q) s = .next (s₁.setSeqState q 1))

/-- R212, R462, R463, R491, R505, R507, R555, R556, R559–R563: one clause per command; for INT_ENABLE also the refusal.
That a register message is judged by the host's column is the model's reading (log entry 78). -/
def Obligations.RegisterAccessCommandsComplete : Prop :=
  (∀ (s : State) (agent : Fin 7) (page : Fin 4096) (value : BitVec 32),
      s.mayAccess agent page 0x28 4 true = true →
      exec (.intForce agent page value) s = .next (s.writeReg agent page 0x28 4 value.toNat)) ∧
  (∀ (s : State) (agent : Fin 7) (page : Fin 4096) (value : BitVec 32),
      s.mayAccess agent page 0x24 4 true = true →
      exec (.intEnable agent page value) s = .next (s.writeReg agent page 0x24 4 value.toNat)) ∧
  (∀ (s : State) (agent : Fin 7) (page : Fin 4096) (value : BitVec 32),
      4 ≤ agent.val →
      s.mayAccess agent page 0x24 4 true = false →
      exec (.intEnable agent page value) s = .next (s.privDenied (s.agentCode agent) page)) ∧
  (∀ (s : State) (agent : Fin 7) (page : Fin 4096),
      s.mayAccess agent page 0x40 4 true = true →
      exec (.lock agent page) s = .next (s.writeReg agent page 0x40 4 1)) ∧
  (∀ (s : State) (agent : Fin 7) (page : Fin 4096) (word : Fin 1024),
      s.mayAccess agent page (4 * word) 4 false = true →
      exec (.readLatch agent page word) s = .next ((s.readReg agent page (4 * word) 4).1)) ∧
  (∀ (s : State) (agent : Fin 7) (page : Fin 4096) (word : Fin 1024) (wide : Bool) (value : BitVec 64),
      (wide = true → word.val % 2 = 0) →
      (s.mayAccess agent page (4 * word) (if wide then 8 else 4) true = true) →
      exec (.registerWrite agent page word wide value) s = .next (s.writeReg agent page (4 * word) (if wide then 8 else 4) value.toNat)) ∧
  (∀ (s : State) (s₁ : State) (offset : BitVec 24) (size : Fin 65) (value : BitVec 64) (pg off n : Nat),
      s.hostUp = true →
      n = size.val →
      pg = offset.toNat / 4096 →
      off = offset.toNat % 4096 →
      s₁ = s.globalEvent 49 1 n →
      s₁.hostShut = false →
      regAligned off n = true →
      s₁.devFatal = false →
      s₁.mayAccess 4 pg off n true = true →
      exec (.bar0Access true offset size value) s = .next (s₁.writeReg 4 pg off n value.toNat)) ∧
  (∀ (s : State) (s₁ s₂ : State) (offset : BitVec 24) (size : Fin 65) (value : BitVec 64) (pg off n v : Nat),
      s.hostUp = true →
      n = size.val →
      pg = offset.toNat / 4096 →
      off = offset.toNat % 4096 →
      s₁ = s.globalEvent 49 2 n →
      s₁.hostShut = false →
      regAligned off n = true →
      s₁.devFatal = false →
      s₁.mayAccess 4 pg off n false = true →
      s₁.readReg 4 pg off n = (s₂, v) →
      exec (.bar0Access false offset size value) s = .next (s₂.hostAnswer 0 false (natLE n v))) ∧
  (∀ (s : State) (s₁ : State) (addr : BitVec 34) (len : Fin 4096) (us : List Upset) (a n : Nat),
      s₁ = s.memUpset us →
      a = addr.toNat →
      n = len + 1 →
      s₁.hostUp = true →
      s₁.hostShut = false →
      s₁.bit R.trustAccess 0 = true →
      s₁.devFatal = false →
      a + n ≤ smSize →
      ((granulesOf a n).all (fun g => s₁.granValid g && !s₁.granBusy g) = true) →
      s₁.smem.fillWaits = [] →
      exec (.bar2Read addr len us) s = .next (s₁.bar2Read a n)) ∧
  (∀ (s : State) (addr : BitVec 34) (data : List Byte) (ep : Bool) (a n : Nat),
      a = addr.toNat →
      n = data.length →
      data ≠ [] →
      s.hostUp = true →
      s.hostShut = false →
      s.bit R.trustAccess 0 = true →
      s.devFatal = false →
      a + n ≤ smSize →
      ((granulesOf a n).all (fun g => s.granValid g && !s.granBusy g) = true) →
      s.smem.fillWaits = [] →
      exec (.bar2Write addr data ep) s = .next (s.bar2Write a data ep)) ∧
  (∀ (s : State) (s₁ : State) (addr : BitVec 64) (pg off v : Nat),
      s.firmware = true →
      mmioAt addr.toNat = some (pg, off) →
      off % 4 = 0 →
      hostMay pg off false = true →
      s.readReg 5 pg off 4 = (s₁, v) →
      exec (.regRead 0 addr) s = .next (s₁.respond 0 0 (natLE 4 v))) ∧
  (∀ (s : State) (addr : BitVec 64) (value : BitVec 32) (pg off : Nat),
      s.firmware = true →
      mmioAt addr.toNat = some (pg, off) →
      off % 4 = 0 →
      hostMay pg off true = true →
      pg ≠ 498 →
      exec (.regWrite 0 addr value) s = .next ((s.writeReg 5 pg off 4 value.toNat).respond 0 0 [])) ∧
  (∀ (s : State) (s₁ : State) (granule : Fin 512) (go left : List FillWait),
      s.granBusy granule = true →
      s₁ = s.setBit (R.smemcGranule granule) 12 false →
      fillReady s₁ s₁.smem.fillWaits [] = (go, left) →
      exec (.zeroFillEnd granule) s = .next (go.foldl (fun (st : State) f => st.bar2Go f) { s₁ with smem := { s₁.smem with fillWaits := left } }))

/-- R225, R228, R229, R291, R341, R353, R354: `s₁` is the state with the packet taken in. -/
def Obligations.CreditAndPacketCommandsComplete : Prop :=
  (∀ (s : State) (s₁ : State) (port : Nat) (p : Pkt),
      s.takeIn ptCreditReq = some (port, p, s₁) →
      exec (.creditReq) s = .next (s₁.creditRequest (p.b 6 0) { port := min port 32, chip := p.src, slice := p.slice, requester := port, count := p.b 13 7, tag := p.b 21 14 })) ∧
  (∀ (s : State) (s₁ s₂ : State) (pool : Fin 128) (w : CreditWait) (rest : List CreditWait) (f : Nat),
      (s.pool pool).waiting = w :: rest →
      s.poolEn pool = true →
      w.count ≤ s.poolFree pool →
      (s.openGrants pool).length < 64 →
      f = s.poolNext pool →
      s₁ = s.setPool pool { (s.pool pool).mark (slotRun (s.poolSlots pool) f w.count) 1 with waiting := rest, grants := ((s.pool pool).mark (slotRun (s.poolSlots pool) f w.count) 1).grants ++ [{ first := f, count := w.count, chip := w.chip, time := s.now }] } →
      s₂ = s₁.setFld (R.poolPoolState pool) 11 0 ((f + w.count) % s₁.poolSlots pool) →
      exec (.creditGrant pool) s = .next ((s₂.takeFree pool w.count).creditAnswer pool w 0 f)) ∧
  (∀ (s : State) (s₁ : State) (port h : Nat) (p : Pkt),
      s.takeIn ptCreditReply = some (port, p, s₁) →
      s₁.collReplyFor p.src (p.b 6 0) (p.b 21 14) = some h →
      exec (.creditReply) s = .next (s₁.collReply h (p.b 21 14) (p.b 23 22) (p.b 35 24))) ∧
  (∀ (s : State) (s₁ : State) (port : Nat) (p : Pkt),
      s.takeIn ptCreditReply = some (port, p, s₁) →
      s₁.collReplyFor p.src (p.b 6 0) (p.b 21 14) = none →
      exec (.creditReply) s = .next (s₁.creditReplySlot (p.b 21 14) (p.b 23 22) (p.b 35 24) (p.b 13 7))) ∧
  (∀ (s : State) (pool : Fin 128),
      s.poolEn pool = false →
      s.poolEnableOk pool = true →
      exec (.poolEnable pool) s = .next (((s.setBit (R.poolPoolCfg pool) 0 true).startFree pool).setPool pool {})) ∧
  (∀ (s : State) (pool : Fin 128),
      s.poolEn pool = true →
      exec (.poolDisable pool) s = .next (s.poolOff pool)) ∧
  (∀ (s : State) (s₁ : State) (port : Nat) (p : Pkt),
      s.takeIn ptWrite = some (port, p, s₁) →
      p.wOff + p.wLen ≤ smSize →
      exec (.write) s = .next ((s₁.landWrite port p).1.wackOf p (!(s₁.landWrite port p).2))) ∧
  (∀ (s : State) (s₁ : State) (port pg off size v : Nat) (s₂ : State) (p : Pkt),
      s.takeIn ptRreq = some (port, p, s₁) →
      (size = if p.b 38 38 = 1 then 8 else 4) →
      smSize ≤ p.b 37 0 →
      mmioAt (p.b 37 0) = some (pg, off) →
      sliceMay pg = true →
      p.slice = s₁.fld R.fabMgmtSlice 11 0 →
      regAligned off size = true →
      s₁.mayAccess 6 pg off size false = true →
      s₁.readReg 6 pg off size = (s₂, v) →
      exec (.rreq) s = .next ((s₂.sendPkt (mkRcpl p.src s₂.chip p.slice (p.b 61 46) 0 v) none).1)) ∧
  (∀ (s : State) (s₁ s₂ : State) (port : Nat) (p : Pkt) (t : TagRec),
      s.takeIn ptWack = some (port, p, s₁) →
      s₁.closeTag (p.b 15 0) p.src = (s₂, some t) →
      exec (.wack) s = .next ((s₂.tagOutcome t (p.b 16 16) 0).pumpAll)) ∧
  (∀ (s : State) (s₁ s₂ : State) (port : Nat) (p : Pkt) (t : TagRec),
      s.takeIn ptRcpl = some (port, p, s₁) →
      s₁.closeTag (p.b 15 0) p.src = (s₂, some t) →
      exec (.rcpl) s = .next ((s₂.reply t.requester t.info (p.b 17 16) (leNat (p.data.take 8))).pumpAll)) ∧
  (∀ (s : State) (s₁ s₂ : State) (tag : Fin 65536) (r : TagRec),
      r = s.fab.tags.get { dest := 0xFFFFFFFF } tag →
      (r.dest ≠ 0xFFFFFFFF ∧ r.quarantined = false) →
      s₁ = s.advanceTo r.deadline →
      (s₂ = (s₁.modFab fun x => { x with tags := x.tags.put tag { r with quarantined := true, epoch := s₁.epoch } }).showTags) →
      exec (.reqTimeout tag) s = .next (((s₂.count R.fabTimeoutCnt 1).globalEvent 50 3 1).tagOutcome r 2 0)) ∧
  (∀ (s : State) (s₁ : State) (requester : Fin 11),
      s.fab.tagWait.get 0 requester ≠ 0 →
      s.fab.tagRaised.contains requester.val = false →
      s₁ = s.advanceTo (s.fab.tagWait.get 0 requester - 1 + 160000) →
      exec (.tagExhaust requester) s = .next ((s₁.modFab fun x => { x with tagRaised := requester :: x.tagRaised }).raise { code := 0x6005 }))

/-- R342–R344, R348, R352, R357–R360: one clause per command and outcome. The order in which an exchange is acted on
follows the model's reading of R358 (log entry 48). -/
def Obligations.TableAndTimeCommandsComplete : Prop :=
  (∀ (s : State) (group : Fin 8) (old : List Nat) (t : Nat),
      s.fab.fences.get ([], 0) group = (old, t + 1) →
      (old.all (fun p => s.portState p == 8 || (s.port p).retry.all fun e => e.2.cls == 0) = true) →
      exec (.fence group) s = .next (s.modFab fun x => { x with fences := x.fences.erase group })) ∧
  (∀ (s : State) (group : Fin 8) (old : List Nat) (t : Nat),
      s.fab.fences.get ([], 0) group = (old, t + 1) →
      (old.all (fun p => s.portState p == 8 || (s.port p).retry.all fun e => e.2.cls == 0) = false) →
      exec (.fence group) s = .next ((s.advanceTo (t + 1)).modFab fun x => { x with fences := x.fences.erase group })) ∧
  (∀ (s : State) (port : Fin 32),
      s.portState port = 5 →
      exec (.rollcallSend port) s = .next (s.modPort port fun x => { x with txq := x.txq ++ [{ ptype := ptRollcall, cls := 1, dst := 0, src := s.chip, slice := s.fld R.fabMgmtSlice 11 0, data := s.rollcallData port }] })) ∧
  (∀ (s : State) (s₁ s₂ : State) (port : Nat) (p : Pkt) (n : Nbr),
      s.takeIn ptRollcall = some (port, p, s₁) →
      (p.data.take 1).map (·.toNat) = [1] →
      n = { valid := true, bytes := BitVec.ofNat 512 (leNat p.data) } →
      (s₂ = s₁.modFab fun x => { x with nbr := x.nbr.set {} port n }) →
      s₁.fab.nbr.get {} port = n →
      exec (.rollcall) s = .next (s₂.fenceFrom s₁)) ∧
  (∀ (s : State) (s₁ s₂ : State) (port : Nat) (p : Pkt) (n : Nbr),
      s.takeIn ptRollcall = some (port, p, s₁) →
      (p.data.take 1).map (·.toNat) = [1] →
      n = { valid := true, bytes := BitVec.ofNat 512 (leNat p.data) } →
      s₁.fab.nbr.get {} port ≠ n →
      (s₂ = (s₁.modFab fun x => { x with nbr := x.nbr.set {} port n }).intEvent 496 0) →
      exec (.rollcall) s = .next ((if s₂.dupPort port then s₂.raise { code := 0x6002, loc := port } else s₂).fenceFrom s₁)) ∧
  (∀ (s : State) (s₁ : State),
      s.rollDone = false →
      s₁ = s.setBit R.fabCtrl 0 true →
      s₁.fld R.mgtStartStatus 3 0 ≠ 6 →
      exec (.rollcallDone) s = .next (s₁)) ∧
  (∀ (s : State) (s₁ : State),
      s.rollDone = false →
      s₁ = s.setBit R.fabCtrl 0 true →
      s₁.fld R.mgtStartStatus 3 0 = 6 →
      exec (.rollcallDone) s = .next (s₁.setPhase 7)) ∧
  (∀ (s : State) (t : State) (chip : Fin 1048576),
      s.rollDone = false →
      (t = (s.wr R.fabChipId (BitVec.ofNat 64 chip)).modFab fun x => { x with assigned := true }) →
      (s.fab.assigned = false ∨ s.chip ≠ chip) →
      exec (.chipId chip) s = .next ((List.range 32).foldl (fun (st : State) p => if (st.sendRollcall p).dupPort p = true then (st.sendRollcall p).raise { code := 0x6002, loc := p } else st.sendRollcall p) (t.fenceFrom s))) ∧
  (∀ (s : State) (value : Word) (i t : Nat),
      (s.bit R.fabStatus 1 = false ∧ s.bit R.fabCtrl 2 = false) →
      i = s.fld R.fabTblSel 11 0 →
      t = s.fld R.fabTblSel 13 12 →
      (t ≤ 1 ∧ i < 1024) →
      exec (.tblData value) s = .next (s.modFab fun x => { x with routes := x.routes.set 0 (2048 * (1 - s.activeBank) + 1024 * t + i) (withParity 31 value.toNat) })) ∧
  (∀ (s : State) (value : Word),
      (s.bit R.fabStatus 1 = false ∧ s.bit R.fabCtrl 2 = false) →
      s.fld R.fabTblSel 13 12 = 2 →
      exec (.tblData value) s = .next (s.modFab fun x => { x with permits := x.permits.set 0 (4096 * (1 - s.activeBank) + s.fld R.fabTblSel 11 0) (withParity 35 value.toNat) })) ∧
  (∀ s : State,
      s.bit R.fabCtrl 2 = false →
      s.bit R.fabStatus 1 = false →
      exec (.copy) s = .next ((s.modFab fun x => { x with copyAt := s.ltime }).setBit R.fabStatus 1 true)) ∧
  (∀ (s : State) (s₁ : State) (b : Nat),
      s.bit R.fabStatus 1 = true →
      s₁ = s.localTo (s.fab.copyAt + uclk 6144) →
      b = s₁.activeBank →
      exec (.copyEnd) s = .next ((s₁.modFab fun x => { x with routes := bankCopy x.routes 2048 b (1 - b), permits := bankCopy x.permits 4096 b (1 - b) }).setBit R.fabStatus 1 false)) ∧
  (∀ s : State,
      s.bit R.fabCtrl 2 = false →
      s.epoch < (s.rd R.fabSwapEpoch).toNat →
      exec (.arm) s = .next (s.setBit R.fabCtrl 2 true)) ∧
  (∀ (s : State) (s₁ s₂ s₃ s₄ : State),
      (s₁ = if s.fab.epochSeen < s.epoch then s else s.advanceTo ((s.epoch + 1) * 2 ^ s.fld R.fabEpochCfg 5 0)) →
      (s₂ = s₁.modFab fun x => { x with epochSeen := s₁.epoch }) →
      (s₃ = (if s₂.bit R.fabCtrl 2 = true ∧ (s₂.rd R.fabSwapEpoch).toNat ≤ s₂.epoch then s₂.swapBanks else s₂).switchKeys) →
      (s₄ = (s₃.modFab fun x => { x with tags := x.tags.filter fun t => !(t.2.quarantined && t.2.epoch + 2 ≤ s₃.epoch) }).showTags) →
      exec (.epochTick) s = .next (((List.range 4).foldl (fun (st : State) q => st.modSeq q fun z => { z with events := z.events ||| 1024 }) (s₄.retireSlots.retireTags s₃.epoch)).pumpAll)) ∧
  (∀ (s : State) (s₁ s₂ : State),
      s.bit R.fabTimeCfg 0 = false →
      (s.bit R.fabTimeCfg 24 = true ∨ s.fab.sync.alt = true) →
      (s₁ = match s.fab.sync.lastSent with | some t => s.advanceTo (t + s.syncTicks) | none => s) →
      (s₂ = s₁.modSync fun y => { y with missed := if y.lastSent.isSome ∧ y.outstanding.isSome then y.missed + 1 else y.missed, lastSent := some s₁.now, outstanding := some s₁.now }) →
      exec (.tsyncSend) s = .next ((s₂.sendPkt (mkTsyncReq s₂.timeParent s₂.chip (s₂.fld R.fabMgmtSlice 11 0)) none).1)) ∧
  (∀ (s : State) (s₁ : State) (port : Nat) (p : Pkt),
      s.takeIn ptTsyncReq = some (port, p, s₁) →
      exec (.tsyncReq) s = .next ((s₁.sendPkt (mkTsyncRsp p.src s₁.chip p.slice (leNat (p.data.take 8)) p.body (leNat ((p.data.drop 8).take 8))) none).1)) ∧
  (∀ (s : State) (s₁ : State) (port up t₁ t₂ t₃ corr : Nat) (p : Pkt),
      s.takeIn ptTsyncRsp = some (port, p, s₁) →
      t₁ = leNat ((p.data.drop (8 * 0)).take 8) →
      t₂ = leNat ((p.data.drop (8 * 1)).take 8) →
      t₃ = leNat ((p.data.drop (8 * 2)).take 8) →
      corr = leNat ((p.data.drop (8 * 3)).take 8) →
      up = min (Config.corrUp corr) corr →
      s₁.fab.sync.outstanding = some t₁ →
      p.body ≤ t₁ + 160000 →
      exec (.tsyncRsp) s = .next (s₁.timeExchange (((((t₂ : Int) - t₁ - up) - ((p.body : Int) - t₃ - (corr - up : Nat)) : Int) : Rat) / 2))) ∧
  (∀ s : State,
      3 ≤ s.fab.sync.missed →
      s.bit R.fabStatus 3 = false →
      s.bit R.fabTimeAlt 20 = true →
      s.fab.sync.alt = false →
      exec (.timeHoldover) s = .next (s.modSync fun y => { y with alt := true, missed := 0, outstanding := none })) ∧
  (∀ (s : State) (s₁ : State),
      3 ≤ s.fab.sync.missed →
      s.bit R.fabStatus 3 = false →
      s.bit R.fabTimeAlt 20 = false →
      s₁ = s.setBit R.fabStatus 3 true →
      exec (.timeHoldover) s = .next (((((s₁.modSync fun y => { y with holdoverSince := s₁.now, r := y.f, good := 0 }).showRate.raise { code := 0x6006 }).intEvent 496 3).advise 2))) ∧
  (∀ (s : State) (s₁ : State),
      s.bit R.fabStatus 3 = true →
      s.fab.sync.lost = false →
      s₁ = s.advanceTo (s.fab.sync.holdoverSince + 16000000) →
      exec (.timeLost) s = .next ((((s₁.setBit R.fabStatus 2 false).modSync fun y => { y with lost := true, good := 0 }).raise { code := 0x6007 }).intEvent 496 3))

/-- R323–R329 and Table 11-7: one clause per command and outcome. A mask after CONFIG is the intersection of both ends'
masks (log entry 53). -/
def Obligations.LinkStartUpCommandsComplete : Prop :=
  (∀ (s : State) (port : Fin 32) (reach : Nat),
      s.portState port = 0 →
      s.bit (R.lnkPortCfg port) 0 = true →
      s.bit R.pwrDomainState (42 + port.val / 8) = true →
      s.cartReach port = some reach →
      (reach = 1 ∨ s.bit (R.cartCStatus port) 5 = false) →
      exec (.portEnable port) s = .next (((s.setFld (R.lnkStatus port) 10 9 reach).modPort port fun x => { encCtr := x.encCtr, slotNo := x.slotNo }).setPortState port 1)) ∧
  (∀ (s : State) (port : Fin 32) (reach : Nat),
      s.portState port = 0 →
      s.bit (R.lnkPortCfg port) 0 = true →
      s.bit R.pwrDomainState (42 + port.val / 8) = true →
      s.cartReach port = some reach →
      reach ≠ 1 →
      s.bit (R.cartCStatus port) 5 = true →
      exec (.portEnable port) s = .next (s.setPortState port 9)) ∧
  (∀ (s : State) (port : Fin 32),
      s.portState port = 1 →
      exec (.detect port true) s = .next (s.setPortState port 2)) ∧
  (∀ (s : State) (port : Fin 32),
      s.portState port = 1 →
      exec (.detect port false) s = .next ((s.advanceTo ((s.port port).since + 1600000000)).setPortState port 8)) ∧
  (∀ (s : State) (port : Fin 32) (trained : Fin 32) (m : Nat),
      s.portState port = 2 →
      (m = if s.standbyWired port then trained.val else trained.val % 16) →
      m ≠ 0 →
      exec (.calibrate port trained) s = .next ((s.setMask port (firstFour m)).setPortState port 3)) ∧
  (∀ (s : State) (port : Fin 32) (trained : Fin 32),
      s.portState port = 2 →
      trained.val = 0 →
      exec (.calibrate port trained) s = .next (s.failAttempt port)) ∧
  (∀ (s : State) (port : Fin 32) (locked : Fin 32) (m : Nat),
      s.portState port = 3 →
      m = s.portMask port &&& locked.val →
      m ≠ 0 →
      exec (.align port locked) s = .next ((s.setMask port m).enterConfig port)) ∧
  (∀ (s : State) (port : Fin 32) (locked : Fin 32) (m : Nat),
      (s.portState port = 6 ∧ (s.port port).phase = 1) →
      m = s.portMask port &&& locked.val →
      m ≠ 0 →
      exec (.align port locked) s = .next ((s.setMask port m).enterConfig port)) ∧
  (∀ (s : State) (s₁ : State) (port : Fin 32) (flit : BitVec 2048) (b : List Byte) (key mask m : Nat) (peer : PeerCfg) (s₂ s₃ s₄ : State),
      s.rxFlit port flit 2 = some s₁ →
      b = Flit.payload flit →
      leNat (b.take 1) = 1 →
      s₁.inConfig port = true →
      key = mField b 8 8 →
      mask = mField b 3 1 % 32 →
      peer = { port := mField b 2 1, mask, reach := mField b 5 1, key, bulk := mField b 16 2, control := mField b 18 2, response := mField b 20 2 } →
      s₂ = s₁.wr (R.lnkPeerKey port) (BitVec.ofNat 64 key) →
      key ≠ s₂.nodeKey →
      (mField b 1 1 = 1 ∧ s₂.minWidth port ≤ maskCount mask ∧ mField b 5 1 = s₂.fld (R.lnkStatus port) 10 9) →
      s₃ = s₂.setBit (R.lnkStatus port) 11 (s₂.nodeKey < key) →
      m = s₃.portMask port &&& mask →
      (s₄ = if m = 0 then s₃ else s₃.setMask port m) →
      exec (.config port flit) s = .next (((s₄.modPort port fun x => { x with peer, gotConfig := true }).sendLink port (msgKeyed 2 0 key 0)).tryActive port)) ∧
  (∀ (s : State) (s₁ : State) (port : Fin 32) (flit : BitVec 2048) (b : List Byte),
      s.rxFlit port flit 2 = some s₁ →
      b = Flit.payload flit →
      leNat (b.take 1) = 2 →
      s₁.inConfig port = true →
      mField b 8 8 = s₁.nodeKey →
      exec (.configAck port flit) s = .next ((s₁.modPort port fun x => { x with gotAck := true }).tryActive port)) ∧
  (∀ (s : State) (port : Fin 32),
      s.portState port = 3 →
      exec (.configTimeout port) s = .next ((s.advanceTo ((s.port port).since + 1600000)).failAttempt port)) ∧
  (∀ (s : State) (port : Fin 32),
      s.portState port = 4 →
      exec (.configTimeout port) s = .next ((s.advanceTo ((s.port port).since + 160000)).failAttempt port)) ∧
  (∀ (s : State) (port : Fin 32),
      s.portState port = 6 →
      (s.port port).phase = 2 →
      exec (.configTimeout port) s = .next ((s.advanceTo ((s.port port).since + 160000)).fullRetrain port)) ∧
  (∀ (s : State) (port : Fin 32),
      s.portState port = 5 →
      exec (.retrain port) s = .next (s.startRetrain port true)) ∧
  (∀ (s : State) (s₁ : State) (port : Fin 32) (flit : BitVec 2048) (b : List Byte) (s₂ : State),
      s.rxFlit port flit 2 = some s₁ →
      b = Flit.payload flit →
      leNat (b.take 1) = 4 →
      (s₁.portState port = 5 ∨ s₁.portState port = 7) →
      mField b 16 1 = 1 →
      s₂ = (s₁.noteRetrain port).sendLink port (msgKeyed 5 0 (mField b 8 8) 0) →
      exec (.retrainReq port flit) s = .next ((s₂.modPort port fun x => { x with retraining := true, phase := 1, full := false, wantMask := none, since := s₂.now }).setPortState port 6)) ∧
  (∀ (s : State) (s₁ : State) (port : Fin 32) (flit : BitVec 2048) (b : List Byte) (s₂ : State),
      s.rxFlit port flit 2 = some s₁ →
      b = Flit.payload flit →
      leNat (b.take 1) = 4 →
      (s₁.portState port = 5 ∨ s₁.portState port = 7) →
      mField b 16 1 ≠ 1 →
      s₂ = (s₁.noteRetrain port).sendLink port (msgKeyed 5 0 (mField b 8 8) 0) →
      exec (.retrainReq port flit) s = .next (((s₂.modPort port fun x => { x with retraining := true, phase := 1, full := false, wantMask := none, since := s₂.now }).setPortState port 6).fullRetrain port)) ∧
  (∀ (s : State) (s₁ : State) (port : Fin 32) (flit : BitVec 2048) (b : List Byte),
      s.rxFlit port flit 2 = some s₁ →
      b = Flit.payload flit →
      leNat (b.take 1) = 5 →
      (s₁.portState port = 6 ∧ (s₁.port port).phase = 0) →
      mField b 8 8 = s₁.nodeKey →
      (s₁.port port).full = false →
      exec (.retrainAck port flit) s = .next (s₁.modPort port fun x => { x with phase := 1 })) ∧
  (∀ (s : State) (s₁ : State) (port : Fin 32) (flit : BitVec 2048) (b : List Byte),
      s.rxFlit port flit 2 = some s₁ →
      b = Flit.payload flit →
      leNat (b.take 1) = 5 →
      (s₁.portState port = 6 ∧ (s₁.port port).phase = 0) →
      mField b 8 8 = s₁.nodeKey →
      (s₁.port port).full = true →
      exec (.retrainAck port flit) s = .next (s₁.fullRetrain port)) ∧
  (∀ (s : State) (port : Fin 32),
      s.portState port = 6 →
      (s.port port).phase < 2 →
      exec (.fastRetrainTimeout port) s = .next ((s.advanceTo ((s.port port).since + 80000)).fullRetrain port)) ∧
  (∀ (s : State) (port : Fin 32) (lane : Fin 5) (loss : Bool) (ucw m : Nat) (s₀ s₁ s₂ s₃ : State),
      s₀ = s.count (R.lnkFecUcw port lane) ucw →
      (s₀.portState port = 5 ∨ s₀.portState port = 7) →
      s.portMask port / 2 ^ lane.val % 2 = 1 →
      (loss = true ∨ s₀.fld (R.lnkLaneThresh port) 23 16 < ucw) →
      (s₁ = ((s₀.intEvent (448 + port) 1).linkRaise port 0x5003 lane).modLedger fun l => { l with spares := bump l.spares (600 + port) 1 }) →
      (s₂ = s₁.modPort port fun x => { x with badMask := x.badMask ||| 2 ^ lane.val }) →
      m = s.portMask port - (s.portMask port &&& (s₂.port port).badMask) →
      maskCount m < s₂.minWidth port →
      exec (.laneFailed port lane ⟨loss, ucw⟩) s = .next (s₂.startRetrain port false)) ∧
  (∀ (s : State) (port : Fin 32) (lane : Fin 5) (loss : Bool) (ucw m : Nat) (s₀ s₁ s₂ s₃ : State),
      s₀ = s.count (R.lnkFecUcw port lane) ucw →
      (s₀.portState port = 5 ∨ s₀.portState port = 7) →
      s.portMask port / 2 ^ lane.val % 2 = 1 →
      (loss = true ∨ s₀.fld (R.lnkLaneThresh port) 23 16 < ucw) →
      (s₁ = ((s₀.intEvent (448 + port) 1).linkRaise port 0x5003 lane).modLedger fun l => { l with spares := bump l.spares (600 + port) 1 }) →
      (s₂ = s₁.modPort port fun x => { x with badMask := x.badMask ||| 2 ^ lane.val }) →
      m = s.portMask port - (s.portMask port &&& (s₂.port port).badMask) →
      s₂.minWidth port ≤ maskCount m →
      (s₃ = (s₂.startStandby port).modPort port fun x => { x with wantMask := some m, slots := 0 }) →
      exec (.laneFailed port lane ⟨loss, ucw⟩) s = .next ((s₃.setPortState port 7).sendLink port (msgKeyed 6 m s₃.nodeKey 0))) ∧
  (∀ (s : State) (port : Fin 32) (lane : Fin 5) (ucw : Nat) (s₀ : State),
      s₀ = s.count (R.lnkFecUcw port lane) ucw →
      ucw ≤ s₀.fld (R.lnkLaneThresh port) 23 16 →
      exec (.laneFailed port lane ⟨false, ucw⟩) s = .next s₀) ∧
  (∀ (s : State) (s₁ s₂ : State) (port : Fin 32) (flit : BitVec 2048) (b : List Byte) (m gone : Nat),
      s.rxFlit port flit 2 = some s₁ →
      b = Flit.payload flit →
      leNat (b.take 1) = 6 →
      m = mField b 3 1 % 32 →
      (1 ≤ maskCount m ∧ maskCount m ≤ 4) →
      s₁.portState port = 5 →
      gone = s₁.portMask port - (s₁.portMask port &&& m) →
      (s₂ = s₁.modPort port fun x => { x with badMask := x.badMask ||| gone }) →
      exec (.widthReq port flit) s = .next (if gone = 0 then (s₂.sendLink port (msgWidthAck m)).newMask port m else ((s₂.sendLink port (msgWidthAck m)).newMask port m).startStandby port)) ∧
  (∀ (s : State) (s₁ : State) (port : Fin 32) (flit : BitVec 2048) (b : List Byte),
      s.rxFlit port flit 2 = some s₁ →
      b = Flit.payload flit →
      leNat (b.take 1) = 7 →
      s₁.portState port = 7 →
      (s₁.port port).wantMask = some (mField b 3 1) →
      exec (.widthAck port flit) s = .next (s₁.newMask port (mField b 3 1))) ∧
  (∀ (s : State) (port : Fin 32),
      s.portState port = 7 →
      exec (.widthChangeTimeout port) s = .next ((s.advanceTo ((s.port port).since + 32000)).startRetrain port false)) ∧
  (∀ (s : State) (port : Fin 32) (s₁ s₂ : State) (x : Port) (m : Nat),
      x = s.port port →
      x.standby = 1 →
      s.portState port = 5 →
      m = s.portMask port ||| 16 →
      (s₁ = s.modLedger fun l => { l with spares := bump l.spares (632 + port) 1 }) →
      s₂ = s₁.setPort port { x with standby := 0, wantMask := some m, slots := 0 } →
      exec (.standbyCalibrated port true) s = .next ((s₂.setPortState port 7).sendLink port (msgKeyed 6 m s₂.nodeKey 0))) ∧
  (∀ (s : State) (port : Fin 32),
      (s.port port).standby = 1 →
      exec (.standbyCalibrated port false) s = .next ((s.advanceTo ((s.port port).standbyAt + 800000000)).setPort port { s.port port with standby := 2 }))

/-- R316–R322, R330–R336: one clause per command and outcome. -/
def Obligations.LinkTrafficCommandsComplete : Prop :=
  (∀ (s : State) (port : Fin 32) (x : Port) (m : List Byte) (rest : List (List Byte)),
      x = s.port port →
      x.linkOut = m :: rest →
      s.portState port = 5 →
      exec (.transmitFlit port) s = .next ((((s.setPort port { x with linkOut := rest }).ackFields port).2).putOut port (mkFlit (2 + ((s.setPort port { x with linkOut := rest }).ackFields port).1) m))) ∧
  (∀ (s s₁ : State) (port : Fin 32) (x : Port) (n : Nat) (f : Flit) (rest : List (Nat × Flit)),
      x = s.port port →
      x.linkOut = [] →
      s.portState port = 5 →
      x.resend = (n, f) :: rest →
      x.uncharged.contains n = false →
      s₁ = s.setPort port { x with resend := rest } →
      exec (.transmitFlit port) s = .next ((s₁.ackFields port).2.putOut port (f.withAck (s₁.ackFields port).1))) ∧
  (∀ (s s₁ s₂ : State) (port : Fin 32) (x : Port) (n c : Nat) (f : Flit) (rest : List (Nat × Flit)),
      x = s.port port →
      x.linkOut = [] →
      s.portState port = 5 →
      x.resend = (n, f) :: rest →
      x.uncharged.contains n = true →
      c = Flit.cls f →
      s.credits port c ≠ 0 →
      (s₁ = s.setPort port { x with resend := rest, uncharged := x.uncharged.erase n }) →
      s₂ = s₁.setFld (R.lnkCredit port) (8 * c + 7) (8 * c) (s₁.credits port c - 1) →
      exec (.transmitFlit port) s = .next ((s₂.ackFields port).2.putOut port (f.withAck (s₂.ackFields port).1))) ∧
  (∀ (s : State) (port : Fin 32) (x : Port) (c : Nat) (q : Pkt),
      x = s.port port →
      x.linkOut = [] →
      s.portState port = 5 →
      (x.resend = [] ∧ x.cont = []) →
      s.nextClass port = some c →
      (x.txq.find? (fun q => q.cls == c && s.mayLeave q) = some q) →
      s.sliceEnc q.slice = false →
      exec (.transmitFlit port) s = .next ((s.noteBulkWait port c).sendData port c q.slice [])) ∧
  (∀ (s : State) (port : Fin 32) (x : Port),
      x = s.port port →
      x.linkOut = [] →
      s.portState port = 5 →
      (x.resend = [] ∧ x.cont = []) →
      s.nextClass port = none →
      x.txq = [] →
      exec (.transmitFlit port) s = .next ((s.ackFields port).2.putOut port (mkFlit (s.ackFields port).1 []))) ∧
  (∀ (s : State) (port : Fin 32) (flit : BitVec 2048) (locked : Bool) (s₁ : State) (x : Port),
      s.portState port = 5 →
      s.rxFlit port flit 1 = some s₁ →
      x = s₁.port port →
      Flit.cls flit = 0 →
      Flit.seq flit = x.expected →
      x.oweBulk < 160 →
      exec (.dataFlit port ⟨flit, locked⟩) s = .next (((s₁.setPort port { x with expected := (x.expected + 1) % 4096, ackValid := true, reqOpen := false, reqCount := 0, oweBulk := x.oweBulk + 1 }).globalEvent port 2 1).passFlit port flit)) ∧
  (∀ (s : State) (port : Fin 32) (flit : BitVec 2048) (locked : Bool) (s₁ : State),
      s.portState port = 5 →
      s.rxFlit port flit 1 = some s₁ →
      Flit.cls flit ≠ 3 →
      Flit.seq flit ≠ (s₁.port port).expected →
      (s₁.port port).reqOpen = false →
      exec (.dataFlit port ⟨flit, locked⟩) s = .next (s₁.askRetryLink port locked)) ∧
  (∀ (s : State) (port : Fin 32) (flit : BitVec 2048) (s₁ : State),
      s.rxFlit port flit 0 = some s₁ →
      exec (.idleFlit port flit) s = .next (s₁)) ∧
  (∀ (s : State) (port : Fin 32) (flit : BitVec 2048),
      s.rxFlit port flit 0 = none →
      Flit.crcOk flit = false →
      exec (.idleFlit port flit) s = .next (s.count (R.lnkCrcErrCnt port) 1)) ∧
  (∀ (s : State) (s₁ : State) (port : Fin 32) (flit : BitVec 2048) (b : List Byte) (x : Port) (rest : List (Nat × Flit)),
      s.rxFlit port flit 2 = some s₁ →
      b = Flit.payload flit →
      leNat (b.take 1) = 3 →
      s₁.portState port = 5 →
      x = s₁.port port →
      (x.retry.dropWhile (fun r => r.1 ≠ mField b 1 2 % 4096) = rest) →
      rest ≠ [] →
      exec (.retryReq port flit) s = .next (((s₁.setPort port { x with resend := rest }).count (R.lnkRetryCnt port) 1).globalEvent port 4 1)) ∧
  (∀ (s : State) (port : Fin 32) (locked : Bool),
      s.portState port = 5 →
      (s.port port).reqOpen = true →
      ((s.port port).reqCount < 8 ∨ locked = false) →
      exec (.retryReqResend port locked) s = .next ((s.advanceTo ((s.port port).reqAt + 6400)).askRetryLink port locked)) ∧
  (∀ (s s₁ : State) (port : Fin 32),
      s.portState port = 5 →
      (s.port port).reqOpen = true →
      8 ≤ (s.port port).reqCount →
      (s₁ = ((s.advanceTo ((s.port port).reqAt + 6400)).linkRaise port 0x5002 0xFF).modLedger fun l => { l with errors := bump l.errors (208 + port) 1 }) →
      exec (.retryReqResend port true) s = .next ((s₁.modPort port fun y => { y with reqOpen := false, reqCount := 0 }).startRetrain port true)) ∧
  (∀ (s : State) (port : Fin 32) (lane : Fin 5) (corrected : Nat) (s₁ : State),
      s₁ = s.count (R.lnkFecCorr port lane) corrected →
      s₁.fld (R.lnkLaneThresh port) 15 0 < corrected →
      exec (.fecDegraded port lane corrected) s = .next (((s₁.linkRaise port 0x500A lane).intEvent (448 + port) 2).advise 0)) ∧
  (∀ (s : State) (s₁ : State) (port : Fin 32) (flit : BitVec 2048) (b : List Byte),
      s.rxFlit port flit 2 = some s₁ →
      b = Flit.payload flit →
      leNat (b.take 1) = 8 →
      exec (.drain port flit) s = .next (s₁.modPort port fun x => { x with peerDraining := true })) ∧
  (∀ (s : State) (port : Fin 32) (r : Nat) (s₁ : State),
      (s.port port).draining = some r →
      (s₁ = if (s.port port).retry = [] then s else s.advanceTo ((s.port port).drainAt + 32000)) →
      exec (.retireDrainEnd port) s = .next ((s₁.setPort port { s.port port with draining := none, retry := [], resend := [], cont := [] }).setPortState port (if r = 1 then 9 else 8))) ∧
  (∀ (s : State) (port : Fin 32),
      exec (.restart port) s = .next (s.portRestart port)) ∧
  (∀ (s : State) (port : Fin 32) (s₁ : State),
      s.bit (R.cartCStatus port) 0 = false →
      s.boardPort port = false →
      s₁ = (s.setBit (R.cartCStatus port) 0 true).intEvent (480 + port / 4) (port % 4) →
      exec (.cartPrsAssert port) s = .next (s₁.modCart port fun x => { x with owed := x.owed + 1 })) ∧
  (∀ (s : State) (port : Fin 32) (s₁ s₂ : State),
      s.bit (R.cartCStatus port) 0 = true →
      s.boardPort port = false →
      s₁ = ((s.setBit (R.cartCStatus port) 0 false).setBit (R.cartCStatus port) 1 false).intEvent (480 + port / 4) (port % 4) →
      s₁.portState port ≠ 0 →
      s₂ = s₁.linkRaise port 0x5005 0xFF →
      exec (.cartAbsent port) s = .next ((s₂.modPort port fun x => { encCtr := x.encCtr, txq := x.txq }).setPortState port 0)) ∧
  (∀ (s : State) (port : Fin 32) (read : CartRead) (start : Bool),
      s.bit (R.cartCStatus port) 0 = true →
      s.boardPort port = false →
      (s.cart port).pausedUntil ≤ s.now →
      read.busOk = true →
      s.bit (R.cartCStatus port) 1 = false →
      exec (.cartPoll port read start) s = .next (s.acceptCart port read start)) ∧
  (∀ (s : State) (port : Fin 32) (read : CartRead) (start : Bool) (s₁ : State),
      s.bit (R.cartCStatus port) 0 = true →
      s.boardPort port = false →
      (s.cart port).pausedUntil ≤ s.now →
      read.busOk = true →
      s.bit (R.cartCStatus port) 1 = true →
      read.failed = false →
      s₁ = s.payMatings port →
      exec (.cartPoll port read start) s = .next (if s₁.oweWear port = true then s₁.writeWear port else s₁)) ∧
  (∀ (s : State) (port : Fin 32),
      s.bit (R.cartCStatus port) 1 = true →
      s.fld (R.cartCStatus port) 3 2 = 3 →
      exec (.laserHour port) s = .next ((s.count (R.cartCLaserH port) 1).judgeWear port))

/-- R361–R364, R401–R403. The grant a chunk lies under and the atomic reading of a region are the model's choices (log
entries 44 and 29). -/
def Obligations.CollectiveAndCheckpointCommandsComplete : Prop :=
  (∀ (s : State) (h : Fin 2) (upsets : List Upset) (s₁ s₂ s₃ s₄ : State) (q x n rank : Nat) (c : Card) (nb mb : List Byte) (ms : List Nat),
      s₁ = s.memUpset upsets →
      q = s₁.fld (R.colReqQ h) 11 0 →
      q ≠ 0xFFF →
      s₁.coll h = none →
      s₁.qEn q = true →
      s₁.qClass q = 7 →
      s₁.enginesHeld = false →
      s₁.qHead q = some c →
      x = s₁.qCtx q →
      s₂ = s₁.takeCard q →
      s₂.collOk q c = true →
      s₂.memRead c.cGroup 4 = (s₃, nb, none) →
      n = leNat nb →
      2 ≤ n →
      n ≤ 65536 →
      c.cElems % n = 0 →
      s₃.inPartition x c.cGroup (4 + 4 * n) = true →
      s₃.collRegions x n c = true →
      s₃.memRead (c.cGroup + 4) (4 * n) = (s₄, mb, none) →
      ms = (chunks 4 mb (n + 1)).map leNat →
      ms.findIdx? (· == s₄.chip) = some rank →
      exec (.collectiveRequest h upsets) s = .next (s₄.newRequest.collStart h { card := c, no := s₄.fab.engSeq, ctx := x, members := ms, rank })) ∧
  (∀ (s : State) (h : Fin 2) (upsets : List Upset) (s₁ s₂ s₃ : State) (r : CollRun) (m : Card) (k c : Nat) (g : Grant) (bs : List Byte),
      s₁ = s.memUpset upsets →
      s₁.coll h = some r →
      s₁.enginesHeld = false →
      s₁.qHead r.card.cRxq = some m →
      s₂ = s₁.takeCard r.card.cRxq →
      r.fits m = true →
      r.sameEw m = true →
      k = m.get 32 4 →
      c = m.get 36 4 →
      s₂.collGrant r = some g →
      s₂.collLanded h r g (r.elems k c * collElem (r.fmt k)) = (s₃, bs, none) →
      exec (.chunkNotice h upsets) s = .next (if k < r.rsSteps then s₃.collReduce h r k c bs true else s₃.collForward h r k c bs)) ∧
  (∀ (s : State) (h : Fin 2) (r : CollRun),
      s.coll h = some r →
      r.got ≠ r.expected →
      exec (.collPeerLost h) s = .next ((s.advanceTo (r.last + 2 * s.reqTimeout)).collFail h r.card 0x600A [])) ∧
  (∀ (s : State) (h : Fin 2) (upsets : List Upset) (s₁ s₂ s₃ s₄ s₅ : State) (q x n pos : Nat) (c : Card) (r : CkptRun) (bs nb mb : List Byte) (ps : List Nat),
      s₁ = s.memUpset upsets →
      q = s₁.fld (R.halfCkptReqQ h) 11 0 →
      q ≠ 0xFFF →
      s₁.ckpt h = none →
      s₁.qEn q = true →
      s₁.qClass q = 7 →
      s₁.enginesHeld = false →
      s₁.qHead q = some c →
      x = s₁.qCtx q →
      s₂ = (s₁.takeCard q).newRequest.wr (R.halfCkptId h) (BitVec.ofNat 64 (c.get 32 8)) →
      c.tag = 0xFC →
      c.ctx = x →
      s₂.inPartition x (c.get 24 8) 128 = true →
      s₂.memRead (c.get 24 8) 128 = (s₃, bs, none) →
      r = { card := c, no := s₂.fab.engSeq, ctx := x, desc := bs, peers := [], pos := 0 } →
      s₃.ckptOk r = true →
      s₃.inPartition x (r.d 24 8) 4 = true →
      s₃.memRead (r.d 24 8) 4 = (s₄, nb, none) →
      n = leNat nb →
      1 ≤ n →
      n ≤ 65536 →
      s₄.inPartition r.ctx (r.d 24 8) (4 + 4 * n) = true →
      s₄.memRead (r.d 24 8 + 4) (4 * n) = (s₅, mb, none) →
      ps = (chunks 4 mb (n + 1)).map leNat →
      (((ps.zip (ps.drop 1)).all fun p => decide (p.1 < p.2)) = true) →
      ps.findIdx? (· == s₅.chip) = some pos →
      exec (.checkpointRequest h upsets) s = .next (s₅.readRegion h { r with peers := ps, pos })) ∧
  (∀ (s : State) (h : Fin 2) (r z : CkptRun) (c : Card) (s₁ : State) (i p : Nat),
      s.ckpt h = some r →
      s.enginesHeld = false →
      s.qHead r.noticeq = some c →
      s₁ = s.takeCard r.noticeq →
      i = c.accession - r.first →
      r.peers.findIdx? (· == c.srcChip) = some p →
      c.tag = 0xFB →
      c.get 20 4 = r.region →
      c.get 24 8 = r.id →
      r.first ≤ c.accession →
      i < r.nShards →
      r.writing = false →
      z = { r with notices := r.notices.set [] (r.n * i + p) (natLE 32 (c.get 32 32)) } →
      exec (.digestNotice h) s = .next (if z.reading ∨ ¬ z.allHere then s₁.setCkpt h (some z) else (s₁.setCkpt h (some z)).elect h z)) ∧
  (∀ (s : State) (h : Fin 2) (r : CkptRun),
      s.ckpt h = some r →
      r.reading = false →
      r.writing = false →
      s.enginesHeld = false →
      exec (.noticeWaitEnd h) s = .next ((s.advanceTo (r.readAt + 2 * s.reqTimeout)).elect h r))

/-- R210, R213, R218–R221, R394–R400, R408–R410: one clause per command and outcome. -/
def Obligations.MemoryAndSparingCommandsComplete : Prop :=
  (∀ (s : State) (granule : Fin 512) (value : Word) (k : Nat) (s₁ : State),
      k = R.smemcGranule granule →
      bits value 11 10 ≠ 3 →
      (s.granValid granule && s.ctxBusy (s.granOwner granule)) = false →
      bits value 9 9 = 1 →
      s.ctxBusy (bits value 8 0) = false →
      (∀ t < 4, s.bit R.pwrDomainState (32 + granule.val / 256 * 4 + t) = true) →
      (s.granValid granule = false ∨ s.granOwner granule ≠ bits value 8 0 ∨ s.granClass granule ≠ bits value 11 10) →
      s₁ = ((s.setFld k 8 0 (bits value 8 0)).setBit k 9 true).setFld k 11 10 (bits value 11 10) →
      exec (.granuleWrite granule value) s = .next ((s₁.setBit k 12 true).zeroGranule granule)) ∧
  (∀ (s : State) (granule : Fin 512) (value : Word) (k : Nat),
      k = R.smemcGranule granule →
      bits value 11 10 ≠ 3 →
      (s.granValid granule && s.ctxBusy (s.granOwner granule)) = false →
      bits value 9 9 = 0 →
      exec (.granuleWrite granule value) s = .next (((s.setFld k 8 0 (bits value 8 0)).setBit k 9 false).setFld k 11 10 (bits value 11 10))) ∧
  (∀ (s : State) (tier : Fin 8) (bank : Fin 290) (s₁ : State) (k : Nat) (ks : List Nat),
      bank.val < 288 →
      s.spareOf tier bank = none →
      s.smem.failed.contains (tier.val, bank.val) = false →
      (s₁ = s.modLedger fun l => { l with spares := bump l.spares (584 + tier) 1 }) →
      ((s₁.freeSpares tier).drop (s₁.smem.failed.filter fun f => f.1 == tier.val).length = k :: ks) →
      s₁.smem.rebuilds.get none tier = none →
      exec (.bankRebuild tier bank) s = .next (s₁.rebuildStart tier bank k)) ∧
  (∀ (s : State) (tier : Fin 8) (bank : Fin 290) (s₁ s₂ : State),
      bank.val < 288 →
      s.spareOf tier bank = none →
      s.smem.failed.contains (tier.val, bank.val) = false →
      (s₁ = s.modLedger fun l => { l with spares := bump l.spares (584 + tier) 1 }) →
      ((s₁.freeSpares tier).drop (s₁.smem.failed.filter fun f => f.1 == tier.val).length = []) →
      s₂ = { s₁ with smem := { s₁.smem with failed := s₁.smem.failed ++ [(tier.val, bank.val)] } } →
      exec (.bankRebuild tier bank) s = .next (s₂.raise { code := 0x300C, loc := tier, detail := memDetail tier bank 0xFFFF 0xFF 0xFF 0xFFFF 0xFF [] })) ∧
  (∀ (s : State) (tier : Fin 8) (bank : Fin 290) (k : Nat),
      288 ≤ bank.val →
      k = R.smemSpareBank tier (bank - 288) →
      s.fld k 10 9 = 0 →
      exec (.bankRebuild tier bank) s = .next ((s.wr k (BitVec.ofNat 64 (0x1FF + 3 * 512))).showSpares tier)) ∧
  (∀ (s : State) (tier : Fin 8) (r : Rebuild),
      s.smem.rebuilds.get none tier = some r →
      exec (.rebuildDone ⟨tier, 16384⟩) s = .next (s.rebuildEnd tier r)) ∧
  (∀ (s : State) (tier : Fin 8) (r : Rebuild) (rows : Fin 16385),
      s.smem.rebuilds.get none tier = some r →
      rows.val < 16384 →
      r.row < rows.val →
      exec (.rebuildDone ⟨tier, rows⟩) s = .next (s.rebuildRows tier r rows)) ∧
  (∀ (s : State) (tier : Fin 8) (bank : Fin 290) (row : Fin 16384) (n : Nat) (s₁ : State) (m : SmemState),
      n = s.spareRows tier bank →
      n ≠ 0 →
      bank.val < 288 →
      (s₁ = s.copyRow ((List.range 64).map fun w => wordKey tier bank row w)) →
      m = { s₁.smem with spareRows := s₁.smem.spareRows.set 64 (512 * tier + bank) (n - 1), rowMap := s₁.smem.rowMap.set 0 ((512 * tier + bank) * 16384 + row) (65 - n) } →
      exec (.spareRow tier bank row) s = .next ((({ s₁ with smem := m }).modLedger fun l => { l with spares := bump l.spares (576 + tier) 1 }).showSpares tier)) ∧
  (∀ (s : State) (tier : Fin 8) (bank : Fin 290) (row : Fin 16384),
      s.spareRows tier bank = 0 →
      exec (.spareRow tier bank row) s = .next (s.bankFailed tier bank)) ∧
  (∀ (s : State) (addr : Nat) (passEnd : Bool) (upsets : List Upset) (s₁ : State),
      s.bit R.smemcScrubCfg 0 = true →
      (s₁ = (if 2 ^ 40 ≤ addr then (s.memUpset upsets).scrubParity ((addr - 2 ^ 40) / 8 * 8) else (s.memUpset upsets).scrubWord (addr / 8 * 8))) →
      exec (.scrub addr passEnd upsets) s = .next (if passEnd then s₁.count (R.smemScrubPassCnt (smTier (addr % 2 ^ 40))) 1 else s₁)) ∧
  (∀ (s : State) (addr w : Nat) (s₁ : State),
      w = addr / 8 * 8 →
      s.smem.owed.contains w = true →
      s₁ = { s with smem := { s.smem with owed := s.smem.owed.erase w } } →
      (s₁.memHealth w = 1 ∨ s₁.rebuildable w = true) →
      exec (.stageMemoryWriteBack addr) s = .next (s₁.setMemHealth w 0)) ∧
  (∀ (s : State) (pod : Fin 32) (slot i sp v : Nat) (s₁ s₂ s₃ : State),
      (s.recov.retiring.find? (fun k => k / 5 == pod.val) = some slot) →
      (((podUnits pod).any fun u => s.unitState u != 3) = false) →
      s₁ = s.retireEnds slot →
      s₁.bit (R.podSlotMap pod) 15 = false →
      s₁.recov.badSpares.contains pod.val = false →
      ((List.range 4).find? (fun i => s₁.fld (R.podSlotMap pod) (3 * i + 2) (3 * i) == slot % 5) = some i) →
      sp = s₁.fld (R.podSlotMap pod) 14 12 →
      s₂ = ((s₁.setFld (R.podSlotMap pod) (3 * i + 2) (3 * i) sp).setFld (R.podSlotMap pod) 14 12 (slot % 5)).setBit (R.podSlotMap pod) 15 true →
      v = (s₂.rd (R.podSlotMap pod)).toNat % 65536 →
      (s₃ = ((s₂.modLedger fun l => { l with spares := (bump l.spares pod 1).set 0 (32 + pod) v }).newSlot pod i).returnUnits pod) →
      exec (.slotRetired pod true) s = .next (((s₃.raise { code := 0xF103 }).advise 5).repairEnd 0)) ∧
  (∀ (s : State) (pod : Fin 32) (slot : Nat) (testOk : Bool) (s₁ : State),
      (s.recov.retiring.find? (fun k => k / 5 == pod.val) = some slot) →
      (((podUnits pod).any fun u => s.unitState u != 3) = false) →
      s₁ = s.retireEnds slot →
      (s₁.bit (R.podSlotMap pod) 15 = true ∨ testOk = false) →
      exec (.slotRetired pod testOk) s = .next ((((s₁.takePodOut pod).raise { code := 0xF104 }).advise 5).repairEnd 0)) ∧
  (∀ (s : State) (core : Fin 128) (arr : Fin 4) (failing : List Nat) (a : Nat) (s₁ : State),
      a = 4 * core.val + arr.val →
      ((s.recov.selfTests.any fun e => e.1 == a) = true) →
      (((unitsOf core).any fun u => s.hasJob u) = false) →
      (s₁ = { s with recov := { s.recov with selfTests := s.recov.selfTests.filter (fun e => e.1 != a) } }) →
      exec (.arraySelfTest core arr failing) s = .next ((((failing.filter (· < 64)).eraseDups).foldl (fun (st : State) c => st.spareColumn a c) s₁).repairEnd 1)) ∧
  (∀ (s : State) (s₁ : State),
      s.recov.repairs.contains 3 = true →
      (((List.range 171).any fun u => s.unitState u == 1) = false) →
      (s₁ = ((s.setBit R.qmStatus 1 true).setBit R.qmStatus 2 false).modLedger fun l => { l with spares := bump l.spares 664 1 }) →
      exec (.qmSwitched true) s = .next ((s₁.raise { code := 0xF106 }).repairEnd 3)) ∧
  (∀ (s : State) (s₁ : State),
      (s₁ = { s with recov := { s.recov with events := s.recov.events.filter (fun e => decide (s.ltime < e.2.2 + dayTicks)), fired := s.recov.fired.filter (fun e => decide (s.ltime < e.2.2 + dayTicks)) } }) →
      exec (.thresholdEvaluation) s = .next (((s₁.recov.events.map fun e => (e.1, e.2.1)).eraseDups).foldl (fun (st : State) e => st.judge e.1 e.2) s₁)) ∧
  (∀ s : State,
      s.fld R.mgtRecState 1 0 = 2 →
      s.recov.repairs = [] →
      s.causeCleared = true →
      exec (.rejoin) s = .next (({ s with recov := { s.recov with torn := [], left := [] } }).setRecState 0 0)) ∧
  (∀ s : State,
      exec (.reclaim) s = .next (s.reclaimChip)) ∧
  (∀ (s : State) (pool : Fin 128) (g₀ g : Grant) (rest : List Grant),
      s.openGrants pool = g₀ :: rest →
      (g = rest.foldl (fun a b => if b.time < a.time then b else a) g₀) →
      exec (.grantAge pool) s = .next ((s.advanceTo (g.time + 1600000 * max 1 (s.fld R.mgtGrantLife 15 0) + 1)).reclaim pool g))

/-- R373–R384, Table 13-1, Table 13-6: one clause per command. Host memory's image and the activity shares are operands
(log entry 4). -/
def Obligations.ContextCommandsComplete : Prop :=
  (∀ (s : State) (ctx : Fin 512) (s₁ s₂ s₃ : State),
      s.start.ready = true →
      (s.bit R.trustLifecycle 2 = false ∨ s.fld R.trustLifecycle 1 0 ≠ 1) →
      s.ctxState ctx = 0 →
      s₁ = (s.clearRegs ((List.range 11).map (R.ctxselAcc ctx) ++ (List.range 12).map (R.trustselCMeas ctx))).wr (R.ctxselCCause ctx) 0 →
      s₂ = { s₁ with recov := { s₁.recov with energy := s₁.recov.energy.set 0 ctx 0 } } →
      s₃ = { s₂ with obs := { s₂.obs with origin := s₂.obs.origin.set 0 ctx s₂.ltime } } →
      exec (.create ctx) s = .next (s₃.setCtxState ctx 1)) ∧
  (∀ (s : State) (ctx : Fin 512),
      s.start.ready = true →
      s.ctxState ctx = 1 →
      exec (.resumeCtx ctx) s = .next (s.setCtxState ctx 2)) ∧
  (∀ (s : State) (ctx : Fin 512),
      s.start.ready = true →
      s.ctxState ctx = 2 →
      exec (.haltCtx ctx) s = .next ((s.setCtxState ctx 3).stopSeqs ctx)) ∧
  (∀ (s : State) (ctx : Fin 512),
      s.start.ready = true →
      (s.ctxState ctx = 2 ∨ s.ctxState ctx = 3) →
      exec (.teardown ctx) s = .next (((s.raise { code := 0x7006, ctx := some ctx }).closeSlots ctx).tearSettle ctx)) ∧
  (∀ (s : State) (ctx : Fin 512) (word : Nat → Nat) (s₁ : State),
      s.start.ready = true →
      s.ctxState ctx = 1 →
      s.ctxEnabled ctx = false →
      (word = fun i => ((s.partition ctx).filter fun g => g / 32 == i).foldl (fun a g => a + 2 ^ (g % 32)) 0) →
      (s₁ = (List.range 16).foldl (fun (st : State) i => st.wr (R.ctxselCGranules ctx i) (BitVec.ofNat 64 (word i))) s) →
      exec (.spill ctx) s = .next (({ s₁ with recov := { s₁.recov with spilled := (s.partition ctx).foldl (fun t g => t.set 0 (512 * ctx.val + g) (s₁.granClass g + 1)) s₁.recov.spilled } } : State).setCtxState ctx 6)) ∧
  (∀ (s : State) (ctx : Fin 512),
      s.start.ready = true →
      s.ctxState ctx = 5 →
      s.heldAgain ctx = true →
      exec (.restore ctx) s = .next (s.setCtxState ctx 7)) ∧
  (∀ (s : State) (ctx : Fin 512) (hs : List Nat) (s₁ s₂ s₃ s₄ : State),
      s.start.ready = true →
      (s.ctxState ctx = 1 ∨ s.ctxState ctx = 5) →
      (hs = (s.progs.filter fun p => p.2.ctx == ctx.val).map (·.1)) →
      (s₁ = { s with progs := s.progs.filter (fun p => p.2.ctx != ctx.val), wintab := s.wintab.filter (fun w => !hs.contains (w.1 / 16)) }) →
      (s₂ = ((s₁.ctxSeqs ctx).foldl (fun (st : State) q => (st.setSeq q {}).setSeqState q 0) s₁).withdraw ctx) →
      (s₃ = (s₂.partition ctx).foldl (fun (st : State) g => st.returnGranule g) s₂) →
      s₄ = (s₃.setBit (R.trustselCSigpol ctx) 5 false).setBit (R.obsselCBufBase ctx) 0 false →
      exec (.release ctx) s = .next (s₄.setCtxState ctx 0)) ∧
  (∀ (s : State) (ctx : Fin 512) (s₁ : State),
      s.ctxState ctx = 4 →
      (s.ctxUnits ctx).isEmpty = true →
      s₁ = (s.closeSlots ctx).withdraw ctx →
      s₁.slotsIdle ctx = true →
      exec (.ctxHalted ctx) s = .next ((s₁.haltReached ctx).repairEnd 4)) ∧
  (∀ (s : State) (ctx : Fin 512),
      s.ctxState ctx = 3 →
      (s.ctxUnits ctx).isEmpty = true →
      (((s.ctxSeqs ctx).all fun q => !s.bit (R.stgSeqCtrl q) 0) = true) →
      exec (.ctxHalted ctx) s = .next ((s.setFld (R.ctxselCCause ctx) 15 0 0).haltReached ctx)) ∧
  (∀ (s : State) (ctx : Fin 512) (s₁ : State),
      s.ctxState ctx = 6 →
      s₁ = (s.accountMove ctx).spillOut ctx →
      exec (.spillDone ctx true) s = .next (((s₁.partition ctx).foldl (fun (st : State) g => st.returnGranule g) s₁).setCtxState ctx 5)) ∧
  (∀ (s : State) (ctx : Fin 512) (image : List (Nat × List Byte)) (s₁ : State),
      s.ctxState ctx = 7 →
      s₁ = s.accountMove ctx →
      exec (.restoreDone ctx true image) s = .next (((image.filter fun r => (granulesOf r.1 r.2.length).all (s₁.partition ctx).contains).foldl (fun (st : State) r => st.memWrite r.1 r.2) s₁).setCtxState ctx 1)) ∧
  (∀ (s : State) (acts : List (List (Nat × Nat))),
      exec (.energyApportion acts) s = .next ((List.range 48).foldl (fun (st : State) d => st.shareEnergy d (acts.getD d [])) s))

/-- R440–R461: one clause per command. The scope byte of the freeze record and the bytes of a ledger image are opaque
(log entry 12). -/
def Obligations.ObservabilityCommandsComplete : Prop :=
  (∀ s : State,
      s.bit R.obsCtrl 1 = false →
      s.now < (s.rd R.obsFreezeAt).toNat →
      exec (.freezeArm) s = .next (s.setBit R.obsCtrl 2 true)) ∧
  (∀ (s : State) (t : Nat) (s₁ s₂ : State),
      s.bit R.obsCtrl 2 = true →
      t = (s.rd R.obsFreezeAt).toNat →
      s₁ = (s.advanceTo t).freezeCopy →
      (s₂ = s₁.sysRecord 0x20 1 0x3FF s₁.now [(8, t), (1, Config.freezeScope (s₁.fld R.obsFreezeScope 9 0)), (1, if s₁.bit R.fabStatus 2 then 0 else 1)]) →
      exec (.freeze) s = .next ((((s₂.setBit R.obsCtrl 2 false).setBit R.obsStatus 0 true).intEvent 500 0).freezePark)) ∧
  (∀ (s : State) (s₁ : State),
      s₁ = { s with obs := { s.obs with freeze := none } } →
      exec (.unfreeze) s = .next (((List.range 171).foldl (fun (st : State) u => st.releasePark 1 u) s₁).setBit R.obsStatus 0 false)) ∧
  (∀ s : State,
      s.bit R.obsCtrl 0 = true →
      s.bit R.obsCtrl 1 = true →
      exec (.ns2Sample false) s = .next (s.ns2Write)) ∧
  (∀ s : State,
      s.bit R.obsCtrl 0 = true →
      s.bit R.obsCtrl 1 = true →
      exec (.ns2Sample true) s = .next ((s.count R.obsSampleOvfCnt 1).intEvent 500 3)) ∧
  (∀ (s : State) (s₁ : State),
      s.bit R.obsSbufBase 0 = false →
      s.sysRing (s.fld R.obsSbufBase 33 12 * 4096) (s.fld R.obsSbufSize 33 12 * 4096) = true →
      s₁ = (s.setBit R.obsSbufBase 0 true).wr R.obsSbufWr 0 →
      exec (.bufferEnable none) s = .next ({ s₁ with obs := { s₁.obs with seqS := 0 } })) ∧
  (∀ (s : State) (ctx : Fin 512) (s₁ : State),
      s.bit (R.obsselCBufBase ctx) 0 = false →
      s.ctxRing ctx (s.fld (R.obsselCBufBase ctx) 33 12 * 4096) (s.fld (R.obsselCBufSize ctx) 33 12 * 4096) = true →
      s₁ = (s.setBit (R.obsselCBufBase ctx) 0 true).wr (R.obsselCBufWr ctx) 0 →
      exec (.bufferEnable (some ctx)) s = .next ({ s₁ with obs := { s₁.obs with seqC := s₁.obs.seqC.set 0 ctx 0 } })) ∧
  (∀ (s : State) (ctx : Fin 512) (value : Word),
      (((List.range 4).all fun k => eventCode (bits value (8 * k + 7) (8 * k))) = true) →
      exec (.profileWrite ctx value) s = .next (s.wr (R.obsselCProf ctx) (BitVec.ofNat 64 (bits value 38 0)))) ∧
  (∀ s : State,
      bits (s.rd R.obsDumpCfg) 10 10 = 0 →
      s.ctxRing (bits (s.rd R.obsDumpCfg) 8 0) (s.fld R.obsDumpBuf 33 12 * 4096) (s.fld R.obsDumpSize 33 12 * 4096) = true →
      exec (.dumpArm) s = .next (s.setBit R.obsDumpCfg 10 true)) ∧
  (∀ (s : State) (u base size : Nat) (bs : List Byte × Nat),
      s.obs.dumpUnit = some u →
      s.hasJob u = true →
      (s.job u).torn = false →
      s.unitState u = 2 →
      (((unitCores u).all fun c => (s.core c).drained) = true) →
      base = s.fld R.obsDumpBuf 33 12 * 4096 →
      size = s.fld R.obsDumpSize 33 12 * 4096 →
      (bs = (unitCores u).foldl (fun (a : List Byte × Nat) c => match (s.core c).dumpLast with | some (iseq, call, d, len) => (a.1 ++ s.coreDump u c (a.2 + 1) iseq call d len, a.2 + 1) | none => a) ([], 0)) →
      exec (.dumpCopy) s = .next ((s.memWrite base (bs.1.take size)).dumpEnd u (if size < bs.1.length then 1 else 0) (bs.1.take size).length)) ∧
  (∀ (s : State) (ledg : Ledger) (s₁ s₂ : State),
      ledg = s.obs.ledger →
      (s₁ = s.modLedger fun l => if ledg.useB then { l with copyA := ledg.image (ledg.gen + 1), gen := ledg.gen + 1, useB := false } else { l with copyB := ledg.image (ledg.gen + 1), gen := ledg.gen + 1, useB := true }) →
      s₂ = { s₁ with obs := { s₁.obs with saved := s₁.obs.ledger } } →
      exec (.ledgerWrite true) s = .next (((s₂.setBit R.ledgStatus 0 (!ledg.useB)).wr R.ledgGen (BitVec.ofNat 64 (ledg.gen + 1))).intEvent 501 0)) ∧
  (∀ s : State,
      exec (.ledgerWrite false) s = .next ((s.count R.ledgWriteErrCnt 1).intEvent 501 1)) ∧
  (∀ (s : State) (verified : Bool),
      exec (.sync verified) s = .next (s.ledgerWrite verified))

/-- R415–R439, R521: one clause per command and outcome. -/
def Obligations.PowerAndClockCommandsComplete : Prop :=
  (∀ (s : State) (t : Nat) (vout : Bool) (s₁ : State),
      s.power.trip = false →
      t = s.fld R.clkCclkStatus 5 3 →
      t ≠ s.curStep →
      (s.curStep < t ∨ vout = true) →
      s₁ = ((s.setFld R.clkCclkStatus 2 0 t).setBit R.clkCclkStatus 6 false).commandVout (stepMv t) →
      exec (.cclkStepEdge vout) s = .next (((s₁.count R.clkStepChgCnt 1).showLimit).intEvent 499 0)) ∧
  (∀ (s : State) (powers : List Nat) (s₁ : State),
      s₁ = (s.recordSample powers).judgePeak powers →
      exec (.powerSample powers) s = .next ((s₁.demand 0 (s₁.fld R.clkCclkMax 2 0)).applyLimits)) ∧
  (∀ (s : State) (value : Word) (en : Nat → State → State),
      (en = fun d st => if (value.toNat / 2 ^ d % 2 == 1) = st.bit R.pwrDomainEn d then st else if (value.toNat / 2 ^ d % 2 == 1) = true then st.setBit R.pwrDomainEn d true else if st.mayOff d then (st.setBit R.pwrDomainEn d false).domainOff d else st.intEvent 498 7) →
      exec (.domainEn value) s = .next ((List.range 47).foldl (fun st d => en d st) s)) ∧
  (∀ (s : State) (domain : Fin 48),
      s.bit R.pwrDomainEn domain = true →
      s.bit R.pwrDomainState domain = false →
      (s.power.trip = false ∨ tripDomains.contains domain.val = false) →
      exec (.domainOn domain true) s = .next (if domain.val < 32 ∧ ((s.clearDomain domain).setBit R.pwrDomainState domain true).stepsFree = true then ((s.clearDomain domain).setBit R.pwrDomainState domain true).returnUnits domain else (s.clearDomain domain).setBit R.pwrDomainState domain true)) ∧
  (∀ (s : State) (domain : Fin 48),
      s.bit R.pwrDomainEn domain = true →
      s.bit R.pwrDomainState domain = false →
      (s.power.trip = false ∨ tripDomains.contains domain.val = false) →
      exec (.domainOn domain false) s = .next (s.domainFail domain)) ∧
  (∀ (s : State) (domain : Fin 48),
      s.bit R.pwrDomainState domain = true →
      exec (.domainFail domain) s = .next (s.domainFail domain)) ∧
  (∀ (s : State) (readings rs : List Nat) (t d th : Nat) (s₁ s₂ s₃ : State),
      (rs = (List.range 48).map fun d => min 4095 (readings.getD d 0)) →
      (t, d) = hottest rs →
      (s₁ = (rs.zipIdx.foldl (fun (st : State) r => st.wr (R.pwrTemp r.2) (BitVec.ofNat 64 r.1)) s).wr R.pwrTempMax (BitVec.ofNat 64 (t + 4096 * d))) →
      th = 8 * s₁.fld R.pwrThrottleTemp 6 0 →
      (s₂ = { s₁ with power := { s₁.power with hot := decide (th ≤ t), cool := rs.all (fun r => decide (r + 24 < th)) } }) →
      (s₃ = (if th ≤ t ∧ s.fld R.pwrTempMax 11 0 < th then ((s₂.demand 2 (min 4 (s₂.curStep + 1))).powerRaise 0x8002 1 d d t).applyLimits else s₂)) →
      exec (.temperatureRead readings) s = .next (if 920 ≤ t ∧ ¬ s₃.power.trip then s₃.thermTrip t d else s₃)) ∧
  (∀ s : State,
      s.power.hot = true →
      exec (.thermalLimiterInterval) s = .next ((s.demand 2 (min 4 (s.demandOf 2 + 1))).applyLimits)) ∧
  (∀ s : State,
      s.power.hot = false →
      s.power.cool = true →
      exec (.thermalLimiterInterval) s = .next ((s.demand 2 (s.demandOf 2 - 1)).applyLimits)) ∧
  (∀ (s : State) (volts : List Nat) (near : Nat → State → Bool) (s₁ s₂ : State),
      (s₁ = (List.range 9).foldl (fun (st : State) r => if (r = 8 ∨ st.start.armed = true) ∧ r < volts.length then st.judgeRail r (volts.getD r 0) else st) s) →
      (near = fun r st => decide (volts.getD r 0 ≤ 1000 * st.power.vset + 10000 ∧ 1000 * st.power.vset ≤ volts.getD r 0 + 10000)) →
      (s₂ = (if near 0 s₁ = true ∧ near 1 s₁ = true then { s₁ with power := { s₁.power with vold := s₁.power.vset } } else s₁)) →
      exec (.supplySample volts) s = .next (if 10 ≤ s₂.power.badRun.get 0 8 then s₂.powerOnReset else s₂.supplyLimit)) ∧
  (∀ s : State,
      s.power.brake = false →
      exec (.pwrBrakeAssert) s = .next (((({ s with power := { s.power with brake := true } }).demand 4 3).powerRaise 0x8009 5 0xFF 0xFF 0).applyLimits)) ∧
  (∀ s : State,
      exec (.pwrBrakeRelease) s = .next ((({ s with power := { s.power with brake := false } }).demand 4 0).applyLimits)) ∧
  (∀ (s : State) (quotients : List Nat),
      exec (.ringOscillatorMeasure quotients) s = .next ((List.range 170).foldl (fun (st : State) r => if st.ringOn r then (if r < quotients.length then st.ringMeasure r (quotients.getD r 0) else st) else { st with power := { st.power with rings := st.power.rings.set (0, 0) r (0, 0) } }) s)) ∧
  (∀ (s : State) (n b : Nat) (s₁ s₂ s₃ : State),
      s.power.vset = 850 →
      s₁ = s.count R.pwrVmaxUsed 1 →
      n = s₁.fld R.pwrVmaxUsed 31 0 →
      (s₂ = s₁.modLedger fun l => { l with life := l.life.set 0 14 n }) →
      b = s₂.fld R.pwrVmaxBudget 31 0 →
      (s₃ = (if n * 10 = b * 9 then s₂.powerRaise 0x8007 4 0xFF 0xFF 0 else s₂)) →
      exec (.vmaxMinute) s = .next (((if n = b then s₃.powerRaise 0x8008 4 0xFF 0xFF 0 else s₃).vmaxDemand).applyLimits)) ∧
  (∀ s : State,
      exec (.d2dLost) s = .next (s.raise { code := 0xF001 })) ∧
  (∀ (s : State) (ref : Bool) (s₁ : State),
      s.bit R.clkPllStatus 0 = true →
      s₁ = (s.setBit R.clkPllStatus 0 false).setBit R.clkPllStatus 1 true →
      exec (.pllLost ref) s = .next ((if ref then (s₁.setBit R.clkPllStatus 2 false).intEvent 499 1 else s₁).raise { code := 0xF003 })) ∧
  (∀ s : State,
      exec (.ctrlStoreUe) s = .next (s.raise { code := 0xF004 })) ∧
  (∀ s : State,
      exec (.mcWatchdog) s = .next (s.raise { code := 0xF005 }))
end

