-- ==== Sys2Proof/Laws/Tab.lean ====
section
/-! SUPPORT. Sparse tables: reading after writing, and the canonical form every table operation keeps. -/

namespace Sys2Proof.Machine

variable {α : Type} {d x : α} {t : Tab α} {k j b : Nat}

@[simp] theorem Tab.get_nil : Tab.get d [] k = d := rfl

theorem Tab.above_mono (h : Tab.above b t = true) (hj : j ≤ b) : Tab.above j t = true := by
  cases t with
  | nil => rfl
  | cons e t => simp only [Tab.above, decide_eq_true_eq] at *; omega

/-- Below every key a table reads as its default. -/
theorem Tab.get_above (h : Tab.above b t = true) (hk : k ≤ b) : Tab.get d t k = d := by
  cases t with
  | nil => rfl
  | cons e t =>
    simp only [Tab.above, decide_eq_true_eq] at h
    simp only [Tab.get]
    rw [if_neg (by omega), if_pos (by omega)]

theorem Tab.get_put_self : Tab.get d (Tab.put t k x) k = x := by
  induction t with
  | nil => simp [Tab.put, Tab.get]
  | cons e t ih =>
    unfold Tab.put
    split
    · simp [Tab.get]
    · split
      · simp [Tab.get]
      · simp [Tab.get, *]

theorem Tab.get_put_ne (h : j ≠ k) : Tab.get d (Tab.put t k x) j = Tab.get d t j := by
  induction t with
  | nil => simp [Tab.put, Tab.get, h]
  | cons e t ih =>
    unfold Tab.put
    split
    · subst_vars; simp [Tab.get, h]
    · split
      · simp only [Tab.get, h, if_false]
        split
        · split
          · omega
          · simp_all <;> omega
        · rfl
      · simp [Tab.get, ih]

theorem Tab.above_put (h : Tab.above b t = true) (hk : b < k) : Tab.above b (Tab.put t k x) = true := by
  cases t with
  | nil => simpa [Tab.put, Tab.above] using hk
  | cons e t =>
    unfold Tab.put
    split
    · simpa [Tab.above] using hk
    · split
      · simpa [Tab.above] using hk
      · exact h

section
variable [DecidableEq α]

theorem Tab.get_erase_self (h : Tab.wf d t = true) : Tab.get d (Tab.erase t k) k = d := by
  induction t with
  | nil => rfl
  | cons e t ih =>
    simp only [Tab.wf, Bool.and_eq_true] at h
    unfold Tab.erase
    split
    · subst_vars; exact Tab.get_above h.1.2 (Nat.le_refl _)
    · split
      · simp [Tab.get, *]
      · simp [Tab.get, ih h.2, *]

theorem Tab.get_erase_ne (hw : Tab.wf d t = true) (h : j ≠ k) : Tab.get d (Tab.erase t k) j = Tab.get d t j := by
  induction t with
  | nil => rfl
  | cons e t ih =>
    simp only [Tab.wf, Bool.and_eq_true] at hw
    unfold Tab.erase
    split
    · subst_vars
      simp only [Tab.get, h, if_false]
      split
      · exact Tab.get_above hw.1.2 (by omega)
      · rfl
    · split
      · rfl
      · simp [Tab.get, ih hw.2]

/-- Reading after writing the same key gives the value written. -/
theorem Tab.get_set_self (h : Tab.wf d t = true) : Tab.get d (Tab.set d t k x) k = x := by
  unfold Tab.set
  split
  · subst_vars; exact Tab.get_erase_self h
  · exact Tab.get_put_self

/-- A write leaves every other key alone. -/
theorem Tab.get_set_ne (hw : Tab.wf d t = true) (h : j ≠ k) : Tab.get d (Tab.set d t k x) j = Tab.get d t j := by
  unfold Tab.set
  split
  · exact Tab.get_erase_ne hw h
  · exact Tab.get_put_ne h

theorem Tab.above_erase (h : Tab.above b t = true) (hw : Tab.wf d t = true) : Tab.above b (Tab.erase t k) = true := by
  cases t with
  | nil => rfl
  | cons e t =>
    simp only [Tab.wf, Bool.and_eq_true] at hw
    unfold Tab.erase
    split
    · simp only [Tab.above, decide_eq_true_eq] at h
      exact Tab.above_mono hw.1.2 (by omega)
    · split <;> exact h

theorem Tab.wf_erase (h : Tab.wf d t = true) : Tab.wf d (Tab.erase t k) = true := by
  induction t with
  | nil => rfl
  | cons e t ih =>
    have h' := h
    simp only [Tab.wf, Bool.and_eq_true] at h'
    unfold Tab.erase
    split
    · exact h'.2
    · split
      · exact h
      · simp only [Tab.wf, Bool.and_eq_true]
        exact ⟨⟨h'.1.1, Tab.above_erase h'.1.2 h'.2⟩, ih h'.2⟩

theorem Tab.wf_put (h : Tab.wf d t = true) (hx : x ≠ d) : Tab.wf d (Tab.put t k x) = true := by
  induction t with
  | nil => simp [Tab.put, Tab.wf, Tab.above, hx]
  | cons e t ih =>
    have h' := h
    simp only [Tab.wf, Bool.and_eq_true] at h'
    unfold Tab.put
    split
    · subst_vars; simp only [Tab.wf, Bool.and_eq_true]; exact ⟨⟨by simpa using hx, h'.1.2⟩, h'.2⟩
    · split
      · simp only [Tab.wf, Bool.and_eq_true]
        exact ⟨⟨by simpa using hx, by simpa [Tab.above]⟩, h'⟩
      · simp only [Tab.wf, Bool.and_eq_true]
        exact ⟨⟨h'.1.1, Tab.above_put h'.1.2 (by omega)⟩, ih h'.2⟩

theorem Tab.wf_set (h : Tab.wf d t = true) : Tab.wf d (Tab.set d t k x) = true := by
  unfold Tab.set
  split
  · exact Tab.wf_erase h
  · exact Tab.wf_put h ‹_›

theorem Tab.above_filter {f : Nat × α → Bool} (h : Tab.above b t = true) (hw : Tab.wf d t = true) :
    Tab.above b (t.filter f) = true := by
  induction t generalizing b with
  | nil => rfl
  | cons e t ih =>
    simp only [Tab.wf, Bool.and_eq_true] at hw
    simp only [List.filter]
    split
    · exact h
    · simp only [Tab.above, decide_eq_true_eq] at h
      exact ih (Tab.above_mono hw.1.2 (by omega)) hw.2

theorem Tab.wf_filter {f : Nat × α → Bool} (h : Tab.wf d t = true) : Tab.wf d (t.filter f) = true := by
  induction t with
  | nil => rfl
  | cons e t ih =>
    have h' := h
    simp only [Tab.wf, Bool.and_eq_true] at h'
    simp only [List.filter]
    split
    · simp only [Tab.wf, Bool.and_eq_true]
      exact ⟨⟨h'.1.1, Tab.above_filter h'.1.2 h'.2⟩, ih h'.2⟩
    · exact ih h'.2

theorem Tab.wf_clearRange {lo hi : Nat} (h : Tab.wf d t = true) : Tab.wf d (t.clearRange lo hi) = true :=
  Tab.wf_filter h

end

theorem Tab.wf_writeBytes {t : Tab Byte} {a : Nat} {bs : List Byte} (h : Tab.wf 0 t = true) :
    Tab.wf 0 (t.writeBytes a bs) = true := by
  induction bs generalizing t a with
  | nil => exact h
  | cons b bs ih => exact ih (Tab.wf_set h)

/-- Writing bytes leaves every byte outside them alone. -/
theorem Tab.get_writeBytes_ne {t : Tab Byte} {a j : Nat} {bs : List Byte} (h : Tab.wf 0 t = true)
    (hj : j < a ∨ a + bs.length ≤ j) : Tab.get 0 (t.writeBytes a bs) j = Tab.get 0 t j := by
  induction bs generalizing t a with
  | nil => rfl
  | cons b bs ih =>
    simp only [List.length_cons] at hj
    show Tab.get 0 (Tab.writeBytes (t.set 0 a b) (a + 1) bs) j = _
    rw [ih (Tab.wf_set h) (by omega), Tab.get_set_ne h (by omega)]

/-- A byte of those written reads as written. -/
theorem Tab.get_writeBytes {t : Tab Byte} {a i : Nat} {bs : List Byte} (h : Tab.wf 0 t = true)
    (hi : i < bs.length) : Tab.get 0 (t.writeBytes a bs) (a + i) = bs[i] := by
  induction bs generalizing t a i with
  | nil => simp at hi
  | cons b bs ih =>
    show Tab.get 0 (Tab.writeBytes (t.set 0 a b) (a + 1) bs) (a + i) = _
    cases i with
    | zero => rw [get_writeBytes_ne (Tab.wf_set h) (by omega)]; exact Tab.get_set_self h
    | succ i =>
      have := ih (t := t.set 0 a b) (a := a + 1) (i := i) (Tab.wf_set h) (by simpa using hi)
      rw [show a + (i + 1) = a + 1 + i by omega, this]; rfl

/-! ### The register table -/

theorem regs_above_erase {t : Tab Word} (h : Tab.above b t = true) (hw : regsWf t = true) :
    Tab.above b (Tab.erase t k) = true := by
  cases t with
  | nil => rfl
  | cons e t =>
    simp only [regsWf, Bool.and_eq_true] at hw
    unfold Tab.erase
    split
    · simp only [Tab.above, decide_eq_true_eq] at h
      exact Tab.above_mono hw.1.2 (by omega)
    · split <;> exact h

/-- Writing a register keeps the table canonical. -/
theorem regsWf_set {t : Tab Word} {v : Word} (h : regsWf t = true) :
    regsWf (Tab.set (regReset k) t k v) = true := by
  unfold Tab.set
  split
  · induction t with
    | nil => rfl
    | cons e t ih =>
      have h' := h
      simp only [regsWf, Bool.and_eq_true] at h'
      unfold Tab.erase
      split
      · exact h'.2
      · split
        · exact h
        · simp only [regsWf, Bool.and_eq_true]
          exact ⟨⟨h'.1.1, regs_above_erase h'.1.2 h'.2⟩, ih h'.2⟩
  · rename_i hx
    induction t with
    | nil => simp [Tab.put, regsWf, Tab.above, hx]
    | cons e t ih =>
      have h' := h
      simp only [regsWf, Bool.and_eq_true] at h'
      unfold Tab.put
      split
      · subst_vars; simp only [regsWf, Bool.and_eq_true]; exact ⟨⟨by simpa using hx, h'.1.2⟩, h'.2⟩
      · split
        · simp only [regsWf, Bool.and_eq_true]
          exact ⟨⟨by simpa using hx, by simpa [Tab.above]⟩, h'⟩
        · simp only [regsWf, Bool.and_eq_true]
          exact ⟨⟨h'.1.1, Tab.above_put h'.1.2 (by omega)⟩, ih h'.2⟩

theorem regs_above_filter {t : Tab Word} {f : Nat × Word → Bool} (h : Tab.above b t = true)
    (hw : regsWf t = true) : Tab.above b (t.filter f) = true := by
  induction t generalizing b with
  | nil => rfl
  | cons e t ih =>
    simp only [regsWf, Bool.and_eq_true] at hw
    simp only [List.filter]
    split
    · exact h
    · simp only [Tab.above, decide_eq_true_eq] at h
      exact ih (Tab.above_mono hw.1.2 (by omega)) hw.2

theorem regsWf_filter {t : Tab Word} {f : Nat × Word → Bool} (h : regsWf t = true) :
    regsWf (t.filter f) = true := by
  induction t with
  | nil => rfl
  | cons e t ih =>
    have h' := h
    simp only [regsWf, Bool.and_eq_true] at h'
    simp only [List.filter]
    split
    · simp only [regsWf, Bool.and_eq_true]
      exact ⟨⟨h'.1.1, regs_above_filter h'.1.2 h'.2⟩, ih h'.2⟩
    · exact ih h'.2

theorem regs_get_erase_self {t : Tab Word} {d : Word} (h : regsWf t = true) : Tab.get d (Tab.erase t k) k = d := by
  induction t with
  | nil => rfl
  | cons e t ih =>
    simp only [regsWf, Bool.and_eq_true] at h
    unfold Tab.erase
    split
    · subst_vars; exact Tab.get_above h.1.2 (Nat.le_refl _)
    · split
      · simp [Tab.get, *]
      · simp [Tab.get, ih h.2, *]

theorem regs_get_erase_ne {t : Tab Word} {d : Word} (hw : regsWf t = true) (h : j ≠ k) :
    Tab.get d (Tab.erase t k) j = Tab.get d t j := by
  induction t with
  | nil => rfl
  | cons e t ih =>
    simp only [regsWf, Bool.and_eq_true] at hw
    unfold Tab.erase
    split
    · subst_vars
      simp only [Tab.get, h, if_false]
      split
      · exact Tab.get_above hw.1.2 (by omega)
      · rfl
    · split
      · rfl
      · simp [Tab.get, ih hw.2]

/-- A register reads as written. -/
theorem rd_wr_self {s : State} (h : regsWf s.regs = true) (k : Nat) (v : Word) : (s.wr k v).rd k = v := by
  unfold State.rd State.wr Tab.set
  dsimp only
  split
  · rw [regs_get_erase_self h]; exact Eq.symm ‹_›
  · exact Tab.get_put_self

/-- Writing a register leaves every other register alone. -/
theorem rd_wr_ne {s : State} (hw : regsWf s.regs = true) {j k : Nat} (h : j ≠ k) (v : Word) :
    (s.wr k v).rd j = s.rd j := by
  unfold State.rd State.wr Tab.set
  dsimp only
  split
  · exact regs_get_erase_ne hw h
  · exact Tab.get_put_ne h

end Sys2Proof.Machine
end

