-- ==== Sys2Proof/Laws/Good.lean ====
section
/-! SUPPORT. What every operation of the device keeps: the commands that wait, the fuses, and the canonical form of
stage memory, the scratchpads and the registers. The files Laws/Keep… state it once per operation. -/

namespace Sys2Proof.Machine

/-- What a command may not change: the queue it was taken from and the fuses. -/
structure Key where
  pend : List Instr
  fuses : Fuses

def Key.memOk (_ : Key) (m : Memory) : Prop := Memory.wf m = true
def Key.spadOk (_ : Key) (m : Tab Byte) : Prop := Tab.wf 0 m = true
def Key.regsOk (_ : Key) (m : Tab Word) : Prop := regsWf m = true

/-- `s` holds the queue and the fuses of `k`, its tables in canonical form. -/
def Good (k : Key) (s : State) : Prop :=
  s.pending = k.pend ∧ s.trust.fuses = k.fuses ∧ k.memOk s.mem ∧ k.spadOk s.spad ∧ k.regsOk s.regs

/-- A meaning answers a next state, and that state is good. -/
def Keeps (k : Key) (r : Host.Outcome State Fault Refusal) : Prop := ∃ t, r = .next t ∧ Good k t

/-- The state inside an answer, where there is one, is good. -/
def GoodIn {α : Type} (k : Key) (g : α → State) (o : Option α) : Prop := ∀ x, o = some x → Good k (g x)

variable {k : Key} {s t : State}

@[simp] theorem Good.pend (h : Good k s) : (s.pending = k.pend) = True := eq_true h.1
@[simp] theorem Good.fuses (h : Good k s) : (s.trust.fuses = k.fuses) = True := eq_true h.2.1
@[simp] theorem Good.mem (h : Good k s) : (k.memOk s.mem) = True := eq_true h.2.2.1
@[simp] theorem Good.spad (h : Good k s) : (k.spadOk s.spad) = True := eq_true h.2.2.2.1
@[simp] theorem Good.regs (h : Good k s) : (k.regsOk s.regs) = True := eq_true h.2.2.2.2

@[simp ↓] theorem good_mk (pending freeCtr regs mem spad spadEcc spadOwed cores jobs progs flog smem qm seqs wintab fab
    ports carts recov obs power host trust start latches limitCtx) :
    Good k (State.mk pending freeCtr regs mem spad spadEcc spadOwed cores jobs progs flog smem qm seqs wintab fab
      ports carts recov obs power host trust start latches limitCtx) ↔
    pending = k.pend ∧ trust.fuses = k.fuses ∧ k.memOk mem ∧ k.spadOk spad ∧ k.regsOk regs := Iff.rfl

/-- An update of other fields. -/
theorem good_upd {b : State} (freeCtr spadEcc spadOwed cores jobs progs flog smem qm seqs wintab fab
    ports carts recov obs power host start latches limitCtx) :
    Good k (State.mk b.pending freeCtr b.regs b.mem b.spad spadEcc spadOwed cores jobs progs flog smem qm seqs wintab fab
      ports carts recov obs power host b.trust start latches limitCtx) ↔ Good k b := Iff.rfl

@[simp] theorem regsOk_set {m : Tab Word} (h : k.regsOk m) (a v) : k.regsOk (Tab.set (regReset a) m a v) := regsWf_set h
@[simp] theorem regsOk_filter {m : Tab Word} (h : k.regsOk m) (f : Nat × Word → Bool) : k.regsOk (m.filter f) :=
  regsWf_filter h
@[simp] theorem memOk_filter {m : Memory} (h : k.memOk m) (f : Nat × Byte → Bool) : k.memOk (m.filter f) :=
  Tab.wf_filter h
@[simp] theorem memOk_clearRange {m : Memory} (h : k.memOk m) (a b) : k.memOk (Tab.clearRange m a b) := Tab.wf_filter h
@[simp] theorem memOk_writeBytes {m : Memory} (h : k.memOk m) (a bs) : k.memOk (Tab.writeBytes m a bs) :=
  Tab.wf_writeBytes h
@[simp] theorem spadOk_clearRange {m : Tab Byte} (h : k.spadOk m) (a b) : k.spadOk (Tab.clearRange m a b) :=
  Tab.wf_filter h
@[simp] theorem spadOk_writeBytes {m : Tab Byte} (h : k.spadOk m) (a bs) : k.spadOk (Tab.writeBytes m a bs) :=
  Tab.wf_writeBytes h
@[simp] theorem spadOk_foldl {α : Type} {l : List α} {f : α → Nat} {g : α → Byte} {m : Tab Byte} (h : k.spadOk m) :
    k.spadOk (l.foldl (fun t p => Tab.set 0#8 t (f p) (g p)) m) := by
  induction l generalizing m with
  | nil => exact h
  | cons a l ih => exact ih (Tab.wf_set h)

@[simp ↓] theorem good_ite {c : Prop} [Decidable c] (h : Good k s) (h2 : Good k t) :
    Good k (if c then s else t) := by
  split <;> assumption

@[simp ↓] theorem good_foldl {α : Type} {f : State → α → State} {l : List α} (h : Good k s)
    (hf : ∀ st a, Good k st → Good k (f st a)) : Good k (l.foldl f s) := by
  induction l generalizing s with
  | nil => exact h
  | cons a l ih => exact ih (hf _ _ h)

/-- A fold that carries a state and something beside it. -/
@[simp ↓] theorem good_foldl_fst {α β : Type} {f : State × β → α → State × β} {l : List α} {p : State × β}
    (h : Good k p.1) (hf : ∀ st a, Good k st.1 → Good k (f st a).1) : Good k (l.foldl f p).1 := by
  induction l generalizing p with
  | nil => exact h
  | cons a l ih => exact ih (hf _ _ h)

theorem GoodIn.get {α : Type} {g : α → State} {o : Option α} {x : α} (h : GoodIn k g o) (e : o = some x) :
    Good k (g x) := h x e

theorem good_of_some {o : Option State} {x : State} (e : o = some x) (h : GoodIn k (fun x => x) o) : Good k x := h x e
theorem good_of_some_fst {β : Type} {o : Option (State × β)} {x : State} {y : β} (e : o = some (x, y))
    (h : GoodIn k (fun x => x.1) o) : Good k x := h _ e
theorem good_of_some_snd {β : Type} {o : Option (β × State)} {x : State} {y : β} (e : o = some (y, x))
    (h : GoodIn k (fun x => x.2) o) : Good k x := h _ e
theorem good_of_some_third {β γ : Type} {o : Option (β × γ × State)} {x : State} {y : β} {z : γ}
    (e : o = some (y, z, x)) (h : GoodIn k (fun x => x.2.2) o) : Good k x := h _ e
theorem good_of_pair {β : Type} {p : State × β} {x : State} {y : β} (e : p = (x, y)) (h : Good k p.1) : Good k x := by
  subst e; exact h
theorem good_of_pair_snd {β : Type} {p : β × State} {x : State} {y : β} (e : p = (y, x)) (h : Good k p.2) :
    Good k x := by subst e; exact h

@[simp] theorem goodIn_none {α : Type} {g : α → State} : GoodIn k g none := by intro x h; cases h
@[simp] theorem goodIn_some {α : Type} {g : α → State} {x : α} : GoodIn k g (some x) ↔ Good k (g x) :=
  ⟨fun h => h x rfl, fun h _ e => by cases e; exact h⟩
@[simp] theorem goodIn_map {α β : Type} {g : β → State} {f : α → β} {o : Option α} :
    GoodIn k g (o.map f) ↔ GoodIn k (fun x => g (f x)) o := by
  cases o <;> simp
theorem goodIn_map_of {α β : Type} {g : β → State} {f : α → β} {o : Option α}
    (h : ∀ x, o = some x → Good k (g (f x))) : GoodIn k g (o.map f) := by
  cases o with
  | none => intro x e; cases e
  | some y => intro x e; cases e; exact h y rfl
@[simp ↓] theorem goodIn_ite {α : Type} {g : α → State} {c : Prop} [Decidable c] {a b : Option α}
    (h : GoodIn k g a) (h2 : GoodIn k g b) : GoodIn k g (if c then a else b) := by
  split <;> assumption

@[simp ↓] theorem keeps_next : Keeps k (.next s) ↔ Good k s := by
  simp [Keeps]
@[simp ↓] theorem keeps_ite {c : Prop} [Decidable c] {a b : Host.Outcome State Fault Refusal} (h : Keeps k a)
    (h2 : Keeps k b) : Keeps k (if c then a else b) := by
  split <;> assumption

@[simp ↓] theorem good_modFab (h : Good k s) (f) : Good k (s.modFab f) := h
@[simp ↓] theorem good_modHost (h : Good k s) (f) : Good k (s.modHost f) := h
@[simp ↓] theorem good_modPower (h : Good k s) (f) : Good k (s.modPower f) := h

end Sys2Proof.Machine
end

