-- ==== Sys2Proof/Laws/KeepOps.lean ====
section
/-! SUPPORT. What every operation of Machine/Ops.lean keeps (Laws/Good.lean). -/

namespace Sys2Proof.Machine

variable {k : Key} {s t : State}

@[simp ↓] theorem State.wr_good (h : Good k s) (a1 a2) : Good k (State.wr s a1 a2) := by
  unfold State.wr
  simp +contextual (maxDischargeDepth := 50) [h]

@[simp ↓] theorem State.setFld_good (h : Good k s) (a1 a2 a3 a4) : Good k (State.setFld s a1 a2 a3 a4) := by
  unfold State.setFld
  simp +contextual (maxDischargeDepth := 50) [h]

@[simp ↓] theorem State.setBit_good (h : Good k s) (a1 a2 a3) : Good k (State.setBit s a1 a2 a3) := by
  unfold State.setBit
  simp +contextual (maxDischargeDepth := 50) [h]

@[simp ↓] theorem State.count_good (h : Good k s) (a1 a2) : Good k (State.count s a1 a2) := by
  unfold State.count
  simp +contextual (maxDischargeDepth := 50) [h]

@[simp ↓] theorem State.count64_good (h : Good k s) (a1 a2) : Good k (State.count64 s a1 a2) := by
  unfold State.count64
  simp +contextual (maxDischargeDepth := 50) [h]

@[simp ↓] theorem State.add64_good (h : Good k s) (a1 a2) : Good k (State.add64 s a1 a2) := by
  unfold State.add64
  simp +contextual (maxDischargeDepth := 50) [h]

@[simp ↓] theorem State.globalEvent_good (h : Good k s) (a1 a2 a3) : Good k (State.globalEvent s a1 a2 a3) := by
  unfold State.globalEvent
  dsimp only
  simp +contextual (maxDischargeDepth := 100) only [h, ↓good_ite, ↓good_foldl, implies_true, ↓State.add64_good]

@[simp ↓] theorem State.msixSend_good (h : Good k s) (a1) : Good k (State.msixSend s a1) := by
  unfold State.msixSend
  dsimp only
  simp +contextual (maxDischargeDepth := 100) only [h, ↓good_ite, ↓good_mk, Good.pend, Good.fuses, Good.mem, Good.spad, Good.regs, and_self]

@[simp ↓] theorem State.noteRequest_good (h : Good k s) (a1 a2) : Good k (State.noteRequest s a1 a2) := by
  unfold State.noteRequest
  simp +contextual (maxDischargeDepth := 50) [h]

@[simp ↓] theorem State.intEvent_good (h : Good k s) (a1 a2) : Good k (State.intEvent s a1 a2) := by
  unfold State.intEvent
  simp +contextual (maxDischargeDepth := 50) [h]

@[simp ↓] theorem State.setCore_good (h : Good k s) (a1 a2) : Good k (State.setCore s a1 a2) := by
  unfold State.setCore
  simp +contextual (maxDischargeDepth := 50) [h]

@[simp ↓] theorem State.modCore_good (h : Good k s) (a1 a2) : Good k (State.modCore s a1 a2) := by
  unfold State.modCore
  simp +contextual (maxDischargeDepth := 50) [h]

@[simp ↓] theorem State.modEng_good (h : Good k s) (a1 a2 a3) : Good k (State.modEng s a1 a2 a3) := by
  unfold State.modEng
  simp +contextual (maxDischargeDepth := 50) [h]

@[simp ↓] theorem State.setJob_good (h : Good k s) (a1 a2) : Good k (State.setJob s a1 a2) := by
  unfold State.setJob
  simp +contextual (maxDischargeDepth := 50) [h]

@[simp ↓] theorem State.clearRegs_good (h : Good k s) (a1) : Good k (State.clearRegs s a1) := by
  unfold State.clearRegs
  simp +contextual (maxDischargeDepth := 50) [h]

@[simp ↓] theorem State.setUnit_good (h : Good k s) (a1 a2 a3) : Good k (State.setUnit s a1 a2 a3) := by
  unfold State.setUnit
  dsimp only
  simp +contextual (maxDischargeDepth := 100) only [h, ↓good_foldl, implies_true, ↓State.setFld_good, ↓State.setBit_good]

@[simp ↓] theorem State.setSpadHealth_good (h : Good k s) (a1 a2 a3) : Good k (State.setSpadHealth s a1 a2 a3) := by
  unfold State.setSpadHealth
  simp +contextual (maxDischargeDepth := 50) [h]

@[simp ↓] theorem State.observe_good (h : Good k s) (a1 a2) : Good k (State.observe s a1 a2) := by
  unfold State.observe
  dsimp only
  simp +contextual (maxDischargeDepth := 100) only [h, ↓good_mk, Good.pend, Good.fuses, Good.mem, Good.spad, Good.regs, and_self]

@[simp ↓] theorem State.coreEvent_good (h : Good k s) (a1 a2 a3 a4 a5) : Good k (State.coreEvent s a1 a2 a3 a4 a5) := by
  unfold State.coreEvent
  dsimp only
  repeat' first
    | with_reducible assumption
    | with_reducible refine good_ite ?_ ?_
    | with_reducible refine good_foldl ?_ (fun _ _ _ => ?_)
    | with_reducible apply State.add64_good
    | split

@[simp ↓] theorem State.noteSpadEcc_good (h : Good k s) (a1 a2) : Good k (State.noteSpadEcc s a1 a2) := by
  unfold State.noteSpadEcc
  repeat' first
    | with_reducible assumption
    | with_reducible refine good_ite ?_ ?_
    | with_reducible apply State.observe_good
    | with_reducible apply State.coreEvent_good
    | with_reducible apply State.wr_good
    | with_reducible apply State.count_good
    | with_reducible apply State.intEvent_good
    | simp only [↓good_upd]

@[simp ↓] theorem State.noteWords_good (h : Good k s) (a1 a2) : Good k (State.noteWords s a1 a2) := by
  unfold State.noteWords
  repeat' first
    | with_reducible assumption
    | with_reducible refine good_foldl ?_ (fun _ _ _ => ?_)
    | with_reducible apply State.noteSpadEcc_good

@[simp ↓] theorem State.spadCheck_good (h : Good k s) (a1 a2 a3) : Good k (State.spadCheck s a1 a2 a3).1 := by
  unfold State.spadCheck
  repeat' first
    | with_reducible assumption
    | with_reducible apply State.noteWords_good

@[simp ↓] theorem State.spadScatter_good (h : Good k s) (a1 a2) : Good k (State.spadScatter s a1 a2) := by
  unfold State.spadScatter
  simp +contextual (maxDischargeDepth := 50) [h]

@[simp ↓] theorem State.spadWrite_good (h : Good k s) (a1 a2 a3) : Good k (State.spadWrite s a1 a2 a3) := by
  unfold State.spadWrite
  dsimp only
  simp +contextual (maxDischargeDepth := 100) only [h, ↓State.spadScatter_good]

@[simp ↓] theorem State.upset_good (h : Good k s) (a1 a2) : Good k (State.upset s a1 a2) := by
  unfold State.upset
  simp +contextual (maxDischargeDepth := 50) [h]

@[simp ↓] theorem State.setFlag_good (h : Good k s) (a1 a2 a3) : Good k (State.setFlag s a1 a2 a3) := by
  unfold State.setFlag
  simp +contextual (maxDischargeDepth := 50) [h]

end Sys2Proof.Machine
end

