-- ==== Sys2Proof/Laws/KeepStageMem.lean ====
section
/-! SUPPORT. What every operation of Machine/StageMem.lean keeps (Laws/Good.lean). -/

namespace Sys2Proof.Machine

variable {k : Key} {s t : State}

@[simp ↓] theorem State.setMemHealth_good (h : Good k s) (a1 a2) : Good k (State.setMemHealth s a1 a2) := by
  unfold State.setMemHealth
  dsimp only
  simp +contextual (maxDischargeDepth := 100) only [h, ↓good_mk, Good.pend, Good.fuses, Good.mem, Good.spad, Good.regs, and_self]

@[simp ↓] theorem State.tierBytes_good (h : Good k s) (a1 a2 a3 a4) : Good k (State.tierBytes s a1 a2 a3 a4) := by
  induction a4 generalizing s a2 a3 with
  | zero => unfold State.tierBytes; exact h
  | succ f ih => unfold State.tierBytes; split; exact h; exact ih (by simp [h]) _ _

@[simp ↓] theorem State.noteMemEcc_good (h : Good k s) (a1 a2) : Good k (State.noteMemEcc s a1 a2) := by
  unfold State.noteMemEcc
  dsimp only
  simp +contextual (maxDischargeDepth := 100) only [h, ↓good_ite, ↓State.count_good, ↓State.globalEvent_good, ↓State.intEvent_good, ↓State.observe_good, ↓State.wr_good]

@[simp ↓] theorem State.noteWordsBad_good (h : Good k s) (a1) : Good k (State.noteWordsBad s a1) := by
  unfold State.noteWordsBad
  repeat' first
    | with_reducible assumption
    | with_reducible refine good_foldl ?_ (fun _ _ _ => ?_)
    | with_reducible apply State.noteMemEcc_good

@[simp ↓] theorem State.oweWriteBack_good (h : Good k s) (a1) : Good k (State.oweWriteBack s a1) := by
  unfold State.oweWriteBack
  dsimp only
  simp +contextual (maxDischargeDepth := 100) only [h, ↓good_ite, ↓good_mk, Good.pend, Good.fuses, Good.mem, Good.spad, Good.regs, and_self]

@[simp ↓] theorem State.rebuildRow_good (h : Good k s) (a1) : Good k (State.rebuildRow s a1) := by
  unfold State.rebuildRow
  dsimp only
  simp +contextual (maxDischargeDepth := 100) only [h, ↓good_ite, ↓good_foldl, implies_true, ↓State.intEvent_good, ↓State.globalEvent_good, ↓State.count_good, ↓State.oweWriteBack_good]

@[simp ↓] theorem State.memCheck_good (h : Good k s) (a1 a2) : Good k (State.memCheck s a1 a2).1 := by
  unfold State.memCheck
  repeat' first
    | with_reducible assumption
    | with_reducible refine good_foldl ?_ (fun _ _ _ => ?_)
    | with_reducible apply State.rebuildRow_good
    | with_reducible apply State.noteWordsBad_good
    | with_reducible apply State.oweWriteBack_good

@[simp ↓] theorem State.memRead_good (h : Good k s) (a1 a2) : Good k (State.memRead s a1 a2).1 := by
  unfold State.memRead
  dsimp only
  simp +contextual (maxDischargeDepth := 100) only [h, ↓State.memCheck_good, ↓State.tierBytes_good]

@[simp ↓] theorem State.rowWritten_good (h : Good k s) (a1) : Good k (State.rowWritten s a1) := by
  unfold State.rowWritten
  repeat' first
    | with_reducible assumption
    | with_reducible refine good_ite ?_ ?_
    | with_reducible refine good_foldl ?_ (fun _ _ _ => ?_)
    | with_reducible apply State.setMemHealth_good
    | simp only [↓good_upd]
    | split

@[simp ↓] theorem State.parityUpdate_good (h : Good k s) (a1 a2) : Good k (State.parityUpdate s a1 a2) := by
  unfold State.parityUpdate
  repeat' first
    | with_reducible assumption
    | with_reducible refine good_ite ?_ ?_
    | with_reducible apply State.noteMemEcc_good
    | with_reducible apply State.setMemHealth_good

@[simp ↓] theorem State.wordWritten_good (h : Good k s) (a1 a2) : Good k (State.wordWritten s a1 a2) := by
  unfold State.wordWritten
  repeat' first
    | with_reducible assumption
    | with_reducible refine good_ite ?_ ?_
    | with_reducible apply State.parityUpdate_good
    | with_reducible apply State.setMemHealth_good

@[simp ↓] theorem State.memWrite_good (h : Good k s) (a1 a2) : Good k (State.memWrite s a1 a2) := by
  unfold State.memWrite
  simp +contextual (maxDischargeDepth := 50) [h]

@[simp ↓] theorem State.memUpset_good (h : Good k s) (a1) : Good k (State.memUpset s a1) := by
  unfold State.memUpset
  dsimp only
  simp +contextual (maxDischargeDepth := 100) only [h, ↓good_ite, ↓good_foldl, implies_true, ↓State.setMemHealth_good]

end Sys2Proof.Machine
end

