-- ==== Sys2Proof/Laws/KeepObserve.lean ====
section
/-! SUPPORT. What every operation of Machine/Observe.lean keeps (Laws/Good.lean). -/

namespace Sys2Proof.Machine

variable {k : Key} {s t : State}

@[simp ↓] theorem State.ringWrite_good (h : Good k s) (a1 a2) : Good k (State.ringWrite s a1 a2) := by
  unfold State.ringWrite
  simp +contextual (maxDischargeDepth := 50) [h]

@[simp ↓] theorem State.sysRecord_good (h : Good k s) (a1 a2 a3 a4 a5) : Good k (State.sysRecord s a1 a2 a3 a4 a5) := by
  unfold State.sysRecord
  dsimp only
  simp +contextual (maxDischargeDepth := 100) only [h, ↓good_ite, ↓good_mk, Good.pend, Good.fuses, Good.mem, Good.spad, Good.regs, and_self, ↓State.ringWrite_good, ↓State.wr_good]

@[simp ↓] theorem State.ctxRecord_good (h : Good k s) (a1 a2 a3 a4 a5 a6) : Good k (State.ctxRecord s a1 a2 a3 a4 a5 a6) := by
  unfold State.ctxRecord
  dsimp only
  simp +contextual (maxDischargeDepth := 100) only [h, ↓good_ite, ↓good_mk, Good.pend, Good.fuses, Good.mem, Good.spad, Good.regs, and_self, ↓State.ringWrite_good, ↓State.wr_good]

@[simp ↓] theorem State.faultRecord_good (h : Good k s) (a1 a2 a3 a4) : Good k (State.faultRecord s a1 a2 a3 a4) := by
  unfold State.faultRecord
  repeat' first
    | with_reducible assumption
    | with_reducible apply State.sysRecord_good
    | with_reducible apply State.ctxRecord_good
    | simp only
    | split

@[simp ↓] theorem State.ledgerFault_good (h : Good k s) (a1) : Good k (State.ledgerFault s a1) := by
  unfold State.ledgerFault
  dsimp only
  simp +contextual (maxDischargeDepth := 100) only [h, ↓good_mk, Good.pend, Good.fuses, Good.mem, Good.spad, Good.regs, and_self]

@[simp ↓] theorem State.modLedger_good (h : Good k s) (a1) : Good k (State.modLedger s a1) := by
  unfold State.modLedger
  dsimp only
  simp +contextual (maxDischargeDepth := 100) only [h, ↓good_mk, Good.pend, Good.fuses, Good.mem, Good.spad, Good.regs, and_self]

@[simp ↓] theorem State.dumpMatch_good (h : Good k s) (a1 a2 a3 a4 a5) : Good k (State.dumpMatch s a1 a2 a3 a4 a5) := by
  unfold State.dumpMatch
  repeat' first
    | with_reducible assumption
    | with_reducible refine good_ite ?_ ?_
    | with_reducible apply State.modCore_good
    | with_reducible apply State.setBit_good
    | with_reducible apply State.setJob_good
    | simp only [↓good_upd]
    | split

end Sys2Proof.Machine
end

