-- ==== Sys2Proof/Laws/KeepQueues.lean ====
section
/-! SUPPORT. What every operation of Machine/Queues.lean keeps (Laws/Good.lean). -/

namespace Sys2Proof.Machine

variable {k : Key} {s t : State}

@[simp ↓] theorem State.cardUpset_good (h : Good k s) (a1 a2) : Good k (State.cardUpset s a1 a2) := by
  unfold State.cardUpset
  repeat' first
    | with_reducible assumption
    | simp only [↓good_upd]

@[simp ↓] theorem State.headUpset_good (h : Good k s) (a1 a2) : Good k (State.headUpset s a1 a2) := by
  unfold State.headUpset
  repeat' first
    | with_reducible assumption
    | with_reducible refine good_ite ?_ ?_
    | with_reducible apply State.cardUpset_good

@[simp ↓] theorem State.qPush_good (h : Good k s) (a1 a2) : Good k (State.qPush s a1 a2) := by
  unfold State.qPush
  dsimp only
  simp +contextual (maxDischargeDepth := 100) only [h, ↓good_ite, ↓good_mk, Good.pend, Good.fuses, Good.mem, Good.spad, Good.regs, and_self, ↓State.setFld_good]

@[simp ↓] theorem State.qPop_good (h : Good k s) (a1) : Good k (State.qPop s a1) := by
  unfold State.qPop
  dsimp only
  simp +contextual (maxDischargeDepth := 100) only [h, ↓good_mk, Good.pend, Good.fuses, Good.mem, Good.spad, Good.regs, and_self, ↓State.setFld_good]

@[simp ↓] theorem State.qClear_good (h : Good k s) (a1) : Good k (State.qClear s a1) := by
  unfold State.qClear
  simp +contextual (maxDischargeDepth := 50) [h]

@[simp ↓] theorem State.qOffer_good (h : Good k s) (a1 a2) : GoodIn k (fun x => x) (State.qOffer s a1 a2) := by
  unfold State.qOffer
  simp +contextual (maxDischargeDepth := 50) [h]

end Sys2Proof.Machine
end

