-- ==== Sys2Proof/Laws/KeepSlots.lean ====
section
/-! SUPPORT. What every operation of Machine/Slots.lean keeps (Laws/Good.lean). -/

namespace Sys2Proof.Machine

variable {k : Key} {s t : State}

@[simp ↓] theorem State.setPool_good (h : Good k s) (a1 a2) : Good k (State.setPool s a1 a2) := by
  unfold State.setPool
  dsimp only
  simp +contextual (maxDischargeDepth := 100) only [h, ↓good_mk, Good.pend, Good.fuses, Good.mem, Good.spad, Good.regs, and_self, ↓State.setFld_good]

@[simp ↓] theorem State.releaseSlots_good (h : Good k s) (a1 a2) : Good k (State.releaseSlots s a1 a2) := by
  unfold State.releaseSlots
  dsimp only
  simp +contextual (maxDischargeDepth := 100) only [h, ↓State.setFld_good, ↓State.setPool_good]

@[simp ↓] theorem State.freeGrant_good (h : Good k s) (a1 a2) : Good k (State.freeGrant s a1 a2) := by
  unfold State.freeGrant
  repeat' first
    | with_reducible assumption
    | with_reducible apply State.releaseSlots_good
    | with_reducible apply State.setPool_good

@[simp ↓] theorem State.collFree_good (h : Good k s) (a1) : Good k (State.collFree s a1) := by
  unfold State.collFree
  repeat' first
    | with_reducible assumption
    | with_reducible refine good_foldl ?_ (fun _ _ _ => ?_)
    | with_reducible apply State.freeGrant_good

end Sys2Proof.Machine
end

