-- ==== Sys2Proof/Laws/KeepFaults.lean ====
section
/-! SUPPORT. What every operation of Machine/Faults.lean keeps (Laws/Good.lean). -/

namespace Sys2Proof.Machine

variable {k : Key} {s t : State}

@[simp ↓] theorem State.logErr_good (h : Good k s) (a1 a2 a3 a4) : Good k (State.logErr s a1 a2 a3 a4) := by
  unfold State.logErr
  dsimp only
  simp +contextual (maxDischargeDepth := 100) only [h, ↓good_ite, ↓State.setBit_good, ↓State.wr_good]

@[simp ↓] theorem State.discard_good (h : Good k s) (a1) : Good k (State.discard s a1) := by
  unfold State.discard
  repeat' first
    | with_reducible assumption
    | with_reducible apply State.globalEvent_good
    | with_reducible apply State.count_good
    | simp only
    | split

@[simp ↓] theorem State.eventCard_good (h : Good k s) (a1 a2 a3 a4) : Good k (State.eventCard s a1 a2 a3 a4) := by
  unfold State.eventCard
  repeat' first
    | with_reducible assumption
    | with_reducible apply State.qOffer_good
    | with_reducible apply State.intEvent_good
    | with_reducible apply State.count_good
    | with_reducible refine good_of_some (by assumption) ?_
    | simp only
    | split

@[simp ↓] theorem State.record_good (h : Good k s) (a1 a2 a3) : Good k (State.record s a1 a2 a3) := by
  unfold State.record
  dsimp only
  simp +contextual (maxDischargeDepth := 100) only [h, ↓good_ite, ↓good_mk, Good.pend, Good.fuses, Good.mem, Good.spad, Good.regs, and_self, ↓State.wr_good, ↓State.logErr_good, ↓State.intEvent_good, ↓State.faultRecord_good, ↓State.ledgerFault_good, ↓State.eventCard_good]

@[simp ↓] theorem State.setCtxState_good (h : Good k s) (a1 a2) : Good k (State.setCtxState s a1 a2) := by
  unfold State.setCtxState
  dsimp only
  simp +contextual (maxDischargeDepth := 100) only [h, ↓good_ite, ↓State.setFld_good, ↓State.intEvent_good]

@[simp ↓] theorem State.setRecState_good (h : Good k s) (a1 a2) : Good k (State.setRecState s a1 a2) := by
  unfold State.setRecState
  simp +contextual (maxDischargeDepth := 50) [h]

@[simp ↓] theorem State.showRepairs_good (h : Good k s)  : Good k (State.showRepairs s) := by
  unfold State.showRepairs
  simp +contextual (maxDischargeDepth := 50) [h]

@[simp ↓] theorem State.repairStart_good (h : Good k s) (a1 a2) : Good k (State.repairStart s a1 a2) := by
  unfold State.repairStart
  dsimp only
  simp +contextual (maxDischargeDepth := 100) only [h, ↓good_ite, ↓good_mk, Good.pend, Good.fuses, Good.mem, Good.spad, Good.regs, and_self, ↓State.showRepairs_good, ↓State.setRecState_good]

@[simp ↓] theorem State.repairEnd_good (h : Good k s) (a1) : Good k (State.repairEnd s a1) := by
  unfold State.repairEnd
  dsimp only
  simp +contextual (maxDischargeDepth := 100) only [h, ↓good_ite, ↓good_mk, Good.pend, Good.fuses, Good.mem, Good.spad, Good.regs, and_self, ↓State.showRepairs_good, ↓State.setRecState_good]

@[simp ↓] theorem State.parkReq_good (h : Good k s) (a1 a2) : Good k (State.parkReq s a1 a2) := by
  unfold State.parkReq
  dsimp only
  simp +contextual (maxDischargeDepth := 100) only [h, ↓good_ite, ↓State.setJob_good]

@[simp ↓] theorem State.stopSeqs_good (h : Good k s) (a1) : Good k (State.stopSeqs s a1) := by
  unfold State.stopSeqs
  dsimp only
  simp +contextual (maxDischargeDepth := 100) only [h, ↓good_ite, ↓good_foldl, ↓good_mk, Good.pend, Good.fuses, Good.mem, Good.spad, Good.regs, and_self, implies_true, ↓State.setBit_good, ↓State.setFld_good]

@[simp ↓] theorem State.tornCard_good (h : Good k s) (a1 a2) : Good k (State.tornCard s a1 a2) := by
  unfold State.tornCard
  repeat' first
    | with_reducible assumption
    | with_reducible refine good_ite ?_ ?_
    | with_reducible apply State.qOffer_good
    | with_reducible refine good_of_some (by assumption) ?_
    | simp only [↓good_upd]
    | split

@[simp ↓] theorem State.endEngines_good (h : Good k s) (a1) : Good k (State.endEngines s a1) := by
  unfold State.endEngines
  repeat' first
    | with_reducible assumption
    | with_reducible refine good_foldl ?_ (fun _ _ _ => ?_)
    | with_reducible apply State.setFld_good
    | with_reducible apply State.record_good
    | with_reducible apply State.count_good
    | with_reducible apply State.tornCard_good
    | with_reducible apply State.intEvent_good
    | with_reducible apply State.collFree_good
    | simp only [↓good_upd]
    | split

@[simp ↓] theorem State.tearDown_good (h : Good k s) (a1 a2) : Good k (State.tearDown s a1 a2) := by
  unfold State.tearDown
  dsimp only
  simp +contextual (maxDischargeDepth := 100) only [h, ↓good_ite, ↓good_foldl, ↓good_mk, Good.pend, Good.fuses, Good.mem, Good.spad, Good.regs, and_self, implies_true, ↓State.setCtxState_good, ↓State.setFld_good, ↓State.repairStart_good, ↓State.parkReq_good, ↓State.stopSeqs_good, ↓State.endEngines_good]

@[simp ↓] theorem State.endJobWith_good (h : Good k s) (a1 a2) : Good k (State.endJobWith s a1 a2) := by
  unfold State.endJobWith
  dsimp only
  simp +contextual (maxDischargeDepth := 100) only [h, ↓good_ite, ↓good_foldl, implies_true, ↓State.setJob_good, ↓State.modCore_good]

@[simp ↓] theorem State.escalate_good (h : Good k s)  : Good k (State.escalate s) := by
  unfold State.escalate
  dsimp only
  simp +contextual (maxDischargeDepth := 100) only [h, ↓good_foldl, ↓good_mk, Good.pend, Good.fuses, Good.mem, Good.spad, Good.regs, and_self, implies_true, ↓State.record_good]

@[simp ↓] theorem State.noSwap_good (h : Good k s)  : Good k (State.noSwap s) := by
  unfold State.noSwap
  dsimp only
  simp +contextual (maxDischargeDepth := 100) only [h, ↓good_mk, Good.pend, Good.fuses, Good.mem, Good.spad, Good.regs, and_self]

@[simp ↓] theorem State.chipFault_good (h : Good k s) (a1) : Good k (State.chipFault s a1) := by
  unfold State.chipFault
  dsimp only
  simp +contextual (maxDischargeDepth := 100) only [h, ↓good_ite, ↓good_foldl, implies_true, ↓State.tearDown_good, ↓State.setRecState_good, ↓State.noSwap_good]

@[simp ↓] theorem State.setPhase_good (h : Good k s) (a1) : Good k (State.setPhase s a1) := by
  unfold State.setPhase
  simp +contextual (maxDischargeDepth := 50) [h]

@[simp ↓] theorem State.deviceFault_good (h : Good k s) (a1) : Good k (State.deviceFault s a1) := by
  unfold State.deviceFault
  dsimp only
  simp +contextual (maxDischargeDepth := 100) only [h, ↓good_ite, ↓good_foldl, ↓good_mk, Good.pend, Good.fuses, Good.mem, Good.spad, Good.regs, and_self, implies_true, ↓State.modCore_good, ↓State.setBit_good, ↓State.intEvent_good, ↓State.setFld_good, ↓State.record_good, ↓State.msixSend_good, ↓State.setRecState_good, ↓State.setPhase_good]

@[simp ↓] theorem State.raise_good (h : Good k s) (a1) : Good k (State.raise s a1) := by
  unfold State.raise
  repeat' first
    | with_reducible assumption
    | with_reducible refine good_ite ?_ ?_
    | with_reducible apply State.record_good
    | with_reducible apply State.endJobWith_good
    | with_reducible apply State.tearDown_good
    | with_reducible apply State.chipFault_good
    | with_reducible apply State.deviceFault_good
    | with_reducible apply State.escalate_good
    | split

@[simp ↓] theorem State.advise_good (h : Good k s) (a1) : Good k (State.advise s a1) := by
  unfold State.advise
  repeat' first
    | with_reducible assumption
    | with_reducible refine good_foldl ?_ (fun _ _ _ => ?_)
    | with_reducible apply State.setBit_good
    | with_reducible apply State.raise_good
    | with_reducible apply State.modLedger_good
    | with_reducible apply State.eventCard_good
    | simp only [↓good_upd]
    | split

@[simp ↓] theorem State.coreFault_good (h : Good k s) (a1 a2 a3) : Good k (State.coreFault s a1 a2 a3) := by
  unfold State.coreFault
  repeat' first
    | with_reducible assumption
    | with_reducible refine good_ite ?_ ?_
    | with_reducible apply State.observe_good
    | with_reducible apply State.raise_good
    | simp only
    | split

end Sys2Proof.Machine
end

