-- ==== Sys2Proof/Laws/KeepFabric.lean ====
section
/-! SUPPORT. What every operation of Machine/Fabric.lean keeps (Laws/Good.lean). -/

namespace Sys2Proof.Machine

variable {k : Key} {s t : State}

@[simp ↓] theorem State.tick_good (h : Good k s) (a1) : Good k (State.tick s a1) := by
  unfold State.tick
  repeat' first
    | with_reducible assumption
    | with_reducible refine good_ite ?_ ?_
    | with_reducible apply State.wr_good
    | simp only [↓good_upd]

@[simp ↓] theorem State.advanceTo_good (h : Good k s) (a1) : Good k (State.advanceTo s a1) := by
  unfold State.advanceTo
  simp +contextual (maxDischargeDepth := 50) [h]

@[simp ↓] theorem State.localTo_good (h : Good k s) (a1) : Good k (State.localTo s a1) := by
  unfold State.localTo
  repeat' first
    | with_reducible assumption
    | with_reducible refine good_ite ?_ ?_
    | with_reducible apply State.tick_good

@[simp ↓] theorem State.setPort_good (h : Good k s) (a1 a2) : Good k (State.setPort s a1 a2) := by
  unfold State.setPort
  simp +contextual (maxDischargeDepth := 50) [h]

@[simp ↓] theorem State.modPort_good (h : Good k s) (a1 a2) : Good k (State.modPort s a1 a2) := by
  unfold State.modPort
  simp +contextual (maxDischargeDepth := 50) [h]

@[simp ↓] theorem State.toChip_good (h : Good k s) (a1 a2) : Good k (State.toChip s a1 a2) := by
  unfold State.toChip
  simp +contextual (maxDischargeDepth := 50) [h]

@[simp ↓] theorem State.takeIn_good (h : Good k s) (a1) : GoodIn k (fun x => x.2.2) (State.takeIn s a1) := by
  unfold State.takeIn
  repeat' first
    | with_reducible assumption
    | with_reducible refine goodIn_none
    | with_reducible refine goodIn_some.2 ?_
    | with_reducible apply good_modFab
    | split

@[simp ↓] theorem State.tableParity_good (h : Good k s) (a1) : Good k (State.tableParity s a1) := by
  unfold State.tableParity
  simp +contextual (maxDischargeDepth := 50) [h]

@[simp ↓] theorem State.sendFrom_good (h : Good k s) (a1 a2 a3) : Good k (State.sendFrom s a1 a2 a3).1 := by
  unfold State.sendFrom
  repeat' first
    | with_reducible assumption
    | with_reducible refine good_ite ?_ ?_
    | with_reducible apply State.modPort_good
    | with_reducible apply State.globalEvent_good
    | with_reducible apply State.raise_good
    | with_reducible apply State.toChip_good
    | with_reducible apply State.count_good
    | with_reducible apply State.tableParity_good
    | split

@[simp ↓] theorem State.sendPkt_good (h : Good k s) (a1 a2) : Good k (State.sendPkt s a1 a2).1 := by
  unfold State.sendPkt
  repeat' first
    | with_reducible assumption
    | with_reducible apply State.sendFrom_good

@[simp ↓] theorem State.receivePkt_good (h : Good k s) (a1 a2) : Good k (State.receivePkt s a1 a2) := by
  unfold State.receivePkt
  repeat' first
    | with_reducible assumption
    | with_reducible refine good_ite ?_ ?_
    | with_reducible apply State.toChip_good
    | with_reducible apply State.count_good
    | with_reducible apply State.tableParity_good
    | with_reducible apply State.globalEvent_good
    | with_reducible apply State.modPort_good
    | simp only
    | split

@[simp ↓] theorem State.showTags_good (h : Good k s)  : Good k (State.showTags s) := by
  unfold State.showTags
  dsimp only
  simp +contextual (maxDischargeDepth := 100) only [h, ↓State.wr_good]

@[simp ↓] theorem State.allocTag_good (h : Good k s) (a1 a2 a3) : GoodIn k (fun x => x.2) (State.allocTag s a1 a2 a3) := by
  unfold State.allocTag
  repeat' first
    | with_reducible assumption
    | with_reducible refine goodIn_ite ?_ ?_
    | with_reducible refine goodIn_map_of (fun _ _ => ?_)
    | with_reducible refine goodIn_none
    | with_reducible apply State.showTags_good
    | with_reducible apply State.globalEvent_good
    | with_reducible apply good_modFab

@[simp ↓] theorem State.dropTagWait_good (h : Good k s) (a1) : Good k (State.dropTagWait s a1) := by
  unfold State.dropTagWait
  repeat' first
    | with_reducible assumption
    | with_reducible apply good_modFab

@[simp ↓] theorem State.noteTagWait_good (h : Good k s) (a1) : Good k (State.noteTagWait s a1) := by
  unfold State.noteTagWait
  simp +contextual (maxDischargeDepth := 50) [h]

@[simp ↓] theorem State.freeTag_good (h : Good k s) (a1) : Good k (State.freeTag s a1) := by
  unfold State.freeTag
  simp +contextual (maxDischargeDepth := 50) [h]

@[simp ↓] theorem State.closeTag_good (h : Good k s) (a1 a2) : Good k (State.closeTag s a1 a2).1 := by
  unfold State.closeTag
  dsimp only
  repeat' first
    | with_reducible assumption
    | with_reducible apply State.count_good
    | with_reducible apply State.globalEvent_good
    | with_reducible apply State.freeTag_good
    | split

@[simp ↓] theorem State.sendWrite_good (h : Good k s) (a1 a2 a3 a4 a5 a6 a7) : GoodIn k (fun x => x.1) (State.sendWrite s a1 a2 a3 a4 a5 a6 a7) := by
  unfold State.sendWrite
  repeat' first
    | with_reducible assumption
    | with_reducible refine goodIn_map_of (fun _ _ => ?_)
    | with_reducible apply State.sendPkt_good
    | with_reducible apply State.freeTag_good
    | with_reducible apply State.allocTag_good
    | with_reducible refine good_of_some_snd (by assumption) ?_
    | simp only
    | split

end Sys2Proof.Machine
end

