-- ==== Sys2Proof/Laws/KeepFlags.lean ====
section
/-! SUPPORT. What every operation of Machine/Flags.lean keeps (Laws/Good.lean). -/

namespace Sys2Proof.Machine

variable {k : Key} {s t : State}

@[simp ↓] theorem State.flagOverflow_good (h : Good k s) (a1 a2 a3 a4) : Good k (State.flagOverflow s a1 a2 a3 a4) := by
  unfold State.flagOverflow
  simp +contextual (maxDischargeDepth := 50) [h]

@[simp ↓] theorem State.signal_good (h : Good k s) (a1 a2 a3) : Good k (State.signal s a1 a2 a3) := by
  unfold State.signal
  repeat' first
    | with_reducible assumption
    | with_reducible apply State.setFlag_good
    | with_reducible apply State.flagOverflow_good
    | split

@[simp ↓] theorem State.signals_good (h : Good k s) (a1) : Good k (State.signals s a1) := by
  unfold State.signals
  repeat' first
    | with_reducible assumption
    | with_reducible refine good_ite ?_ ?_
    | with_reducible refine good_foldl ?_ (fun _ _ _ => ?_)
    | with_reducible apply State.signal_good

@[simp ↓] theorem State.takeHead_good (h : Good k s) (a1 a2) : Good k (State.takeHead s a1 a2) := by
  unfold State.takeHead
  repeat' first
    | with_reducible assumption
    | with_reducible apply State.setFlag_good
    | with_reducible apply State.modEng_good
    | with_reducible apply State.modCore_good
    | split

end Sys2Proof.Machine
end

