-- ==== Sys2Proof/Laws/KeepPools.lean ====
section
/-! SUPPORT. What every operation of Machine/Pools.lean keeps (Laws/Good.lean). -/

namespace Sys2Proof.Machine

variable {k : Key} {s t : State}

@[simp ↓] theorem State.cutAbort_good (h : Good k s) (a1 a2) : Good k (State.cutAbort s a1 a2) := by
  unfold State.cutAbort
  dsimp only
  simp +contextual (maxDischargeDepth := 100) only [h, ↓good_ite, ↓good_foldl, implies_true, ↓State.raise_good]

@[simp ↓] theorem State.dropGrant_good (h : Good k s) (a1 a2) : Good k (State.dropGrant s a1 a2) := by
  unfold State.dropGrant
  dsimp only
  simp +contextual (maxDischargeDepth := 100) only [h, ↓good_ite, ↓good_mk, Good.pend, Good.fuses, Good.mem, Good.spad, Good.regs, and_self, ↓State.setPool_good, ↓State.cutAbort_good]

@[simp ↓] theorem State.reclaimGrant_good (h : Good k s) (a1 a2) : Good k (State.reclaimGrant s a1 a2) := by
  unfold State.reclaimGrant
  simp +contextual (maxDischargeDepth := 50) [h]

@[simp ↓] theorem State.poolOff_good (h : Good k s) (a1) : Good k (State.poolOff s a1) := by
  unfold State.poolOff
  dsimp only
  simp +contextual (maxDischargeDepth := 100) only [h, ↓good_foldl, implies_true, ↓State.setBit_good, ↓State.dropGrant_good, ↓State.setPool_good]

@[simp ↓] theorem State.startFree_good (h : Good k s) (a1) : Good k (State.startFree s a1) := by
  unfold State.startFree
  repeat' first
    | with_reducible assumption
    | with_reducible apply State.setFld_good

@[simp ↓] theorem State.takeFree_good (h : Good k s) (a1 a2) : Good k (State.takeFree s a1 a2) := by
  unfold State.takeFree
  repeat' first
    | with_reducible assumption
    | with_reducible apply State.setFld_good

@[simp ↓] theorem State.poolOn_good (h : Good k s) (a1) : Good k (State.poolOn s a1) := by
  unfold State.poolOn
  simp +contextual (maxDischargeDepth := 100) only [h, ↓good_ite, ↓State.setPool_good, ↓State.startFree_good, ↓State.setBit_good]

@[simp ↓] theorem State.creditAnswer_good (h : Good k s) (a1 a2 a3 a4) : Good k (State.creditAnswer s a1 a2 a3 a4) := by
  unfold State.creditAnswer
  dsimp only
  simp +contextual (maxDischargeDepth := 100) only [h, ↓good_ite, ↓State.count_good, ↓State.sendPkt_good, ↓State.toChip_good]

@[simp ↓] theorem State.creditRequest_good (h : Good k s) (a1 a2) : Good k (State.creditRequest s a1 a2) := by
  unfold State.creditRequest
  dsimp only
  simp +contextual (maxDischargeDepth := 100) only [h, ↓good_ite, ↓State.creditAnswer_good, ↓State.setPool_good]

@[simp ↓] theorem State.creditGrant_good (h : Good k s) (a1) : Good k (State.creditGrant s a1) := by
  unfold State.creditGrant
  repeat' first
    | with_reducible assumption
    | with_reducible refine good_ite ?_ ?_
    | with_reducible apply State.setPool_good
    | with_reducible apply State.setFld_good
    | with_reducible apply State.creditAnswer_good
    | with_reducible apply State.takeFree_good
    | simp only
    | split

@[simp ↓] theorem State.signalReady_good (h : Good k s) (a1 a2) : Good k (State.signalReady s a1 a2) := by
  unfold State.signalReady
  dsimp only
  repeat' first
    | with_reducible assumption
    | with_reducible refine good_ite ?_ ?_
    | with_reducible refine good_foldl ?_ (fun _ _ _ => ?_)
    | with_reducible apply State.signal_good
    | with_reducible apply State.setJob_good
    | split

end Sys2Proof.Machine
end

