-- ==== Sys2Proof/Laws/KeepCards.lean ====
section
/-! SUPPORT. What every operation of Machine/Cards.lean keeps (Laws/Good.lean). -/

namespace Sys2Proof.Machine

variable {k : Key} {s t : State}

@[simp ↓] theorem State.cardEvent_good (h : Good k s) (a1 a2 a3 a4) : Good k (State.cardEvent s a1 a2 a3 a4) := by
  unfold State.cardEvent
  simp +contextual (maxDischargeDepth := 50) [h]

@[simp ↓] theorem State.account_good (h : Good k s) (a1 a2 a3) : Good k (State.account s a1 a2 a3) := by
  unfold State.account
  simp +contextual (maxDischargeDepth := 50) [h]

@[simp ↓] theorem State.setReplay_good (h : Good k s) (a1 a2) : Good k (State.setReplay s a1 a2) := by
  unfold State.setReplay
  dsimp only
  simp +contextual (maxDischargeDepth := 100) only [h, ↓good_mk, Good.pend, Good.fuses, Good.mem, Good.spad, Good.regs, and_self, ↓State.setFld_good]

@[simp ↓] theorem State.retireEntries_good (h : Good k s) (a1 a2) : Good k (State.retireEntries s a1 a2) := by
  unfold State.retireEntries
  simp +contextual (maxDischargeDepth := 50) [h]

@[simp ↓] theorem State.pairedRetire_good (h : Good k s) (a1 a2) : Good k (State.pairedRetire s a1 a2) := by
  unfold State.pairedRetire
  simp +contextual (maxDischargeDepth := 50) [h]

@[simp ↓] theorem State.accept_good (h : Good k s) (a1 a2) : Good k (State.accept s a1 a2) := by
  unfold State.accept
  simp +contextual (maxDischargeDepth := 50) [h]

@[simp ↓] theorem State.drainHeld_good (h : Good k s) (a1 a2) : Good k (State.drainHeld s a1 a2) := by
  induction a2 generalizing s with
  | zero => unfold State.drainHeld; first | exact h | simp [h]
  | succ f ih =>
    unfold State.drainHeld
    repeat' first
      | with_reducible assumption
      | (with_reducible apply ih)
      | with_reducible refine good_ite ?_ ?_
      | with_reducible apply State.qPush_good
      | with_reducible apply State.accept_good
      | simp only [↓good_upd]
      | split

@[simp ↓] theorem State.takeCard_good (h : Good k s) (a1) : Good k (State.takeCard s a1) := by
  unfold State.takeCard
  simp +contextual (maxDischargeDepth := 50) [h]

@[simp ↓] theorem State.recordSend_good (h : Good k s) (a1 a2) : GoodIn k (fun x => x) (State.recordSend s a1 a2) := by
  unfold State.recordSend
  simp +contextual (maxDischargeDepth := 50) [h]

@[simp ↓] theorem State.setGrant_good (h : Good k s) (a1 a2 a3) : Good k (State.setGrant s a1 a2 a3) := by
  unfold State.setGrant
  dsimp only
  simp +contextual (maxDischargeDepth := 100) only [h, ↓State.setPool_good]

@[simp ↓] theorem State.offerXfer_good (h : Good k s) (a1 a2) : GoodIn k (fun x => x) (State.offerXfer s a1 a2) := by
  unfold State.offerXfer
  repeat' first
    | with_reducible assumption
    | with_reducible refine goodIn_ite ?_ ?_
    | with_reducible refine goodIn_none
    | with_reducible refine goodIn_some.2 ?_
    | with_reducible apply State.cardEvent_good
    | with_reducible apply State.setGrant_good
    | with_reducible apply State.setPool_good
    | with_reducible apply State.signalReady_good
    | with_reducible apply State.accept_good
    | simp only [↓good_upd]
    | split

@[simp ↓] theorem State.offer_good (h : Good k s) (a1 a2 a3 a4) : Good k (State.offer s a1 a2 a3 a4).1 := by
  unfold State.offer
  repeat' first
    | with_reducible assumption
    | with_reducible apply State.cardEvent_good
    | with_reducible apply State.offerXfer_good
    | with_reducible apply State.accept_good
    | with_reducible refine good_of_some (by assumption) ?_
    | split

@[simp ↓] theorem State.dequeue_good (h : Good k s) (a1 a2 a3 a4) : Good k (State.dequeue s a1 a2 a3 a4).1 := by
  unfold State.dequeue
  dsimp only
  repeat' first
    | with_reducible assumption
    | with_reducible refine good_ite ?_ ?_
    | with_reducible apply State.raise_good
    | with_reducible apply State.globalEvent_good
    | with_reducible apply State.takeCard_good
    | with_reducible apply State.observe_good
    | with_reducible apply State.intEvent_good
    | with_reducible apply State.count_good
    | with_reducible apply State.cardEvent_good
    | split

@[simp ↓] theorem State.postDone_good (h : Good k s) (a1 a2) : Good k (State.postDone s a1 a2) := by
  unfold State.postDone
  dsimp only
  simp +contextual (maxDischargeDepth := 100) only [h, ↓good_ite, ↓good_mk, Good.pend, Good.fuses, Good.mem, Good.spad, Good.regs, and_self, ↓State.qPush_good, ↓State.intEvent_good]

@[simp ↓] theorem State.sendCtxCard_good (h : Good k s) (a1 a2 a3) : Good k (State.sendCtxCard s a1 a2 a3) := by
  unfold State.sendCtxCard
  simp +contextual (maxDischargeDepth := 50) [h]

@[simp ↓] theorem State.replayReq_good (h : Good k s) (a1) : Good k (State.replayReq s a1) := by
  unfold State.replayReq
  dsimp only
  simp +contextual (maxDischargeDepth := 100) only [h, ↓good_ite, ↓good_foldl, ↓good_mk, Good.pend, Good.fuses, Good.mem, Good.spad, Good.regs, and_self, implies_true, ↓State.accept_good, ↓State.sendPkt_good, ↓State.discard_good]

@[simp ↓] theorem State.replayNak_good (h : Good k s) (a1) : Good k (State.replayNak s a1) := by
  unfold State.replayNak
  simp +contextual (maxDischargeDepth := 50) [h]

@[simp ↓] theorem State.retireCard_good (h : Good k s) (a1) : Good k (State.retireCard s a1) := by
  unfold State.retireCard
  dsimp only
  simp +contextual (maxDischargeDepth := 100) only [h, ↓good_ite, ↓State.retireEntries_good, ↓State.cardEvent_good]

@[simp ↓] theorem State.setRx_good (h : Good k s) (a1 a2) : Good k (State.setRx s a1 a2) := by
  unfold State.setRx
  dsimp only
  simp +contextual (maxDischargeDepth := 100) only [h, ↓good_mk, Good.pend, Good.fuses, Good.mem, Good.spad, Good.regs, and_self, ↓State.setFld_good]

@[simp ↓] theorem State.inlineCard_good (h : Good k s) (a1 a2) : GoodIn k (fun x => x) (State.inlineCard s a1 a2) := by
  unfold State.inlineCard
  repeat' first
    | with_reducible assumption
    | with_reducible refine goodIn_ite ?_ ?_
    | with_reducible refine goodIn_none
    | with_reducible refine goodIn_some.2 ?_
    | with_reducible apply State.setRx_good
    | with_reducible apply State.cardEvent_good
    | with_reducible apply State.offer_good
    | with_reducible refine good_of_pair (by assumption) ?_
    | simp only
    | split

@[simp ↓] theorem State.routeCard_good (h : Good k s) (a1 a2) : GoodIn k (fun x => x) (State.routeCard s a1 a2) := by
  unfold State.routeCard
  repeat' first
    | with_reducible assumption
    | with_reducible refine goodIn_ite ?_ ?_
    | with_reducible refine goodIn_none
    | with_reducible refine goodIn_some.2 ?_
    | with_reducible apply State.inlineCard_good
    | with_reducible apply State.replayReq_good
    | with_reducible apply State.replayNak_good
    | with_reducible apply State.retireCard_good
    | with_reducible apply State.offer_good
    | with_reducible apply State.account_good
    | with_reducible apply State.cardEvent_good
    | with_reducible refine good_of_pair (by assumption) ?_
    | split

@[simp ↓] theorem State.serveRx_good (h : Good k s) (a1 a2) : Good k (State.serveRx s a1 a2) := by
  induction a2 generalizing s with
  | zero => unfold State.serveRx; first | exact h | simp [h]
  | succ f ih =>
    unfold State.serveRx
    repeat' first
      | with_reducible assumption
      | (with_reducible apply ih)
      | with_reducible refine good_ite ?_ ?_
      | with_reducible apply State.routeCard_good
      | with_reducible apply State.setRx_good
      | with_reducible refine good_of_some (by assumption) ?_
      | simp only
      | split

@[simp ↓] theorem State.arriveRx_good (h : Good k s) (a1 a2) : GoodIn k (fun x => x) (State.arriveRx s a1 a2) := by
  unfold State.arriveRx
  simp +contextual (maxDischargeDepth := 50) [h]

@[simp ↓] theorem State.rxDrop_good (h : Good k s) (a1) : Good k (State.rxDrop s a1) := by
  unfold State.rxDrop
  dsimp only
  simp +contextual (maxDischargeDepth := 100) only [h, ↓good_ite, ↓State.setRx_good, ↓State.count_good, ↓State.setBit_good]

@[simp ↓] theorem State.releaseClosed_good (h : Good k s) (a1 a2 a3) : Good k (State.releaseClosed s a1 a2 a3) := by
  unfold State.releaseClosed
  simp +contextual (maxDischargeDepth := 50) [h]

@[simp ↓] theorem State.flushLead_good (h : Good k s) (a1 a2 a3) : Good k (State.flushLead s a1 a2 a3) := by
  unfold State.flushLead
  repeat' first
    | with_reducible assumption
    | with_reducible apply State.reclaimGrant_good
    | with_reducible apply State.releaseClosed_good
    | simp only [↓good_upd]
    | split

@[simp ↓] theorem State.flushQueue_good (h : Good k s) (a1) : Good k (State.flushQueue s a1) := by
  unfold State.flushQueue
  dsimp only
  simp +contextual (maxDischargeDepth := 100) only [h, ↓good_ite, ↓good_foldl, ↓good_mk, Good.pend, Good.fuses, Good.mem, Good.spad, Good.regs, and_self, implies_true, ↓State.qClear_good, ↓State.count_good, ↓State.releaseClosed_good, ↓State.flushLead_good, ↓State.setRx_good, ↓State.drainHeld_good]

@[simp ↓] theorem State.queueOff_good (h : Good k s) (a1) : Good k (State.queueOff s a1) := by
  unfold State.queueOff
  simp +contextual (maxDischargeDepth := 50) [h]

@[simp ↓] theorem State.queueOn_good (h : Good k s) (a1) : Good k (State.queueOn s a1) := by
  unfold State.queueOn
  dsimp only
  simp +contextual (maxDischargeDepth := 100) only [h, ↓good_ite, ↓State.setFld_good, ↓State.setBit_good]

@[simp ↓] theorem State.leadEnqueue_good (h : Good k s)  : Good k (State.leadEnqueue s) := by
  unfold State.leadEnqueue
  repeat' first
    | with_reducible assumption
    | with_reducible apply State.accept_good
    | simp only [↓good_upd]
    | split

end Sys2Proof.Machine
end

