-- ==== Sys2Proof/Laws/KeepEngines.lean ====
section
/-! SUPPORT. What every operation of Machine/Engines.lean keeps (Laws/Good.lean). -/

namespace Sys2Proof.Machine

variable {k : Key} {s t : State}

@[simp ↓] theorem State.postCard_good (h : Good k s) (a1 a2) : Good k (State.postCard s a1 a2) := by
  unfold State.postCard
  dsimp only
  simp +contextual (maxDischargeDepth := 100) only [h, ↓good_ite, ↓good_mk, Good.pend, Good.fuses, Good.mem, Good.spad, Good.regs, and_self, ↓State.cardEvent_good, ↓State.accept_good]

@[simp ↓] theorem State.scheduleEnd_good (h : Good k s) (a1) : Good k (State.scheduleEnd s a1) := by
  unfold State.scheduleEnd
  repeat' first
    | with_reducible assumption
    | with_reducible refine good_ite ?_ ?_
    | with_reducible refine good_foldl ?_ (fun _ _ _ => ?_)
    | with_reducible apply State.memRead_good
    | with_reducible apply State.postCard_good
    | with_reducible apply State.setBit_good
    | with_reducible apply State.discard_good
    | with_reducible apply State.raise_good
    | with_reducible refine good_of_pair (by assumption) ?_
    | split

end Sys2Proof.Machine
end

