-- ==== Sys2Proof/Laws/KeepCollective.lean ====
section
/-! SUPPORT. What every operation of Machine/Collective.lean keeps (Laws/Good.lean). -/

namespace Sys2Proof.Machine

variable {k : Key} {s t : State}

@[simp ↓] theorem State.setColl_good (h : Good k s) (a1 a2) : Good k (State.setColl s a1 a2) := by
  unfold State.setColl
  dsimp only
  simp +contextual (maxDischargeDepth := 100) only [h, ↓good_modFab, ↓State.setBit_good, ↓State.setFld_good]

@[simp ↓] theorem State.collEnd_good (h : Good k s) (a1 a2 a3) : Good k (State.collEnd s a1 a2 a3) := by
  unfold State.collEnd
  repeat' first
    | with_reducible assumption
    | with_reducible refine good_ite ?_ ?_
    | with_reducible apply State.globalEvent_good
    | with_reducible apply State.setColl_good
    | with_reducible apply State.postCard_good
    | with_reducible apply State.dropTagWait_good
    | with_reducible apply State.count_good
    | with_reducible apply State.intEvent_good

@[simp ↓] theorem State.collRelease_good (h : Good k s) (a1) : Good k (State.collRelease s a1) := by
  unfold State.collRelease
  repeat' first
    | with_reducible assumption
    | with_reducible apply State.collFree_good
    | split

@[simp ↓] theorem State.collFail_good (h : Good k s) (a1 a2 a3 a4) : Good k (State.collFail s a1 a2 a3 a4) := by
  unfold State.collFail
  repeat' first
    | with_reducible assumption
    | with_reducible apply State.raise_good
    | with_reducible apply State.collEnd_good
    | with_reducible apply State.collRelease_good

@[simp ↓] theorem State.engineLost_good (h : Good k s) (a1 a2 a3) : Good k (State.engineLost s a1 a2 a3) := by
  unfold State.engineLost
  repeat' first
    | with_reducible assumption
    | with_reducible refine good_ite ?_ ?_
    | with_reducible apply State.raise_good

@[simp ↓] theorem State.collLost_good (h : Good k s) (a1 a2 a3 a4) : Good k (State.collLost s a1 a2 a3 a4) := by
  unfold State.collLost
  repeat' first
    | with_reducible assumption
    | with_reducible refine good_ite ?_ ?_
    | with_reducible apply State.collRelease_good
    | with_reducible apply State.engineLost_good
    | with_reducible apply State.collEnd_good
    | with_reducible apply State.collFail_good

@[simp ↓] theorem State.collAsk_good (h : Good k s) (a1 a2) : Good k (State.collAsk s a1 a2) := by
  induction a2 generalizing s with
  | zero => exact h
  | succ f ih =>
    unfold State.collAsk
    repeat' first
      | with_reducible assumption
      | (with_reducible apply ih)
      | with_reducible refine good_ite ?_ ?_
      | with_reducible apply State.sendFrom_good
      | with_reducible apply State.setColl_good
      | with_reducible apply State.collFail_good
      | simp only
      | split

@[simp ↓] theorem State.collDone_good (h : Good k s) (a1) : Good k (State.collDone s a1) := by
  unfold State.collDone
  repeat' first
    | with_reducible assumption
    | with_reducible refine good_ite ?_ ?_
    | with_reducible apply State.collEnd_good
    | split

@[simp ↓] theorem State.collPump_good (h : Good k s) (a1 a2) : Good k (State.collPump s a1 a2) := by
  induction a2 generalizing s with
  | zero => unfold State.collPump; first | exact h | simp [h]
  | succ f ih =>
    unfold State.collPump
    repeat' first
      | with_reducible assumption
      | (with_reducible apply ih)
      | with_reducible refine good_ite ?_ ?_
      | with_reducible apply State.setColl_good
      | with_reducible apply State.globalEvent_good
      | with_reducible apply State.sendCtxCard_good
      | with_reducible apply State.collAsk_good
      | with_reducible apply State.sendWrite_good
      | with_reducible apply State.noteTagWait_good
      | with_reducible apply State.collFail_good
      | with_reducible apply State.account_good
      | with_reducible refine good_of_some_fst (by assumption) ?_
      | simp only
      | split

@[simp ↓] theorem State.collGo_good (h : Good k s) (a1) : Good k (State.collGo s a1) := by
  unfold State.collGo
  repeat' first
    | with_reducible assumption
    | with_reducible refine good_ite ?_ ?_
    | with_reducible apply State.collDone_good
    | with_reducible apply State.collPump_good
    | with_reducible apply State.collAsk_good

@[simp ↓] theorem State.collOutcome_good (h : Good k s) (a1 a2 a3) : Good k (State.collOutcome s a1 a2 a3) := by
  unfold State.collOutcome
  repeat' first
    | with_reducible assumption
    | with_reducible refine good_ite ?_ ?_
    | with_reducible apply State.collGo_good
    | with_reducible apply State.setColl_good
    | with_reducible apply State.collFail_good
    | simp only
    | split

@[simp ↓] theorem State.collReply_good (h : Good k s) (a1 a2 a3 a4) : Good k (State.collReply s a1 a2 a3 a4) := by
  unfold State.collReply
  repeat' first
    | with_reducible assumption
    | with_reducible refine good_ite ?_ ?_
    | with_reducible apply State.collGo_good
    | with_reducible apply State.setColl_good
    | with_reducible apply State.collFail_good
    | simp only
    | split

@[simp ↓] theorem State.collStart_good (h : Good k s) (a1 a2) : Good k (State.collStart s a1 a2) := by
  unfold State.collStart
  repeat' first
    | with_reducible assumption
    | with_reducible apply State.memRead_good
    | with_reducible apply State.setColl_good
    | with_reducible apply State.wr_good
    | with_reducible apply State.collFail_good
    | with_reducible apply State.memWrite_good
    | with_reducible apply State.collGo_good
    | with_reducible apply State.collLost_good
    | with_reducible apply State.account_good
    | simp only [↓good_upd]
    | split

@[simp ↓] theorem State.newRequest_good (h : Good k s) : Good k (State.newRequest s) := by
  unfold State.newRequest
  repeat' first
    | with_reducible assumption
    | with_reducible apply good_modFab

@[simp ↓] theorem State.collGroup_good (h : Good k s) (a1 a2 a3) : Good k (State.collGroup s a1 a2 a3) := by
  unfold State.collGroup
  repeat' first
    | with_reducible assumption
    | with_reducible apply State.memRead_good
    | with_reducible apply State.collStart_good
    | with_reducible apply State.newRequest_good
    | with_reducible apply State.collFail_good
    | with_reducible apply State.collLost_good
    | simp only [↓good_upd]
    | split

theorem execCollectiveRequest_keeps (h : Good k s) (a0 a1) : Keeps k (execCollectiveRequest a0 a1 s) := by
  unfold execCollectiveRequest
  repeat' first
    | with_reducible assumption
    | with_reducible refine keeps_ite ?_ ?_
    | with_reducible refine keeps_next.2 ?_
    | with_reducible apply State.memUpset_good
    | with_reducible apply State.takeCard_good
    | with_reducible apply State.collFail_good
    | with_reducible apply State.collGroup_good
    | simp only
    | split

@[simp ↓] theorem State.collForward_good (h : Good k s) (a1 a2 a3 a4 a5) : Good k (State.collForward s a1 a2 a3 a4 a5) := by
  unfold State.collForward
  repeat' first
    | with_reducible assumption
    | with_reducible refine good_ite ?_ ?_
    | with_reducible apply State.account_good
    | with_reducible apply State.memWrite_good
    | with_reducible apply State.collGo_good
    | with_reducible apply State.setColl_good
    | with_reducible apply State.collFail_good
    | simp only
    | split

@[simp ↓] theorem State.collLanded_good (h : Good k s) (a1 a2 a3 a4) : Good k (State.collLanded s a1 a2 a3 a4).1 := by
  unfold State.collLanded
  dsimp only
  simp +contextual (maxDischargeDepth := 100) only [h, ↓State.memRead_good, ↓State.globalEvent_good, ↓State.account_good, ↓State.setPool_good, ↓State.releaseSlots_good]

@[simp ↓] theorem State.collReduce_good (h : Good k s) (a1 a2 a3 a4 a5 a6) : Good k (State.collReduce s a1 a2 a3 a4 a5 a6) := by
  unfold State.collReduce
  repeat' first
    | with_reducible assumption
    | with_reducible apply State.memRead_good
    | with_reducible apply State.collForward_good
    | with_reducible apply State.collFail_good
    | with_reducible apply State.collLost_good
    | with_reducible apply State.account_good
    | simp only [↓good_upd]
    | split

theorem execChunkNotice_keeps (h : Good k s) (a0 a1) : Keeps k (execChunkNotice a0 a1 s) := by
  unfold execChunkNotice
  repeat' first
    | with_reducible assumption
    | with_reducible refine keeps_next.2 ?_
    | with_reducible apply State.collLanded_good
    | with_reducible apply State.memUpset_good
    | with_reducible apply State.takeCard_good
    | with_reducible apply State.collForward_good
    | with_reducible apply State.collReduce_good
    | with_reducible apply State.collFail_good
    | with_reducible apply State.collLost_good
    | simp only [↓good_upd]
    | split

theorem execCollPeerLost_keeps (h : Good k s) (a0) : Keeps k (execCollPeerLost a0 s) := by
  unfold execCollPeerLost
  repeat' first
    | with_reducible assumption
    | with_reducible refine keeps_ite ?_ ?_
    | with_reducible refine keeps_next.2 ?_
    | with_reducible apply State.collFail_good
    | with_reducible apply State.advanceTo_good
    | split

end Sys2Proof.Machine
end

