-- ==== Sys2Proof/Laws/KeepCheckpoint.lean ====
section
/-! SUPPORT. What every operation of Machine/Checkpoint.lean keeps (Laws/Good.lean). -/

namespace Sys2Proof.Machine

variable {k : Key} {s t : State}

@[simp ↓] theorem State.setCkpt_good (h : Good k s) (a1 a2) : Good k (State.setCkpt s a1 a2) := by
  unfold State.setCkpt
  dsimp only
  simp +contextual (maxDischargeDepth := 100) only [h, ↓good_mk, Good.pend, Good.fuses, Good.mem, Good.spad, Good.regs, and_self, ↓State.setBit_good]

@[simp ↓] theorem State.ckptCard_good (h : Good k s) (a1 a2 a3) : Good k (State.ckptCard s a1 a2 a3) := by
  unfold State.ckptCard
  dsimp only
  simp +contextual (maxDischargeDepth := 100) only [h, ↓State.postCard_good]

@[simp ↓] theorem State.ckptFail_good (h : Good k s) (a1 a2 a3) : Good k (State.ckptFail s a1 a2 a3) := by
  unfold State.ckptFail
  repeat' first
    | with_reducible assumption
    | with_reducible apply State.ckptCard_good
    | with_reducible apply State.raise_good
    | with_reducible apply State.dropTagWait_good
    | with_reducible apply State.count_good
    | with_reducible apply State.setCkpt_good
    | with_reducible apply State.intEvent_good

@[simp ↓] theorem State.ckptLost_good (h : Good k s) (a1 a2 a3) : Good k (State.ckptLost s a1 a2 a3) := by
  unfold State.ckptLost
  repeat' first
    | with_reducible assumption
    | with_reducible apply State.ckptFail_good
    | with_reducible apply State.engineLost_good

@[simp ↓] theorem State.ckptDone_good (h : Good k s) (a1 a2) : Good k (State.ckptDone s a1 a2) := by
  unfold State.ckptDone
  repeat' first
    | with_reducible assumption
    | with_reducible apply State.ckptCard_good
    | with_reducible apply State.dropTagWait_good
    | with_reducible apply State.count_good
    | with_reducible apply State.setCkpt_good
    | with_reducible apply State.intEvent_good

@[simp ↓] theorem State.shardOut_good (h : Good k s) (a1 a2 a3 a4) : Good k (State.shardOut s a1 a2 a3 a4).1 := by
  unfold State.shardOut
  repeat' first
    | with_reducible assumption
    | with_reducible apply State.ckptLost_good
    | split

@[simp ↓] theorem State.shardWrites_good (h : Good k s) (a1 a2 a3) : Good k (State.shardWrites s a1 a2 a3).1 := by
  unfold State.shardWrites
  repeat' first
    | with_reducible assumption
    | with_reducible apply State.memRead_good
    | with_reducible apply State.shardOut_good
    | with_reducible apply State.account_good

@[simp ↓] theorem State.hostPost_good (h : Good k s) (a1 a2 a3) : Good k (State.hostPost s a1 a2 a3) := by
  unfold State.hostPost
  repeat' first
    | with_reducible assumption
    | with_reducible apply State.globalEvent_good
    | with_reducible apply State.account_good
    | simp only [↓good_upd]
    | split

@[simp ↓] theorem State.ckptPump_good (h : Good k s) (a1 a2) : Good k (State.ckptPump s a1 a2) := by
  induction a2 generalizing s with
  | zero => unfold State.ckptPump; first | exact h | simp [h]
  | succ f ih =>
    unfold State.ckptPump
    repeat' first
      | with_reducible assumption
      | (with_reducible apply ih)
      | with_reducible refine good_ite ?_ ?_
      | with_reducible apply State.ckptDone_good
      | with_reducible apply State.setCkpt_good
      | with_reducible apply State.sendWrite_good
      | with_reducible apply State.noteTagWait_good
      | with_reducible apply State.ckptFail_good
      | with_reducible apply State.globalEvent_good
      | with_reducible apply State.account_good
      | with_reducible apply State.hostPost_good
      | with_reducible refine good_of_some_fst (by assumption) ?_
      | simp only
      | split

@[simp ↓] theorem State.ckptGo_good (h : Good k s) (a1) : Good k (State.ckptGo s a1) := by
  unfold State.ckptGo
  repeat' first
    | with_reducible assumption
    | with_reducible refine good_ite ?_ ?_
    | with_reducible apply State.ckptPump_good

@[simp ↓] theorem State.ckptOutcome_good (h : Good k s) (a1 a2 a3) : Good k (State.ckptOutcome s a1 a2 a3) := by
  unfold State.ckptOutcome
  repeat' first
    | with_reducible assumption
    | with_reducible apply State.ckptFail_good
    | with_reducible apply State.ckptGo_good
    | with_reducible apply State.setCkpt_good
    | split

theorem joinWrites_good {p : State × Option (List (Nat × List Byte))} (h : Good k p.1) (l) :
    Good k (joinWrites l p).1 := h

@[simp ↓] theorem State.addWrites_good {a : State × Option (List (Nat × List Byte))} (h : Good k a.1) (n r i) :
    Good k (State.addWrites n r a i).1 := by
  have h1 := State.shardWrites_good h n r i
  unfold State.addWrites
  revert h1
  generalize a.1.shardWrites n r i = p
  intro h1
  split
  · exact h
  · exact joinWrites_good h1 _

@[simp ↓] theorem State.electEnd_good (h : Good k s) (a1 a2 a3 a4) : Good k (State.electEnd s a1 a2 a3 a4) := by
  unfold State.electEnd
  repeat' first
    | with_reducible assumption
    | with_reducible apply State.ckptFail_good
    | with_reducible apply State.ckptGo_good
    | with_reducible apply State.setCkpt_good
    | simp only
    | split

@[simp ↓] theorem State.elect_good (h : Good k s) (a1 a2) : Good k (State.elect s a1 a2) := by
  unfold State.elect
  repeat' first
    | with_reducible assumption
    | with_reducible refine good_ite ?_ ?_
    | with_reducible refine good_foldl ?_ (fun _ _ _ => ?_)
    | with_reducible refine good_foldl_fst ?_ (fun _ _ _ => ?_)
    | with_reducible apply State.raise_good
    | with_reducible apply State.addWrites_good
    | with_reducible apply State.electEnd_good

@[simp ↓] theorem State.hashShard_good (h : Good k s) (a1 a2 a3 a4) : Good k (State.hashShard s a1 a2 a3 a4).1 := by
  unfold State.hashShard
  repeat' first
    | with_reducible assumption
    | with_reducible refine good_foldl ?_ (fun _ _ _ => ?_)
    | with_reducible apply State.sendCtxCard_good
    | with_reducible apply State.ckptLost_good
    | split

@[simp ↓] theorem State.readShard_good (h : Good k s) (a1 a2 a3) : Good k (State.readShard s a1 a2 a3).1 := by
  unfold State.readShard
  repeat' first
    | with_reducible assumption
    | with_reducible apply State.memRead_good
    | with_reducible apply State.hashShard_good
    | with_reducible apply State.globalEvent_good
    | with_reducible apply State.account_good

@[simp ↓] theorem State.readNext_good {a : State × Option CkptRun} (h : Good k a.1) (n i) :
    Good k (State.readNext n a i).1 := by
  unfold State.readNext
  split
  · exact h
  · exact State.readShard_good h _ _ _

@[simp ↓] theorem State.regionRead_good (h : Good k s) (a1 a2 a3) : Good k (State.regionRead s a1 a2 a3) := by
  unfold State.regionRead
  repeat' first
    | with_reducible assumption
    | with_reducible refine good_ite ?_ ?_
    | with_reducible apply State.ckptFail_good
    | with_reducible apply State.postCard_good
    | with_reducible apply State.setCkpt_good
    | with_reducible apply State.elect_good
    | simp only
    | split

@[simp ↓] theorem State.readRegion_good (h : Good k s) (a1 a2) : Good k (State.readRegion s a1 a2) := by
  unfold State.readRegion
  repeat' first
    | with_reducible assumption
    | with_reducible refine good_foldl_fst ?_ (fun _ _ _ => ?_)
    | with_reducible apply State.readNext_good
    | with_reducible apply State.regionRead_good

@[simp ↓] theorem State.ckptGroup_good (h : Good k s) (a1 a2) : Good k (State.ckptGroup s a1 a2) := by
  unfold State.ckptGroup
  repeat' first
    | with_reducible assumption
    | with_reducible refine good_ite ?_ ?_
    | with_reducible apply State.memRead_good
    | with_reducible apply State.readRegion_good
    | with_reducible apply State.ckptLost_good
    | with_reducible apply State.ckptFail_good
    | split

theorem execCheckpointRequest_keeps (h : Good k s) (a0 a1) : Keeps k (execCheckpointRequest a0 a1 s) := by
  unfold execCheckpointRequest
  repeat' first
    | with_reducible assumption
    | with_reducible refine keeps_next.2 ?_
    | with_reducible refine keeps_ite ?_ ?_
    | with_reducible apply State.memRead_good
    | with_reducible apply State.ckptLost_good
    | with_reducible apply State.ckptFail_good
    | with_reducible apply State.wr_good
    | with_reducible apply State.ckptGroup_good
    | with_reducible apply State.memUpset_good
    | with_reducible apply State.takeCard_good
    | with_reducible apply State.newRequest_good
    | split

theorem execDigestNotice_keeps (h : Good k s) (a0) : Keeps k (execDigestNotice a0 s) := by
  unfold execDigestNotice
  repeat' first
    | with_reducible assumption
    | with_reducible refine good_ite ?_ ?_
    | with_reducible refine keeps_ite ?_ ?_
    | with_reducible refine keeps_next.2 ?_
    | with_reducible apply State.takeCard_good
    | with_reducible apply State.count_good
    | with_reducible apply State.setCkpt_good
    | with_reducible apply State.elect_good
    | simp only
    | split

theorem execNoticeWaitEnd_keeps (h : Good k s) (a0) : Keeps k (execNoticeWaitEnd a0 s) := by
  unfold execNoticeWaitEnd
  repeat' first
    | with_reducible assumption
    | with_reducible refine keeps_ite ?_ ?_
    | with_reducible refine keeps_next.2 ?_
    | with_reducible apply State.elect_good
    | with_reducible apply State.advanceTo_good
    | split

end Sys2Proof.Machine
end

