-- ==== Sys2Proof/Laws/KeepHostBase.lean ====
section
/-! SUPPORT. What every operation of Machine/HostBase.lean keeps (Laws/Good.lean). -/

namespace Sys2Proof.Machine

variable {k : Key} {s t : State}

@[simp ↓] theorem State.hostRaise_good (h : Good k s) (a1 a2 a3 a4 a5) : Good k (State.hostRaise s a1 a2 a3 a4 a5) := by
  unfold State.hostRaise
  repeat' first
    | with_reducible assumption
    | with_reducible apply State.raise_good

@[simp ↓] theorem State.showHostTags_good (h : Good k s)  : Good k (State.showHostTags s) := by
  unfold State.showHostTags
  dsimp only
  simp +contextual (maxDischargeDepth := 100) only [h, ↓State.setFld_good]

@[simp ↓] theorem State.hostRead_good (h : Good k s) (a1 a2 a3 a4 a5) : GoodIn k (fun x => x) (State.hostRead s a1 a2 a3 a4 a5) := by
  unfold State.hostRead
  repeat' first
    | with_reducible assumption
    | with_reducible refine goodIn_map_of (fun _ _ => ?_)
    | with_reducible apply State.showHostTags_good
    | with_reducible apply good_modHost

@[simp ↓] theorem State.closeHostTag_good (h : Good k s) (a1) : Good k (State.closeHostTag s a1) := by
  unfold State.closeHostTag
  repeat' first
    | with_reducible assumption
    | with_reducible apply State.showHostTags_good
    | with_reducible apply good_modHost

@[simp ↓] theorem State.quarantineTag_good (h : Good k s) (a1) : Good k (State.quarantineTag s a1) := by
  unfold State.quarantineTag
  repeat' first
    | with_reducible assumption
    | with_reducible apply State.showHostTags_good
    | with_reducible apply good_modHost
    | split

@[simp ↓] theorem State.retireTags_good (h : Good k s) (a1) : Good k (State.retireTags s a1) := by
  unfold State.retireTags
  repeat' first
    | with_reducible assumption
    | with_reducible apply State.showHostTags_good
    | with_reducible apply good_modHost

@[simp ↓] theorem State.setRing_good (h : Good k s) (a1 a2) : Good k (State.setRing s a1 a2) := by
  unfold State.setRing
  repeat' first
    | with_reducible assumption
    | with_reducible apply good_modHost

@[simp ↓] theorem State.modRing_good (h : Good k s) (a1 a2) : Good k (State.modRing s a1 a2) := by
  unfold State.modRing
  repeat' first
    | with_reducible assumption
    | with_reducible apply State.setRing_good

@[simp ↓] theorem State.putLine_good (h : Good k s) (a1 a2) : Good k (State.putLine s a1 a2) := by
  unfold State.putLine
  repeat' first
    | with_reducible assumption
    | with_reducible apply good_modHost

@[simp ↓] theorem State.dropLine_good (h : Good k s) (a1) : Good k (State.dropLine s a1) := by
  unfold State.dropLine
  repeat' first
    | with_reducible assumption
    | with_reducible apply good_modHost

@[simp ↓] theorem State.evict_good (h : Good k s) (a1) : Good k (State.evict s a1) := by
  unfold State.evict
  repeat' first
    | with_reducible assumption
    | with_reducible apply good_modHost
    | with_reducible apply State.dropLine_good
    | split

@[simp ↓] theorem State.evictLeaving_good (h : Good k s) : Good k (State.evictLeaving s) := by
  unfold State.evictLeaving
  repeat' first
    | with_reducible assumption
    | with_reducible refine good_foldl ?_ (fun _ _ _ => ?_)
    | with_reducible apply State.evict_good
    | with_reducible apply good_modHost

@[simp ↓] theorem State.makeWay_good (h : Good k s) (a1) : GoodIn k (fun x => x) (State.makeWay s a1) := by
  unfold State.makeWay
  repeat' first
    | with_reducible assumption
    | with_reducible refine goodIn_ite ?_ ?_
    | with_reducible refine goodIn_none
    | with_reducible refine goodIn_some.2 ?_
    | with_reducible apply State.evict_good
    | split

@[simp ↓] theorem State.cxlAsk_good (h : Good k s) (a1) : Good k (State.cxlAsk s a1) := by
  unfold State.cxlAsk
  repeat' first
    | with_reducible assumption
    | with_reducible refine good_ite ?_ ?_
    | with_reducible apply good_modHost
    | with_reducible apply State.makeWay_good
    | with_reducible refine good_of_some (by assumption) ?_
    | split

@[simp ↓] theorem State.cxlRetry_good (h : Good k s)  : Good k (State.cxlRetry s) := by
  unfold State.cxlRetry
  dsimp only
  simp +contextual (maxDischargeDepth := 100) only [h, ↓good_foldl, implies_true, ↓State.cxlAsk_good, ↓good_modHost]

end Sys2Proof.Machine
end

