-- ==== Sys2Proof/Laws/KeepTransfer.lean ====
section
/-! SUPPORT. What every operation of Machine/Transfer.lean keeps (Laws/Good.lean). -/

namespace Sys2Proof.Machine

variable {k : Key} {s t : State}

@[simp ↓] theorem State.setSeq_good (h : Good k s) (a1 a2) : Good k (State.setSeq s a1 a2) := by
  unfold State.setSeq
  repeat' first
    | with_reducible assumption
    | simp only [↓good_upd]

@[simp ↓] theorem State.modSeq_good (h : Good k s) (a1 a2) : Good k (State.modSeq s a1 a2) := by
  unfold State.modSeq
  repeat' first
    | with_reducible assumption
    | with_reducible apply State.setSeq_good

@[simp ↓] theorem State.setSeqState_good (h : Good k s) (a1 a2) : Good k (State.setSeqState s a1 a2) := by
  unfold State.setSeqState
  repeat' first
    | with_reducible assumption
    | with_reducible apply State.setFld_good

@[simp ↓] theorem State.setSeqPc_good (h : Good k s) (a1 a2) : Good k (State.setSeqPc s a1 a2) := by
  unfold State.setSeqPc
  repeat' first
    | with_reducible assumption
    | with_reducible apply State.setFld_good

@[simp ↓] theorem State.setG_good (h : Good k s) (a1 a2 a3) : Good k (State.setG s a1 a2 a3) := by
  unfold State.setG
  repeat' first
    | with_reducible assumption
    | with_reducible refine good_ite ?_ ?_
    | with_reducible apply State.wr_good

@[simp ↓] theorem State.stageFault_good (h : Good k s) (a1 a2) : Good k (State.stageFault s a1 a2) := by
  unfold State.stageFault
  dsimp only
  simp +contextual (maxDischargeDepth := 100) only [h, ↓State.wr_good, ↓State.intEvent_good, ↓State.setSeqState_good, ↓State.raise_good]

@[simp ↓] theorem State.setSlot_good (h : Good k s) (a1 a2 a3) : Good k (State.setSlot s a1 a2 a3) := by
  unfold State.setSlot
  repeat' first
    | with_reducible assumption
    | with_reducible apply State.modSeq_good

@[simp ↓] theorem State.setSlotState_good (h : Good k s) (a1 a2 a3) : Good k (State.setSlotState s a1 a2 a3) := by
  unfold State.setSlotState
  repeat' first
    | with_reducible assumption
    | with_reducible apply State.modSeq_good
    | with_reducible apply State.setFld_good

@[simp ↓] theorem State.sendXfer_good (h : Good k s) (a1 a2 a3) : Good k (State.sendXfer s a1 a2 a3) := by
  unfold State.sendXfer
  dsimp only
  simp +contextual (maxDischargeDepth := 100) only [h, ↓State.sendPkt_good]

@[simp ↓] theorem State.seqFinish_good (h : Good k s) (a1 a2 a3) : Good k (State.seqFinish s a1 a2 a3) := by
  unfold State.seqFinish
  dsimp only
  simp +contextual (maxDischargeDepth := 100) only [h, ↓good_ite, ↓State.setG_good, ↓State.setSeqPc_good, ↓State.setSeqState_good]

@[simp ↓] theorem State.xdoneEnd_good (h : Good k s) (a1 a2 a3) : Good k (State.xdoneEnd s a1 a2 a3) := by
  unfold State.xdoneEnd
  dsimp only
  simp +contextual (maxDischargeDepth := 100) only [h, ↓good_ite, ↓State.modSeq_good, ↓State.seqFinish_good]

@[simp ↓] theorem State.settleWaits_good (h : Good k s) (a1) : Good k (State.settleWaits s a1) := by
  unfold State.settleWaits
  repeat' first
    | with_reducible assumption
    | with_reducible refine good_ite ?_ ?_
    | with_reducible apply State.dropTagWait_good

@[simp ↓] theorem State.failSlot_good (h : Good k s) (a1 a2) : Good k (State.failSlot s a1 a2) := by
  unfold State.failSlot
  repeat' first
    | with_reducible assumption
    | with_reducible apply State.settleWaits_good
    | with_reducible apply State.setSlotState_good
    | with_reducible apply State.setSlot_good
    | with_reducible apply State.xdoneEnd_good

@[simp ↓] theorem State.failTransfer_good (h : Good k s) (a1 a2 a3) : Good k (State.failTransfer s a1 a2 a3) := by
  unfold State.failTransfer
  dsimp only
  simp +contextual (maxDischargeDepth := 100) only [h, ↓State.raise_good, ↓State.failSlot_good]

@[simp ↓] theorem State.slotWrite_good (h : Good k s) (a1 a2 a3 a4 a5) : GoodIn k (fun x => x) (State.slotWrite s a1 a2 a3 a4 a5) := by
  unfold State.slotWrite
  repeat' first
    | with_reducible assumption
    | with_reducible refine goodIn_none
    | with_reducible refine goodIn_some.2 ?_
    | with_reducible apply State.sendWrite_good
    | with_reducible apply State.account_good
    | with_reducible apply State.setSlot_good
    | with_reducible apply State.failTransfer_good
    | with_reducible refine good_of_some_fst (by assumption) ?_
    | simp only
    | split

@[simp ↓] theorem State.pump_good (h : Good k s) (a1 a2 a3) : Good k (State.pump s a1 a2 a3) := by
  induction a3 generalizing s with
  | zero => unfold State.pump; first | exact h | simp [h]
  | succ f ih =>
    unfold State.pump
    repeat' first
      | with_reducible assumption
      | (with_reducible apply ih)
      | with_reducible refine good_ite ?_ ?_
      | with_reducible apply State.memRead_good
      | with_reducible apply State.raise_good
      | with_reducible apply State.failSlot_good
      | with_reducible apply State.slotWrite_good
      | with_reducible apply State.noteTagWait_good
      | with_reducible apply State.account_good
      | with_reducible apply State.setSlot_good
      | with_reducible refine good_of_some (by assumption) ?_
      | simp only
      | split

@[simp ↓] theorem State.xdoneTry_good (h : Good k s) (a1 a2) : Good k (State.xdoneTry s a1 a2) := by
  unfold State.xdoneTry
  repeat' first
    | with_reducible assumption
    | with_reducible refine good_ite ?_ ?_
    | with_reducible apply State.recordSend_good
    | with_reducible apply State.cardEvent_good
    | with_reducible apply State.xdoneEnd_good
    | with_reducible apply State.setSlotState_good
    | with_reducible apply State.globalEvent_good
    | with_reducible apply State.count_good
    | with_reducible apply State.sendXfer_good
    | with_reducible refine good_of_some (by assumption) ?_
    | simp only
    | split

@[simp ↓] theorem State.closeTry_good (h : Good k s) (a1 a2) : Good k (State.closeTry s a1 a2) := by
  unfold State.closeTry
  dsimp only
  simp +contextual (maxDischargeDepth := 100) only [h, ↓good_ite, ↓State.sendXfer_good, ↓State.setSlotState_good, ↓State.setSlot_good]

@[simp ↓] theorem State.slotAcked_good (h : Good k s) (a1 a2) : Good k (State.slotAcked s a1 a2) := by
  unfold State.slotAcked
  dsimp only
  simp +contextual (maxDischargeDepth := 100) only [h, ↓good_ite, ↓State.setSlot_good, ↓State.pump_good, ↓State.setSlotState_good, ↓State.xdoneTry_good, ↓State.closeTry_good]

@[simp ↓] theorem State.transferOutcome_good (h : Good k s) (a1 a2 a3) : Good k (State.transferOutcome s a1 a2 a3) := by
  unfold State.transferOutcome
  repeat' first
    | with_reducible assumption
    | with_reducible apply State.slotAcked_good
    | with_reducible apply State.failTransfer_good
    | split

@[simp ↓] theorem State.retireSlots_good (h : Good k s)  : Good k (State.retireSlots s) := by
  unfold State.retireSlots
  dsimp only
  simp +contextual (maxDischargeDepth := 100) only [h, ↓good_ite, ↓good_foldl, implies_true, ↓State.setSlotState_good, ↓State.setSlot_good]

@[simp ↓] theorem State.creditReplySlot_good (h : Good k s) (a1 a2 a3 a4) : Good k (State.creditReplySlot s a1 a2 a3 a4) := by
  unfold State.creditReplySlot
  dsimp only
  simp +contextual (maxDischargeDepth := 100) only [h, ↓good_ite, ↓State.setFld_good, ↓State.closeTry_good, ↓State.setSlotState_good, ↓State.setSlot_good, ↓State.globalEvent_good, ↓State.count_good]

end Sys2Proof.Machine
end

