-- ==== Sys2Proof/Laws/KeepFabricCmds.lean ====
section
/-! SUPPORT. What every operation of Machine/FabricCmds.lean keeps (Laws/Good.lean). -/

namespace Sys2Proof.Machine

variable {k : Key} {s t : State}

theorem execCreditReq_keeps (h : Good k s)  : Keeps k (execCreditReq s) := by
  unfold execCreditReq
  repeat' first
    | with_reducible assumption
    | with_reducible refine keeps_next.2 ?_
    | with_reducible apply State.takeIn_good
    | with_reducible apply State.creditRequest_good
    | with_reducible refine good_of_some_third (by assumption) ?_
    | simp only
    | split

theorem execCreditGrant_keeps (h : Good k s) (a0) : Keeps k (execCreditGrant a0 s) := by
  unfold execCreditGrant
  repeat' first
    | with_reducible assumption
    | with_reducible refine keeps_next.2 ?_
    | with_reducible apply State.creditGrant_good

theorem execCreditReply_keeps (h : Good k s)  : Keeps k (execCreditReply s) := by
  unfold execCreditReply
  repeat' first
    | with_reducible assumption
    | with_reducible refine keeps_next.2 ?_
    | with_reducible apply State.takeIn_good
    | with_reducible apply State.collReply_good
    | with_reducible apply State.creditReplySlot_good
    | with_reducible refine good_of_some_third (by assumption) ?_
    | split

theorem execPoolEnable_keeps (h : Good k s) (a0) : Keeps k (execPoolEnable a0 s) := by
  unfold execPoolEnable
  repeat' first
    | with_reducible assumption
    | with_reducible refine keeps_next.2 ?_
    | with_reducible apply State.poolOn_good

theorem execPoolDisable_keeps (h : Good k s) (a0) : Keeps k (execPoolDisable a0 s) := by
  unfold execPoolDisable
  repeat' first
    | with_reducible assumption
    | with_reducible refine good_ite ?_ ?_
    | with_reducible refine keeps_next.2 ?_
    | with_reducible apply State.poolOff_good

@[simp ↓] theorem State.landWrite_good (h : Good k s) (a1 a2) : Good k (State.landWrite s a1 a2).1 := by
  unfold State.landWrite
  repeat' first
    | with_reducible assumption
    | with_reducible apply State.signalReady_good
    | with_reducible apply State.raise_good
    | with_reducible apply State.setGrant_good
    | with_reducible apply State.memWrite_good
    | with_reducible apply State.count_good
    | with_reducible apply State.account_good
    | simp only [↓good_upd]
    | split

@[simp ↓] theorem State.wackOf_good (h : Good k s) (a1 a2) : Good k (State.wackOf s a1 a2) := by
  unfold State.wackOf
  repeat' first
    | with_reducible assumption
    | with_reducible apply State.sendPkt_good

@[simp ↓] theorem State.pumpFor_good (h : Good k s) (a1) : Good k (State.pumpFor s a1) := by
  unfold State.pumpFor
  repeat' first
    | with_reducible assumption
    | with_reducible refine good_ite ?_ ?_
    | with_reducible refine good_foldl ?_ (fun _ _ _ => ?_)
    | with_reducible apply State.pump_good
    | with_reducible apply State.ckptGo_good
    | with_reducible apply State.collGo_good

@[simp ↓] theorem State.pumpAll_good (h : Good k s) : Good k (State.pumpAll s) := by
  unfold State.pumpAll
  repeat' first
    | with_reducible assumption
    | with_reducible refine good_foldl ?_ (fun _ _ _ => ?_)
    | with_reducible apply State.pumpFor_good

@[simp ↓] theorem State.reply_good (h : Good k s) (a1 a2 a3 a4) : Good k (State.reply s a1 a2 a3 a4) := by
  unfold State.reply
  repeat' first
    | with_reducible assumption
    | with_reducible apply good_modFab

@[simp ↓] theorem State.tagOutcome_good (h : Good k s) (a1 a2 a3) : Good k (State.tagOutcome s a1 a2 a3) := by
  unfold State.tagOutcome
  repeat' first
    | with_reducible assumption
    | with_reducible refine good_ite ?_ ?_
    | with_reducible apply State.transferOutcome_good
    | with_reducible apply State.collOutcome_good
    | with_reducible apply State.ckptOutcome_good
    | with_reducible apply State.reply_good

theorem execWack_keeps (h : Good k s)  : Keeps k (execWack s) := by
  unfold execWack
  repeat' first
    | with_reducible assumption
    | with_reducible refine keeps_next.2 ?_
    | with_reducible apply State.takeIn_good
    | with_reducible apply State.closeTag_good
    | with_reducible apply State.pumpAll_good
    | with_reducible apply State.tagOutcome_good
    | with_reducible refine good_of_pair (by assumption) ?_
    | with_reducible refine good_of_some_third (by assumption) ?_
    | split

theorem execRcpl_keeps (h : Good k s)  : Keeps k (execRcpl s) := by
  unfold execRcpl
  repeat' first
    | with_reducible assumption
    | with_reducible refine keeps_next.2 ?_
    | with_reducible apply State.takeIn_good
    | with_reducible apply State.closeTag_good
    | with_reducible apply State.pumpAll_good
    | with_reducible apply State.reply_good
    | with_reducible refine good_of_pair (by assumption) ?_
    | with_reducible refine good_of_some_third (by assumption) ?_
    | split

theorem execReqTimeout_keeps (h : Good k s) (a0) : Keeps k (execReqTimeout a0 s) := by
  unfold execReqTimeout
  repeat' first
    | with_reducible assumption
    | with_reducible refine keeps_ite ?_ ?_
    | with_reducible refine keeps_next.2 ?_
    | with_reducible apply State.advanceTo_good
    | with_reducible apply State.showTags_good
    | with_reducible apply good_modFab
    | with_reducible apply State.globalEvent_good
    | with_reducible apply State.count_good
    | with_reducible apply State.tagOutcome_good

theorem execTagExhaust_keeps (h : Good k s) (a0) : Keeps k (execTagExhaust a0 s) := by
  unfold execTagExhaust
  repeat' first
    | with_reducible assumption
    | with_reducible refine keeps_ite ?_ ?_
    | with_reducible refine keeps_next.2 ?_
    | with_reducible apply State.advanceTo_good
    | with_reducible apply good_modFab
    | with_reducible apply State.raise_good

@[simp ↓] theorem State.fence_good (h : Good k s) (a1 a2) : Good k (State.fence s a1 a2) := by
  unfold State.fence
  repeat' first
    | with_reducible assumption
    | with_reducible apply good_modFab

@[simp ↓] theorem State.fenceFrom_good (h : Good k s) (h2 : Good k t)  : Good k (State.fenceFrom s t) := by
  unfold State.fenceFrom
  repeat' first
    | with_reducible assumption
    | with_reducible refine good_ite ?_ ?_
    | with_reducible refine good_foldl ?_ (fun _ _ _ => ?_)
    | with_reducible apply State.fence_good

theorem execFence_keeps (h : Good k s) (a0) : Keeps k (execFence a0 s) := by
  unfold execFence
  repeat' first
    | with_reducible assumption
    | with_reducible refine good_ite ?_ ?_
    | with_reducible refine keeps_next.2 ?_
    | with_reducible apply State.advanceTo_good
    | with_reducible apply good_modFab
    | simp only
    | split

@[simp ↓] theorem State.sendRollcall_good (h : Good k s) (a1) : Good k (State.sendRollcall s a1) := by
  unfold State.sendRollcall
  dsimp only
  simp +contextual (maxDischargeDepth := 100) only [h, ↓good_ite, ↓State.modPort_good]

theorem execRollcallSend_keeps (h : Good k s) (a0) : Keeps k (execRollcallSend a0 s) := by
  unfold execRollcallSend
  repeat' first
    | with_reducible assumption
    | with_reducible refine keeps_next.2 ?_
    | with_reducible apply State.sendRollcall_good

theorem execRollcall_keeps (h : Good k s)  : Keeps k (execRollcall s) := by
  unfold execRollcall
  repeat' first
    | with_reducible assumption
    | with_reducible refine good_ite ?_ ?_
    | with_reducible refine keeps_ite ?_ ?_
    | with_reducible refine keeps_next.2 ?_
    | with_reducible apply State.takeIn_good
    | with_reducible apply State.count_good
    | with_reducible apply good_modFab
    | with_reducible apply State.intEvent_good
    | with_reducible apply State.raise_good
    | with_reducible apply State.fenceFrom_good
    | with_reducible refine good_of_some_third (by assumption) ?_
    | simp only
    | split

@[simp ↓] theorem State.setRollcallDone_good (h : Good k s)  : Good k (State.setRollcallDone s) := by
  unfold State.setRollcallDone
  dsimp only
  simp +contextual (maxDischargeDepth := 100) only [h, ↓good_ite, ↓State.setBit_good, ↓State.setPhase_good]

theorem execRollcallDone_keeps (h : Good k s)  : Keeps k (execRollcallDone s) := by
  unfold execRollcallDone
  repeat' first
    | with_reducible assumption
    | with_reducible refine keeps_next.2 ?_
    | with_reducible apply State.setRollcallDone_good

@[simp ↓] theorem State.cfgErr_good (h : Good k s)  : Good k (State.cfgErr s) := by
  unfold State.cfgErr
  repeat' first
    | with_reducible assumption
    | with_reducible apply State.intEvent_good

@[simp ↓] theorem State.setChipId_good (h : Good k s) (a1) : Good k (State.setChipId s a1) := by
  unfold State.setChipId
  repeat' first
    | with_reducible assumption
    | with_reducible refine good_ite ?_ ?_
    | with_reducible refine good_foldl ?_ (fun _ _ _ => ?_)
    | with_reducible apply good_modFab
    | with_reducible apply State.wr_good
    | with_reducible apply State.cfgErr_good
    | with_reducible apply State.sendRollcall_good
    | with_reducible apply State.raise_good
    | with_reducible apply State.fenceFrom_good

theorem execChipId_keeps (h : Good k s) (a0) : Keeps k (execChipId a0 s) := by
  unfold execChipId
  repeat' first
    | with_reducible assumption
    | with_reducible refine keeps_next.2 ?_
    | with_reducible apply State.setChipId_good

@[simp ↓] theorem State.tblWrite_good (h : Good k s) (a1) : Good k (State.tblWrite s a1) := by
  unfold State.tblWrite
  dsimp only
  simp +contextual (maxDischargeDepth := 100) only [h, ↓good_ite, ↓State.cfgErr_good, ↓good_modFab]

theorem execTblData_keeps (h : Good k s) (a0) : Keeps k (execTblData a0 s) := by
  unfold execTblData
  repeat' first
    | with_reducible assumption
    | with_reducible refine keeps_next.2 ?_
    | with_reducible apply State.tblWrite_good

@[simp ↓] theorem State.startCopy_good (h : Good k s) : Good k (State.startCopy s) := by
  unfold State.startCopy
  repeat' first
    | with_reducible assumption
    | with_reducible refine good_ite ?_ ?_
    | with_reducible apply State.setBit_good
    | with_reducible apply good_modFab
    | with_reducible apply State.cfgErr_good

theorem execCopy_keeps (h : Good k s)  : Keeps k (execCopy s) := by
  unfold execCopy
  repeat' first
    | with_reducible assumption
    | with_reducible refine keeps_next.2 ?_
    | with_reducible apply State.startCopy_good

theorem execCopyEnd_keeps (h : Good k s) : Keeps k (execCopyEnd s) := by
  unfold execCopyEnd
  repeat' first
    | with_reducible assumption
    | with_reducible refine keeps_next.2 ?_
    | with_reducible refine keeps_ite ?_ ?_
    | with_reducible apply State.setBit_good
    | with_reducible apply good_modFab
    | with_reducible apply State.localTo_good

@[simp ↓] theorem State.armSwap_good (h : Good k s)  : Good k (State.armSwap s) := by
  unfold State.armSwap
  repeat' first
    | with_reducible assumption
    | with_reducible refine good_ite ?_ ?_
    | with_reducible apply State.cfgErr_good
    | with_reducible apply State.setBit_good

theorem execArm_keeps (h : Good k s)  : Keeps k (execArm s) := by
  unfold execArm
  repeat' first
    | with_reducible assumption
    | with_reducible refine keeps_next.2 ?_
    | with_reducible apply State.armSwap_good

@[simp ↓] theorem State.swapBanks_good (h : Good k s)  : Good k (State.swapBanks s) := by
  unfold State.swapBanks
  dsimp only
  simp +contextual (maxDischargeDepth := 100) only [h, ↓good_ite, ↓good_foldl, ↓good_mk, Good.pend, Good.fuses, Good.mem, Good.spad, Good.regs, and_self, implies_true, ↓State.intEvent_good, ↓State.setBit_good, ↓State.setFld_good, ↓State.fence_good]

@[simp ↓] theorem State.switchKeys_good (h : Good k s)  : Good k (State.switchKeys s) := by
  unfold State.switchKeys
  dsimp only
  simp +contextual (maxDischargeDepth := 100) only [h, ↓good_ite, ↓good_foldl, implies_true, ↓State.setFld_good, ↓State.setBit_good]

theorem execEpochTick_keeps (h : Good k s)  : Keeps k (execEpochTick s) := by
  unfold execEpochTick
  repeat' first
    | with_reducible assumption
    | with_reducible refine good_ite ?_ ?_
    | with_reducible refine keeps_next.2 ?_
    | with_reducible refine good_foldl ?_ (fun _ _ _ => ?_)
    | with_reducible apply State.advanceTo_good
    | with_reducible apply good_modFab
    | with_reducible apply State.swapBanks_good
    | with_reducible apply State.switchKeys_good
    | with_reducible apply State.showTags_good
    | with_reducible apply State.retireTags_good
    | with_reducible apply State.retireSlots_good
    | with_reducible apply State.modSeq_good
    | with_reducible apply State.pumpAll_good

@[simp ↓] theorem State.modSync_good (h : Good k s) (a1) : Good k (State.modSync s a1) := by
  unfold State.modSync
  repeat' first
    | with_reducible assumption
    | with_reducible apply good_modFab

theorem execTsyncSend_keeps (h : Good k s)  : Keeps k (execTsyncSend s) := by
  unfold execTsyncSend
  repeat' first
    | with_reducible assumption
    | with_reducible refine keeps_ite ?_ ?_
    | with_reducible refine keeps_next.2 ?_
    | with_reducible apply State.advanceTo_good
    | with_reducible apply State.modSync_good
    | with_reducible apply State.sendPkt_good
    | split

theorem execTsyncReq_keeps (h : Good k s)  : Keeps k (execTsyncReq s) := by
  unfold execTsyncReq
  repeat' first
    | with_reducible assumption
    | with_reducible refine keeps_next.2 ?_
    | with_reducible apply State.takeIn_good
    | with_reducible apply State.sendPkt_good
    | with_reducible refine good_of_some_third (by assumption) ?_
    | split

@[simp ↓] theorem State.shown_good (h : Good k s) (a1) : Good k (State.shown s a1).1 := by
  unfold State.shown
  dsimp only
  simp +contextual (maxDischargeDepth := 100) only [h, ↓good_mk, Good.pend, Good.fuses, Good.mem, Good.spad, Good.regs, and_self]

@[simp ↓] theorem State.showRate_good (h : Good k s) : Good k (State.showRate s) := by
  unfold State.showRate
  dsimp only
  simp +contextual (maxDischargeDepth := 100) only [h, ↓State.shown_good, ↓State.wr_good]

@[simp ↓] theorem State.timeExchange_good (h : Good k s) (a1) : Good k (State.timeExchange s a1) := by
  unfold State.timeExchange
  dsimp only
  simp +contextual (maxDischargeDepth := 100) only [h, ↓good_ite, ↓State.modSync_good, ↓State.setBit_good, ↓State.shown_good, ↓State.showRate_good, ↓State.wr_good, ↓good_modFab]

theorem execTsyncRsp_keeps (h : Good k s)  : Keeps k (execTsyncRsp s) := by
  unfold execTsyncRsp
  repeat' first
    | with_reducible assumption
    | with_reducible refine keeps_ite ?_ ?_
    | with_reducible refine keeps_next.2 ?_
    | with_reducible apply State.takeIn_good
    | with_reducible apply State.timeExchange_good
    | with_reducible refine good_of_some_third (by assumption) ?_
    | simp only
    | split

theorem execTimeHoldover_keeps (h : Good k s)  : Keeps k (execTimeHoldover s) := by
  unfold execTimeHoldover
  repeat' first
    | with_reducible assumption
    | with_reducible apply State.showRate_good
    | with_reducible refine keeps_ite ?_ ?_
    | with_reducible refine keeps_next.2 ?_
    | with_reducible apply State.modSync_good
    | with_reducible apply State.setBit_good
    | with_reducible apply State.advise_good
    | with_reducible apply State.intEvent_good
    | with_reducible apply State.raise_good

theorem execTimeLost_keeps (h : Good k s)  : Keeps k (execTimeLost s) := by
  unfold execTimeLost
  repeat' first
    | with_reducible assumption
    | with_reducible refine keeps_ite ?_ ?_
    | with_reducible refine keeps_next.2 ?_
    | with_reducible apply State.advanceTo_good
    | with_reducible apply State.modSync_good
    | with_reducible apply State.setBit_good
    | with_reducible apply State.intEvent_good
    | with_reducible apply State.raise_good

end Sys2Proof.Machine
end

