-- ==== Sys2Proof/Laws/KeepWaits.lean ====
section
/-! SUPPORT. What every operation of Machine/Waits.lean keeps (Laws/Good.lean). -/

namespace Sys2Proof.Machine

variable {k : Key} {s t : State}

@[simp ↓] theorem State.coreCyclesTo_good (h : Good k s) (a1 a2 a3 a4) : Good k (State.coreCyclesTo s a1 a2 a3 a4) := by
  unfold State.coreCyclesTo
  repeat' first
    | with_reducible assumption
    | with_reducible apply State.coreEvent_good
    | with_reducible apply State.modCore_good
    | with_reducible apply State.add64_good

@[simp ↓] theorem State.elapse_good (h : Good k s) (a1 a2) : Good k (State.elapse s a1 a2) := by
  unfold State.elapse
  repeat' first
    | with_reducible assumption
    | with_reducible refine good_foldl ?_ (fun _ _ _ => ?_)
    | with_reducible apply State.coreCyclesTo_good
    | with_reducible apply State.wr_good
    | with_reducible apply State.setJob_good

@[simp ↓] theorem State.pass_good (h : Good k s) (a1 a2) : Good k (State.pass s a1 a2) := by
  unfold State.pass
  repeat' first
    | with_reducible assumption
    | with_reducible refine good_ite ?_ ?_
    | with_reducible apply State.elapse_good

end Sys2Proof.Machine
end

