-- ==== Sys2Proof/Laws/KeepBundle.lean ====
section
/-! SUPPORT. What every operation of Machine/Bundle.lean keeps (Laws/Good.lean). -/

namespace Sys2Proof.Machine

variable {k : Key} {s t : State}

@[simp ↓] theorem State.syApply_good (h : Good k s) (a1 a2) : GoodIn k (fun x => x) (State.syApply s a1 a2) := by
  unfold State.syApply
  repeat' first
    | with_reducible assumption
    | with_reducible refine goodIn_some.2 ?_
    | with_reducible refine goodIn_map_of (fun _ _ => ?_)
    | with_reducible apply State.setFlag_good
    | with_reducible apply State.signal_good
    | split

@[simp ↓] theorem State.issue_good (h : Good k s) (a1 a2 a3) : Good k (State.issue s a1 a2 a3) := by
  unfold State.issue
  dsimp only
  repeat' first
    | with_reducible assumption
    | with_reducible refine good_ite ?_ ?_
    | with_reducible apply State.syApply_good
    | with_reducible apply State.flagOverflow_good
    | with_reducible apply State.setCore_good
    | with_reducible apply State.wr_good
    | with_reducible apply State.coreEvent_good
    | with_reducible apply State.add64_good
    | with_reducible apply State.setJob_good
    | with_reducible apply State.setBit_good
    | with_reducible apply State.spadWrite_good
    | with_reducible apply State.spadCheck_good
    | with_reducible apply State.modCore_good
    | with_reducible apply State.coreFault_good
    | with_reducible refine good_of_some (by assumption) ?_
    | simp only
    | split

@[simp ↓] theorem State.attempt_good (h : Good k s) (a1 a2 a3 a4) : Good k (State.attempt s a1 a2 a3 a4) := by
  unfold State.attempt
  repeat' first
    | with_reducible assumption
    | with_reducible refine good_ite ?_ ?_
    | with_reducible apply State.issue_good
    | with_reducible apply State.elapse_good
    | with_reducible apply State.setCore_good
    | with_reducible apply State.coreFault_good
    | split

@[simp ↓] theorem State.bundleIssue_good (h : Good k s) (a1 a2 a3) : Good k (State.bundleIssue s a1 a2 a3) := by
  unfold State.bundleIssue
  repeat' first
    | with_reducible assumption
    | with_reducible apply State.attempt_good
    | with_reducible apply State.upset_good
    | simp only [↓good_upd]
    | split

theorem execBundleIssue_keeps (h : Good k s) (a0 a1 a2) : Keeps k (execBundleIssue a0 a1 a2 s) := by
  unfold execBundleIssue
  simp +contextual (maxDischargeDepth := 50) [h]

@[simp ↓] theorem State.podJudge_good (h : Good k s) (a1 a2) : Good k (State.podJudge s a1 a2) := by
  unfold State.podJudge
  repeat' first
    | with_reducible assumption
    | with_reducible apply State.setFlag_good
    | with_reducible apply State.modEng_good
    | with_reducible apply State.modCore_good
    | split

theorem execPodFlagWaitRequest_keeps (h : Good k s) (a0 a1) : Keeps k (execPodFlagWaitRequest a0 a1 s) := by
  unfold execPodFlagWaitRequest
  repeat' first
    | with_reducible assumption
    | with_reducible refine keeps_next.2 ?_
    | with_reducible refine good_foldl ?_ (fun _ _ _ => ?_)
    | with_reducible apply State.podJudge_good
    | split

theorem execCompletionPoint_keeps (h : Good k s) (a0 a1) : Keeps k (execCompletionPoint a0 a1 s) := by
  unfold execCompletionPoint
  repeat' first
    | with_reducible assumption
    | with_reducible refine good_ite ?_ ?_
    | with_reducible refine keeps_next.2 ?_
    | with_reducible apply State.signal_good
    | with_reducible apply State.modEng_good
    | split

@[simp ↓] theorem State.writeDelivs_good (h : Good k s) (a1 a2) : Good k (State.writeDelivs s a1 a2) := by
  unfold State.writeDelivs
  repeat' first
    | with_reducible assumption
    | with_reducible apply State.coreEvent_good
    | with_reducible apply State.modCore_good

@[simp ↓] theorem State.deliver_good (h : Good k s) (a1 a2) : Good k (State.deliver s a1 a2) := by
  unfold State.deliver
  repeat' first
    | with_reducible assumption
    | with_reducible apply State.writeDelivs_good
    | with_reducible apply State.signals_good

theorem execDelivery_keeps (h : Good k s) (a0 a1 a2 a3) : Keeps k (execDelivery a0 a1 a2 a3 s) := by
  unfold execDelivery
  repeat' first
    | with_reducible assumption
    | with_reducible refine keeps_next.2 ?_
    | with_reducible apply State.modEng_good
    | with_reducible apply State.modCore_good
    | with_reducible apply State.deliver_good
    | with_reducible apply State.count_good
    | split

end Sys2Proof.Machine
end

