-- ==== Sys2Proof/Laws/KeepNumStatus.lean ====
section
/-! SUPPORT. What every operation of Machine/NumStatus.lean keeps (Laws/Good.lean). -/

namespace Sys2Proof.Machine

variable {k : Key} {s t : State}

@[simp ↓] theorem State.numEvents_good (h : Good k s) (a1 a2) : Good k (State.numEvents s a1 a2) := by
  unfold State.numEvents
  dsimp only
  simp +contextual (maxDischargeDepth := 100) only [h, ↓good_ite, ↓State.setBit_good, ↓State.count_good]

@[simp ↓] theorem State.numFault_good (h : Good k s) (a1 a2 a3 a4 a5 a6 a7) : Good k (State.numFault s a1 a2 a3 a4 a5 a6 a7) := by
  unfold State.numFault
  repeat' first
    | with_reducible assumption
    | with_reducible apply State.raise_good
    | simp only
    | split

@[simp ↓] theorem State.outputDone_good (h : Good k s) (a1 a2 a3 a4 a5) : Good k (State.outputDone s a1 a2 a3 a4 a5) := by
  unfold State.outputDone
  dsimp only
  simp +contextual (maxDischargeDepth := 100) only [h, ↓State.dumpMatch_good]

end Sys2Proof.Machine
end

