-- ==== Sys2Proof/Laws/KeepOperands.lean ====
section
/-! SUPPORT. What every operation of Machine/Operands.lean keeps (Laws/Good.lean). -/

namespace Sys2Proof.Machine

variable {k : Key} {s t : State}

@[simp ↓] theorem State.gather_good (h : Good k s) (a1 a2) : Good k (State.gather s a1 a2).1 := by
  unfold State.gather
  repeat' first
    | with_reducible assumption
    | with_reducible apply State.noteWords_good

@[simp ↓] theorem State.unitRead_good (h : Good k s) (a1 a2 a3 a4 a5) : Good k (State.unitRead s a1 a2 a3 a4 a5).1 := by
  unfold State.unitRead
  repeat' first
    | with_reducible assumption
    | with_reducible apply State.gather_good

end Sys2Proof.Machine
end

