-- ==== Sys2Proof/Laws/KeepVector.lean ====
section
/-! SUPPORT. What every operation of Machine/Vector.lean keeps (Laws/Good.lean). -/

namespace Sys2Proof.Machine

variable {k : Key} {s t : State}

theorem good_ite_ve {c : Prop} [Decidable c] {a b : VeRun} (h : Good k a.s) (h2 : Good k b.s) :
    Good k (if c then a else b).s := by split <;> assumption

theorem good_ite_ve_fst {β : Type} {c : Prop} [Decidable c] {a b : VeRun × β} (h : Good k a.1.s) (h2 : Good k b.1.s) :
    Good k (if c then a else b).1.s := by split <;> assumption

theorem good_foldl_ve {α : Type} {f : VeRun → α → VeRun} {l : List α} {r : VeRun} (h : Good k r.s)
    (hf : ∀ r a, Good k r.s → Good k (f r a).s) : Good k (l.foldl f r).s := by
  induction l generalizing r with
  | nil => exact h
  | cons a l ih => exact ih (hf _ _ h)

theorem good_foldl_ve_fst {α β : Type} {f : VeRun × β → α → VeRun × β} {l : List α} {p : VeRun × β}
    (h : Good k p.1.s) (hf : ∀ p a, Good k p.1.s → Good k (f p a).1.s) : Good k (l.foldl f p).1.s := by
  induction l generalizing p with
  | nil => exact h
  | cons a l ih => exact ih (hf _ _ h)

theorem good_of_pair_ve {β : Type} {p : VeRun × β} {x : VeRun} {y : β} (e : p = (x, y)) (h : Good k p.1.s) :
    Good k x.s := by subst e; exact h

@[simp ↓] theorem VeRun.land_good {r : VeRun} (h : Good k r.s) (a1 a2) : Good k (VeRun.land r a1 a2).s := by
  unfold VeRun.land
  repeat' first
    | with_reducible assumption
    | with_reducible refine good_foldl ?_ (fun _ _ _ => ?_)
    | with_reducible apply State.spadScatter_good

@[simp ↓] theorem VeRun.stream_good {r : VeRun} (h : Good k r.s) (a1 a2 a3 a4 a5) : Good k (VeRun.stream r a1 a2 a3 a4 a5).1.s := by
  unfold VeRun.stream
  repeat' first
    | with_reducible assumption
    | with_reducible apply State.coreFault_good
    | with_reducible apply State.gather_good
    | with_reducible refine good_of_pair (by assumption) ?_
    | split

@[simp ↓] theorem VeRun.trap_good (r : VeRun) (h : Good k s) (a1 a2 a3 a5) : Good k (VeRun.trap r a1 a2 a3 s a5).s :=
  State.numFault_good h _ _ _ _ _ _ _

@[simp ↓] theorem VeRun.convert_good {r : VeRun} (h : Good k r.s) (a1 a2 a3 a4 a5 a6) : Good k (VeRun.convert r a1 a2 a3 a4 a5 a6).1.s := by
  unfold VeRun.convert
  repeat' first
    | with_reducible assumption
    | with_reducible apply State.numEvents_good
    | with_reducible apply VeRun.trap_good
    | simp only [↓good_upd]
    | split

@[simp ↓] theorem VeRun.reduced_good {r : VeRun} (h : Good k r.s) (a1 a2 a3) : Good k (VeRun.reduced r a1 a2 a3).s := by
  unfold VeRun.reduced
  repeat' first
    | with_reducible assumption
    | with_reducible apply State.modEng_good
    | split

@[simp ↓] theorem VeRun.strip_good {r : VeRun} (h : Good k r.s) (a1 a2 a3) : Good k (VeRun.strip r a1 a2 a3).s := by
  unfold VeRun.strip
  repeat' first
    | with_reducible refine good_ite_ve ?_ ?_
    | with_reducible refine good_ite_ve_fst ?_ ?_
    | with_reducible assumption
    | with_reducible apply State.modEng_good
    | with_reducible apply VeRun.stream_good
    | with_reducible apply VeRun.convert_good
    | with_reducible apply State.coreEvent_good
    | with_reducible apply VeRun.reduced_good
    | with_reducible apply VeRun.land_good
    | with_reducible apply State.numEvents_good

@[simp ↓] theorem VeRun.combine_good {r : VeRun} (h : Good k r.s) (a1 a2 a3 a4 a5) : Good k (VeRun.combine r a1 a2 a3 a4 a5).s := by
  unfold VeRun.combine
  repeat' first
    | with_reducible assumption
    | with_reducible apply State.numEvents_good
    | with_reducible apply VeRun.trap_good
    | simp only [↓good_upd]
    | split

@[simp ↓] theorem VeRun.strips_good {r : VeRun} (h : Good k r.s) (a0 a1 a2 a3) :
    Good k (VeRun.strips a0 a1 a2 a3 r).s := by
  induction a3 generalizing r with
  | zero => exact h
  | succ n ih =>
    unfold VeRun.strips
    refine good_ite_ve h (ih ?_)
    split
    · exact VeRun.combine_good h _ _ _ _ _
    · exact VeRun.strip_good h _ _ _

@[simp ↓] theorem VeRun.rest_good {r : VeRun} (h : Good k r.s) (a1 a2 a3) : Good k (VeRun.rest r a1 a2 a3) := by
  unfold VeRun.rest
  repeat' first
    | with_reducible assumption
    | with_reducible refine good_ite ?_ ?_
    | with_reducible apply State.modEng_good
    | with_reducible apply State.modCore_good
    | with_reducible apply State.outputDone_good
    | with_reducible apply VeRun.land_good

@[simp ↓] theorem State.veGo_good (h : Good k s) (a1 a2 a3 a4) : Good k (State.veGo s a1 a2 a3 a4) := by
  unfold State.veGo
  repeat' first
    | with_reducible assumption
    | with_reducible apply VeRun.rest_good
    | with_reducible apply VeRun.strips_good

@[simp ↓] theorem State.veCombine_good (h : Good k s) (a1) : Good k (State.veCombine s a1) := by
  unfold State.veCombine
  repeat' first
    | with_reducible assumption
    | with_reducible apply State.veGo_good
    | split

@[simp ↓] theorem State.vectorOp_good (h : Good k s) (a1 a2 a3 a4) : Good k (State.vectorOp s a1 a2 a3 a4) := by
  unfold State.vectorOp
  repeat' first
    | with_reducible assumption
    | with_reducible refine good_ite ?_ ?_
    | with_reducible apply State.veGo_good
    | with_reducible apply State.takeHead_good
    | with_reducible apply State.upset_good
    | with_reducible apply State.coreFault_good
    | split

theorem execVmap_keeps (h : Good k s) (a0 a1) : Keeps k (execVmap a0 a1 s) := by
  unfold execVmap
  repeat' first
    | with_reducible assumption
    | with_reducible refine keeps_next.2 ?_
    | with_reducible apply State.vectorOp_good

theorem execVred_keeps (h : Good k s) (a0 a1) : Keeps k (execVred a0 a1 s) := by
  unfold execVred
  repeat' first
    | with_reducible assumption
    | with_reducible refine keeps_next.2 ?_
    | with_reducible apply State.vectorOp_good

end Sys2Proof.Machine
end

