-- ==== Sys2Proof/Laws/KeepJobs.lean ====
section
/-! SUPPORT. What every operation of Machine/Jobs.lean keeps (Laws/Good.lean). -/

namespace Sys2Proof.Machine

variable {k : Key} {s t : State}

@[simp ↓] theorem State.showJobs_good (h : Good k s) (a1) : Good k (State.showJobs s a1) := by
  unfold State.showJobs
  repeat' first
    | with_reducible assumption
    | with_reducible apply State.setFld_good

@[simp ↓] theorem State.clearCore_good (h : Good k s) (a1) : Good k (State.clearCore s a1) := by
  unfold State.clearCore
  simp +contextual (maxDischargeDepth := 50) [h]

@[simp ↓] theorem State.clearPodFlags_good (h : Good k s) (a1) : Good k (State.clearPodFlags s a1) := by
  unfold State.clearPodFlags
  repeat' first
    | with_reducible assumption
    | with_reducible refine good_foldl ?_ (fun _ _ _ => ?_)
    | with_reducible apply State.clearRegs_good

@[simp ↓] theorem State.jobEndRecords_good (h : Good k s) (a1 a2) : Good k (State.jobEndRecords s a1 a2) := by
  unfold State.jobEndRecords
  dsimp only
  simp +contextual (maxDischargeDepth := 100) only [h, ↓State.sysRecord_good, ↓State.ctxRecord_good]

@[simp ↓] theorem State.askReplay_good (h : Good k s) (a1 a2) : Good k (State.askReplay s a1 a2) := by
  unfold State.askReplay
  dsimp only
  simp +contextual (maxDischargeDepth := 100) only [h, ↓good_ite, ↓State.record_good, ↓State.sendCtxCard_good]

@[simp ↓] theorem State.freeRecord_good (h : Good k s) (a1 a2) : Good k (State.freeRecord s a1 a2) := by
  unfold State.freeRecord
  dsimp only
  simp +contextual (maxDischargeDepth := 100) only [h, ↓good_mk, Good.pend, Good.fuses, Good.mem, Good.spad, Good.regs, and_self]

@[simp ↓] theorem State.setShelf_good (h : Good k s) (a1 a2 a3) : Good k (State.setShelf s a1 a2 a3) := by
  unfold State.setShelf
  dsimp only
  simp +contextual (maxDischargeDepth := 100) only [h, ↓good_mk, Good.pend, Good.fuses, Good.mem, Good.spad, Good.regs, and_self, ↓State.setFld_good]

@[simp ↓] theorem State.jobEnd_good (h : Good k s) (a1 a2) : Good k (State.jobEnd s a1 a2) := by
  unfold State.jobEnd
  repeat' first
    | with_reducible assumption
    | with_reducible refine good_ite ?_ ?_
    | with_reducible refine good_foldl ?_ (fun _ _ _ => ?_)
    | with_reducible apply State.postDone_good
    | with_reducible apply State.jobEndRecords_good
    | with_reducible apply State.setBit_good
    | with_reducible apply State.sendCtxCard_good
    | with_reducible apply State.setFld_good
    | with_reducible apply State.askReplay_good
    | with_reducible apply State.clearPodFlags_good
    | with_reducible apply State.discard_good
    | with_reducible apply State.clearCore_good
    | with_reducible apply State.setUnit_good
    | with_reducible apply State.setShelf_good
    | with_reducible apply State.showJobs_good
    | with_reducible apply State.freeRecord_good
    | with_reducible apply State.clearRegs_good
    | with_reducible apply State.account_good
    | simp only [↓good_upd]

@[simp ↓] theorem State.freeShelves_good (h : Good k s) (a1) : Good k (State.freeShelves s a1) := by
  unfold State.freeShelves
  dsimp only
  simp +contextual (maxDischargeDepth := 100) only [h, ↓good_mk, Good.pend, Good.fuses, Good.mem, Good.spad, Good.regs, and_self, ↓State.setFld_good]

@[simp ↓] theorem State.asmOff_good (h : Good k s) (a1) : Good k (State.asmOff s a1) := by
  unfold State.asmOff
  dsimp only
  simp +contextual (maxDischargeDepth := 100) only [h, ↓good_mk, Good.pend, Good.fuses, Good.mem, Good.spad, Good.regs, and_self, ↓State.wr_good, ↓State.setBit_good]

@[simp ↓] theorem State.withdraw_good (h : Good k s) (a1) : Good k (State.withdraw s a1) := by
  unfold State.withdraw
  dsimp only
  simp +contextual (maxDischargeDepth := 100) only [h, ↓good_foldl, ↓good_mk, Good.pend, Good.fuses, Good.mem, Good.spad, Good.regs, and_self, implies_true, ↓State.setReplay_good, ↓State.queueOff_good, ↓State.poolOff_good, ↓State.freeShelves_good, ↓State.setBit_good, ↓State.asmOff_good]

@[simp ↓] theorem State.tearSettle_good (h : Good k s) (a1) : Good k (State.tearSettle s a1) := by
  unfold State.tearSettle
  repeat' first
    | with_reducible assumption
    | with_reducible refine good_ite ?_ ?_
    | with_reducible apply State.withdraw_good

theorem execJobEnd_keeps (h : Good k s) (a0 a1) : Keeps k (execJobEnd a0 a1 s) := by
  unfold execJobEnd
  repeat' first
    | with_reducible assumption
    | with_reducible refine good_ite ?_ ?_
    | with_reducible refine keeps_next.2 ?_
    | with_reducible apply State.tearSettle_good
    | with_reducible apply State.jobEnd_good

theorem execParkRequest_keeps (h : Good k s) (a0 a1) : Keeps k (execParkRequest a0 a1 s) := by
  unfold execParkRequest
  repeat' first
    | with_reducible assumption
    | with_reducible refine good_ite ?_ ?_
    | with_reducible refine keeps_next.2 ?_
    | with_reducible apply State.parkReq_good

@[simp ↓] theorem State.parkEngine_good (h : Good k s) (a1 a2 a3) : Good k (State.parkEngine s a1 a2 a3) := by
  unfold State.parkEngine
  dsimp only
  simp +contextual (maxDischargeDepth := 100) only [h, ↓good_foldl, implies_true, ↓State.modEng_good, ↓State.wr_good]

@[simp ↓] theorem State.parkCore_good (h : Good k s) (a1) : Good k (State.parkCore s a1) := by
  unfold State.parkCore
  repeat' first
    | with_reducible assumption
    | with_reducible refine good_foldl ?_ (fun _ _ _ => ?_)
    | with_reducible apply State.wr_good
    | with_reducible apply State.setCore_good

@[simp ↓] theorem State.parkUnit_good (h : Good k s) (a1) : Good k (State.parkUnit s a1) := by
  unfold State.parkUnit
  dsimp only
  simp +contextual (maxDischargeDepth := 100) only [h, ↓good_ite, ↓good_foldl, implies_true, ↓State.parkCore_good, ↓State.setUnit_good, ↓State.setJob_good]

theorem execParkPoint_keeps (h : Good k s) (a0 a1 a2) : Keeps k (execParkPoint a0 a1 a2 s) := by
  unfold execParkPoint
  repeat' first
    | with_reducible assumption
    | with_reducible refine good_ite ?_ ?_
    | with_reducible refine keeps_next.2 ?_
    | with_reducible apply State.parkUnit_good
    | with_reducible apply State.parkEngine_good
    | simp only
    | split

theorem execParkTimeout_keeps (h : Good k s) (a0 a1) : Keeps k (execParkTimeout a0 a1 s) := by
  unfold execParkTimeout
  repeat' first
    | with_reducible assumption
    | with_reducible refine good_ite ?_ ?_
    | with_reducible refine keeps_next.2 ?_
    | with_reducible apply State.coreFault_good
    | simp only
    | split

@[simp ↓] theorem State.resumeCore_good (h : Good k s) (a1) : Good k (State.resumeCore s a1) := by
  unfold State.resumeCore
  repeat' first
    | with_reducible assumption
    | with_reducible refine good_ite ?_ ?_
    | with_reducible apply State.setCore_good
    | with_reducible apply State.writeDelivs_good
    | with_reducible apply State.count_good

theorem execResume_keeps (h : Good k s) (a0) : Keeps k (execResume a0 s) := by
  unfold execResume
  repeat' first
    | with_reducible assumption
    | with_reducible refine keeps_next.2 ?_
    | with_reducible refine good_ite ?_ ?_
    | with_reducible refine good_foldl ?_ (fun _ _ _ => ?_)
    | with_reducible apply State.setJob_good
    | with_reducible apply State.resumeCore_good
    | with_reducible apply State.setUnit_good
    | with_reducible apply State.veCombine_good
    | with_reducible apply State.signals_good

theorem execBundleLimit_keeps (h : Good k s) (a0) : Keeps k (execBundleLimit a0 s) := by
  unfold execBundleLimit
  repeat' first
    | with_reducible assumption
    | with_reducible refine good_ite ?_ ?_
    | with_reducible refine keeps_next.2 ?_
    | with_reducible apply State.modCore_good

theorem execSettle_keeps (h : Good k s) (a0) : Keeps k (execSettle a0 s) := by
  unfold execSettle
  repeat' first
    | with_reducible assumption
    | with_reducible refine good_ite ?_ ?_
    | with_reducible refine keeps_next.2 ?_
    | with_reducible refine good_foldl ?_ (fun _ _ _ => ?_)
    | with_reducible apply State.parkReq_good
    | with_reducible apply State.parkEngine_good
    | with_reducible apply State.parkUnit_good

@[simp ↓] theorem State.privDenied_good (h : Good k s) (a1 a2) : Good k (State.privDenied s a1 a2) := by
  unfold State.privDenied
  repeat' first
    | with_reducible assumption
    | with_reducible apply State.raise_good
    | with_reducible apply State.intEvent_good
    | with_reducible apply State.count_good

@[simp ↓] theorem State.debugWrite_good (h : Good k s) (a1 a2 a3 a4) (hf : ∀ st, Good k st → Good k (a4 st )) : Good k (State.debugWrite s a1 a2 a3 a4) := by
  unfold State.debugWrite
  repeat' first
    | with_reducible assumption
    | with_reducible apply hf
    | with_reducible refine good_ite ?_ ?_
    | with_reducible apply State.privDenied_good

@[simp ↓] theorem State.limitWrite_good (h : Good k s) (a1 a2 a3) : Good k (State.limitWrite s a1 a2 a3) := by
  unfold State.limitWrite
  repeat' first
    | with_reducible assumption
    | with_reducible apply State.debugWrite_good
    | with_reducible apply State.wr_good
    | simp only [↓good_upd]
    | split
    | with_reducible intro _

theorem execDbgBundleLimit_keeps (h : Good k s) (a0 a1) : Keeps k (execDbgBundleLimit a0 a1 s) := by
  unfold execDbgBundleLimit
  repeat' first
    | with_reducible assumption
    | with_reducible refine keeps_next.2 ?_
    | with_reducible apply State.limitWrite_good

@[simp ↓] theorem State.agSelWrite_good (h : Good k s) (a1 a2 a3) : Good k (State.agSelWrite s a1 a2 a3) := by
  unfold State.agSelWrite
  repeat' first
    | with_reducible assumption
    | with_reducible apply State.debugWrite_good
    | with_reducible apply State.wr_good
    | with_reducible intro _

theorem execAgSel_keeps (h : Good k s) (a0 a1) : Keeps k (execAgSel a0 a1 s) := by
  unfold execAgSel
  repeat' first
    | with_reducible assumption
    | with_reducible refine keeps_next.2 ?_
    | with_reducible apply State.agSelWrite_good

@[simp ↓] theorem State.dbgRead_good (h : Good k s) (a1 a2 a3) : Good k (State.dbgRead s a1 a2 a3) := by
  unfold State.dbgRead
  dsimp only
  simp +contextual (maxDischargeDepth := 100) only [h, ↓good_ite, implies_true, ↓State.debugWrite_good, ↓State.wr_good, ↓State.setBit_good]

theorem execDbgAddr_keeps (h : Good k s) (a0 a1) : Keeps k (execDbgAddr a0 a1 s) := by
  unfold execDbgAddr
  repeat' first
    | with_reducible assumption
    | with_reducible refine keeps_next.2 ?_
    | with_reducible apply State.dbgRead_good

@[simp ↓] theorem State.bothRecords_good (h : Good k s) (a1 a2 a3 a4 a5 a6) : Good k (State.bothRecords s a1 a2 a3 a4 a5 a6) := by
  unfold State.bothRecords
  repeat' first
    | with_reducible assumption
    | with_reducible apply State.sysRecord_good
    | with_reducible apply State.ctxRecord_good
    | simp only
    | split

@[simp ↓] theorem State.snapshot_good (h : Good k s) (a1) : Good k (State.snapshot s a1) := by
  unfold State.snapshot
  repeat' first
    | with_reducible assumption
    | with_reducible refine good_foldl ?_ (fun _ _ _ => ?_)
    | with_reducible apply State.bothRecords_good
    | split

@[simp ↓] theorem State.takeSnapshot_good (h : Good k s) (a1) : Good k (State.takeSnapshot s a1) := by
  unfold State.takeSnapshot
  repeat' first
    | with_reducible assumption
    | with_reducible apply State.snapshot_good
    | with_reducible apply State.intEvent_good

theorem execSnapUnit_keeps (h : Good k s) (a0 a1) : Keeps k (execSnapUnit a0 a1 s) := by
  unfold execSnapUnit
  repeat' first
    | with_reducible assumption
    | with_reducible refine keeps_next.2 ?_
    | with_reducible apply State.wr_good
    | with_reducible apply State.takeSnapshot_good
    | with_reducible apply State.pass_good

@[simp ↓] theorem State.deadlock_good (h : Good k s) (a1 a2 a3 a4 a5) : Good k (State.deadlock s a1 a2 a3 a4 a5) := by
  unfold State.deadlock
  dsimp only
  simp +contextual (maxDischargeDepth := 100) only [h, ↓good_ite, ↓good_foldl, ↓good_mk, Good.pend, Good.fuses, Good.mem, Good.spad, Good.regs, and_self, implies_true, ↓State.elapse_good, ↓State.coreFault_good, ↓State.takeSnapshot_good]

theorem execSyncDeadlock_keeps (h : Good k s) (a0 a1 a2 a3) : Keeps k (execSyncDeadlock a0 a1 a2 a3 s) := by
  unfold execSyncDeadlock
  repeat' first
    | with_reducible assumption
    | with_reducible refine keeps_next.2 ?_
    | with_reducible apply State.deadlock_good
    | split

theorem execJobWatchdog_keeps (h : Good k s) (a0 a1) : Keeps k (execJobWatchdog a0 a1 s) := by
  unfold execJobWatchdog
  repeat' first
    | with_reducible assumption
    | with_reducible refine keeps_next.2 ?_
    | with_reducible refine good_ite ?_ ?_
    | with_reducible apply State.elapse_good
    | with_reducible apply State.raise_good
    | with_reducible apply State.takeSnapshot_good
    | split

end Sys2Proof.Machine
end

