-- ==== Sys2Proof/Laws/KeepTrust.lean ====
section
/-! SUPPORT. What every operation of Machine/Trust.lean keeps (Laws/Good.lean). -/

namespace Sys2Proof.Machine

variable {k : Key} {s t : State}

@[simp ↓] theorem State.putBytes_good (h : Good k s) (a1 a2 a3) : Good k (State.putBytes s a1 a2 a3) := by
  unfold State.putBytes
  repeat' first
    | with_reducible assumption
    | with_reducible refine good_foldl ?_ (fun _ _ _ => ?_)
    | with_reducible apply State.wr_good

@[simp ↓] theorem State.extend_good (h : Good k s) (a1 a2) : Good k (State.extend s a1 a2) := by
  unfold State.extend
  repeat' first
    | with_reducible assumption
    | with_reducible apply State.putBytes_good

@[simp ↓] theorem State.extendCtx_good (h : Good k s) (a1 a2) : Good k (State.extendCtx s a1 a2) := by
  unfold State.extendCtx
  repeat' first
    | with_reducible assumption
    | with_reducible apply State.putBytes_good

@[simp ↓] theorem State.draw_good (h : Good k s) (a1) : Good k (State.draw s a1).1 := by
  unfold State.draw
  dsimp only
  simp +contextual (maxDischargeDepth := 100) only [h, ↓good_mk, Good.pend, Good.fuses, Good.mem, Good.spad, Good.regs, and_self]

end Sys2Proof.Machine
end

