-- ==== Sys2Proof/Laws/KeepStageLoad.lean ====
section
/-! SUPPORT. What every operation of Machine/StageLoad.lean keeps (Laws/Good.lean). -/

namespace Sys2Proof.Machine

variable {k : Key} {s t : State}

@[simp ↓] theorem State.loadStage_good (h : Good k s) (a1 a2 a3 a4) : Good k (State.loadStage s a1 a2 a3 a4) := by
  unfold State.loadStage
  dsimp only
  simp +contextual (maxDischargeDepth := 100) only [h, ↓good_ite, ↓State.setSeq_good, ↓State.clearRegs_good, ↓State.setFld_good, ↓State.setSeqState_good, ↓State.extend_good, ↓State.extendCtx_good]

end Sys2Proof.Machine
end

