-- ==== Sys2Proof/Laws/KeepLoader.lean ====
section
/-! SUPPORT. What every operation of Machine/Loader.lean keeps (Laws/Good.lean). -/

namespace Sys2Proof.Machine

variable {k : Key} {s t : State}

@[simp ↓] theorem State.respond_good (h : Good k s) (a1 a2 a3) : Good k (State.respond s a1 a2 a3) := by
  unfold State.respond
  repeat' first
    | with_reducible assumption
    | with_reducible apply good_modHost

@[simp ↓] theorem State.mgmt_good (h : Good k s) (a1 a2) (hf : ∀ st, Good k st → Good k (a2 st )) : Good k (State.mgmt s a1 a2) := by
  unfold State.mgmt
  repeat' first
    | with_reducible assumption
    | with_reducible apply hf
    | with_reducible refine good_ite ?_ ?_
    | with_reducible apply State.respond_good

theorem execLoadData_keeps (h : Good k s) (a0 a1 a2) : Keeps k (execLoadData a0 a1 a2 s) := by
  unfold execLoadData
  repeat' first
    | with_reducible assumption
    | with_reducible refine keeps_next.2 ?_
    | with_reducible apply State.mgmt_good
    | with_reducible apply State.respond_good
    | with_reducible apply good_modHost
    | split
    | with_reducible intro _

@[simp ↓] theorem State.loadCompute_good (h : Good k s) (a1 a2 a3) : Good k (State.loadCompute s a1 a2 a3) := by
  unfold State.loadCompute
  repeat' first
    | with_reducible assumption
    | with_reducible apply State.extendCtx_good
    | with_reducible apply State.respond_good
    | with_reducible apply State.memWrite_good
    | simp only [↓good_upd]
    | split

@[simp ↓] theorem State.loadStageFor_good (h : Good k s) (a1 a2 a3 a4 a5) : Good k (State.loadStageFor s a1 a2 a3 a4 a5) := by
  unfold State.loadStageFor
  repeat' first
    | with_reducible assumption
    | with_reducible apply State.respond_good
    | with_reducible apply State.loadStage_good
    | split

@[simp ↓] theorem State.loadDelivered_good (h : Good k s) (a1 a2 a3) : Good k (State.loadDelivered s a1 a2 a3) := by
  unfold State.loadDelivered
  repeat' first
    | with_reducible assumption
    | with_reducible refine good_ite ?_ ?_
    | with_reducible apply State.loadStageFor_good
    | with_reducible apply State.loadCompute_good

@[simp ↓] theorem State.setLoad_good (h : Good k s) (a1 a2) : Good k (State.setLoad s a1 a2) := by
  unfold State.setLoad
  repeat' first
    | with_reducible assumption
    | with_reducible apply good_modHost

@[simp ↓] theorem State.loadMore_good (h : Good k s) (a1 a2) : Good k (State.loadMore s a1 a2) := by
  unfold State.loadMore
  repeat' first
    | with_reducible assumption
    | with_reducible refine good_ite ?_ ?_
    | with_reducible refine goodIn_ite ?_ ?_
    | with_reducible refine goodIn_none
    | with_reducible apply State.loadDelivered_good
    | with_reducible apply State.setLoad_good
    | with_reducible apply State.hostRead_good
    | with_reducible apply State.respond_good
    | with_reducible refine good_of_some (by assumption) ?_
    | simp only
    | split

theorem execLoad_keeps (h : Good k s) (a0 a1 a2 a3 a4 a5 a6) : Keeps k (execLoad a0 a1 a2 a3 a4 a5 a6 s) := by
  unfold execLoad
  repeat' first
    | with_reducible assumption
    | with_reducible refine keeps_next.2 ?_
    | with_reducible apply State.loadMore_good
    | with_reducible apply State.mgmt_good
    | with_reducible apply State.respond_good
    | with_reducible apply State.loadDelivered_good
    | with_reducible apply good_modHost
    | split
    | with_reducible intro _

@[simp ↓] theorem State.unload_good (h : Good k s) (a1) : Good k (State.unload s a1) := by
  unfold State.unload
  dsimp only
  simp +contextual (maxDischargeDepth := 100) only [h, ↓good_foldl, ↓good_mk, Good.pend, Good.fuses, Good.mem, Good.spad, Good.regs, and_self, implies_true]

theorem execUnload_keeps (h : Good k s) (a0 a1) : Keeps k (execUnload a0 a1 s) := by
  unfold execUnload
  repeat' first
    | with_reducible assumption
    | with_reducible refine keeps_next.2 ?_
    | with_reducible apply State.mgmt_good
    | with_reducible apply State.respond_good
    | with_reducible apply State.unload_good
    | split
    | with_reducible intro _

theorem execMgmtEnq_keeps (h : Good k s) (a0 a1 a2) : Keeps k (execMgmtEnq a0 a1 a2 s) := by
  unfold execMgmtEnq
  repeat' first
    | with_reducible assumption
    | with_reducible refine keeps_next.2 ?_
    | with_reducible apply State.mgmt_good
    | with_reducible apply State.offer_good
    | with_reducible apply State.respond_good
    | simp only
    | split
    | with_reducible intro _

@[simp ↓] theorem State.deqAnswer_good (h : Good k s) (a1 a2) : Good k (State.deqAnswer s a1 a2) := by
  unfold State.deqAnswer
  repeat' first
    | with_reducible assumption
    | with_reducible apply State.respond_good
    | split

theorem execMgmtDeq_keeps (h : Good k s) (a0 a1 a2) : Keeps k (execMgmtDeq a0 a1 a2 s) := by
  unfold execMgmtDeq
  simp +contextual (maxDischargeDepth := 50) [h]

theorem execSbufRead_keeps (h : Good k s) (a0 a1 a2) : Keeps k (execSbufRead a0 a1 a2 s) := by
  unfold execSbufRead
  repeat' first
    | with_reducible assumption
    | with_reducible refine keeps_next.2 ?_
    | with_reducible apply State.mgmt_good
    | with_reducible apply State.respond_good
    | with_reducible apply State.memRead_good
    | simp only
    | split
    | with_reducible intro _

theorem execEntdaa_keeps (h : Good k s) (a0) : Keeps k (execEntdaa a0 s) := by
  unfold execEntdaa
  repeat' first
    | with_reducible assumption
    | with_reducible refine good_ite ?_ ?_
    | with_reducible refine keeps_next.2 ?_
    | with_reducible apply good_modHost

theorem execPldmFirmwareUpdate_keeps (h : Good k s) (a0 a1) : Keeps k (execPldmFirmwareUpdate a0 a1 s) := by
  unfold execPldmFirmwareUpdate
  repeat' first
    | with_reducible assumption
    | with_reducible refine good_ite ?_ ?_
    | with_reducible refine keeps_next.2 ?_
    | with_reducible apply State.setPhase_good
    | simp only
    | (simp (maxDischargeDepth := 50) only [*, good_mk, Good.pend, Good.fuses, Good.mem, Good.spad, Good.regs, and_self]; done)

end Sys2Proof.Machine
end

