-- ==== Sys2Proof/Laws/KeepMemCmds.lean ====
section
/-! SUPPORT. What every operation of Machine/MemCmds.lean keeps (Laws/Good.lean). -/

namespace Sys2Proof.Machine

variable {k : Key} {s t : State}

@[simp ↓] theorem State.mapReject_good (h : Good k s)  : Good k (State.mapReject s) := by
  unfold State.mapReject
  repeat' first
    | with_reducible assumption
    | with_reducible apply State.setBit_good

@[simp ↓] theorem State.zeroGranule_good (h : Good k s) (a1) : Good k (State.zeroGranule s a1) := by
  unfold State.zeroGranule
  repeat' first
    | simp only
    | (simp (maxDischargeDepth := 50) only [*, good_mk, Good.pend, Good.fuses, Good.mem, Good.spad, Good.regs, and_self, memOk_clearRange]; done)

@[simp ↓] theorem State.granuleWrite_good (h : Good k s) (a1 a2) : Good k (State.granuleWrite s a1 a2) := by
  unfold State.granuleWrite
  dsimp only
  simp +contextual (maxDischargeDepth := 100) only [h, ↓good_ite, ↓State.mapReject_good, ↓State.setFld_good, ↓State.setBit_good, ↓State.zeroGranule_good]

theorem execGranuleWrite_keeps (h : Good k s) (a0 a1) : Keeps k (execGranuleWrite a0 a1 s) := by
  unfold execGranuleWrite
  repeat' first
    | with_reducible assumption
    | with_reducible refine keeps_next.2 ?_
    | with_reducible apply State.granuleWrite_good

@[simp ↓] theorem State.showSpares_good (h : Good k s) (a1) : Good k (State.showSpares s a1) := by
  unfold State.showSpares
  dsimp only
  simp +contextual (maxDischargeDepth := 100) only [h, ↓good_ite, ↓State.wr_good, ↓State.advise_good, ↓State.intEvent_good]

@[simp ↓] theorem State.rebuildStart_good (h : Good k s) (a1 a2 a3) : Good k (State.rebuildStart s a1 a2 a3) := by
  unfold State.rebuildStart
  repeat' first
    | with_reducible assumption
    | with_reducible apply State.advise_good
    | with_reducible apply State.repairStart_good
    | with_reducible apply State.wr_good
    | with_reducible apply State.modLedger_good
    | with_reducible apply State.showSpares_good
    | simp only [↓good_upd]

@[simp ↓] theorem State.failBank_good (h : Good k s) (a1 a2) : Good k (State.failBank s a1 a2) := by
  unfold State.failBank
  repeat' first
    | with_reducible assumption
    | with_reducible apply State.rebuildStart_good
    | with_reducible apply State.raise_good
    | with_reducible apply State.modLedger_good
    | simp only [↓good_upd]
    | split

@[simp ↓] theorem State.rebuildNext_good (h : Good k s) (a1) : Good k (State.rebuildNext s a1) := by
  unfold State.rebuildNext
  repeat' first
    | with_reducible assumption
    | with_reducible apply State.rebuildStart_good
    | split

@[simp ↓] theorem State.bankFailed_good (h : Good k s) (a1 a2) : Good k (State.bankFailed s a1 a2) := by
  unfold State.bankFailed
  repeat' first
    | with_reducible assumption
    | with_reducible refine good_ite ?_ ?_
    | with_reducible apply State.wr_good
    | with_reducible apply State.rebuildNext_good
    | with_reducible apply State.failBank_good
    | with_reducible apply State.showSpares_good
    | with_reducible apply State.repairEnd_good
    | simp only [↓good_upd]

theorem execBankRebuild_keeps (h : Good k s) (a0 a1) : Keeps k (execBankRebuild a0 a1 s) := by
  unfold execBankRebuild
  repeat' first
    | with_reducible assumption
    | with_reducible refine keeps_next.2 ?_
    | with_reducible apply State.bankFailed_good

@[simp ↓] theorem State.rebuildRows_good (h : Good k s) (a1 a2 a3) : Good k (State.rebuildRows s a1 a2 a3) := by
  unfold State.rebuildRows
  repeat' first
    | with_reducible assumption
    | with_reducible apply State.wr_good
    | simp only [↓good_upd]

@[simp ↓] theorem State.rebuildEnd_good (h : Good k s) (a1 a2) : Good k (State.rebuildEnd s a1 a2) := by
  unfold State.rebuildEnd
  repeat' first
    | with_reducible assumption
    | with_reducible apply State.setFld_good
    | with_reducible apply State.wr_good
    | with_reducible apply State.rebuildNext_good
    | with_reducible apply State.rebuildRows_good
    | with_reducible apply State.repairEnd_good
    | with_reducible apply State.intEvent_good
    | simp only [↓good_upd]

theorem execRebuildDone_keeps (h : Good k s) (a0) : Keeps k (execRebuildDone a0 s) := by
  unfold execRebuildDone
  repeat' first
    | with_reducible assumption
    | with_reducible refine keeps_next.2 ?_
    | with_reducible apply State.rebuildEnd_good
    | with_reducible apply State.rebuildRows_good
    | split

@[simp ↓] theorem State.copyRow_good (h : Good k s) (a1) : Good k (State.copyRow s a1) := by
  unfold State.copyRow
  repeat' first
    | with_reducible assumption
    | with_reducible refine good_ite ?_ ?_
    | with_reducible refine good_foldl ?_ (fun _ _ _ => ?_)
    | with_reducible apply State.globalEvent_good
    | with_reducible apply State.noteWordsBad_good
    | with_reducible apply State.setMemHealth_good
    | with_reducible apply State.count_good
    | with_reducible apply State.intEvent_good
    | simp only [↓good_upd]

@[simp ↓] theorem State.spareRow_good (h : Good k s) (a1 a2 a3) : Good k (State.spareRow s a1 a2 a3) := by
  unfold State.spareRow
  repeat' first
    | with_reducible assumption
    | with_reducible refine good_ite ?_ ?_
    | with_reducible apply State.modLedger_good
    | with_reducible apply State.showSpares_good
    | with_reducible apply State.bankFailed_good
    | with_reducible apply State.copyRow_good
    | simp only [↓good_upd]

theorem execSpareRow_keeps (h : Good k s) (a0 a1 a2) : Keeps k (execSpareRow a0 a1 a2 s) := by
  unfold execSpareRow
  repeat' first
    | with_reducible assumption
    | with_reducible refine keeps_next.2 ?_
    | with_reducible apply State.spareRow_good

@[simp ↓] theorem State.scrubParity_good (h : Good k s) (a1) : Good k (State.scrubParity s a1) := by
  unfold State.scrubParity
  repeat' first
    | with_reducible assumption
    | with_reducible refine good_ite ?_ ?_
    | with_reducible apply State.observe_good
    | with_reducible apply State.noteMemEcc_good
    | with_reducible apply State.setMemHealth_good

@[simp ↓] theorem State.scrubWord_good (h : Good k s) (a1) : Good k (State.scrubWord s a1) := by
  unfold State.scrubWord
  dsimp only
  simp +contextual (maxDischargeDepth := 100) only [h, ↓good_ite, ↓State.noteMemEcc_good, ↓State.setMemHealth_good, ↓State.observe_good, ↓State.rebuildRow_good]

theorem execScrub_keeps (h : Good k s) (a0 a1 a2) : Keeps k (execScrub a0 a1 a2 s) := by
  unfold execScrub
  repeat' first
    | with_reducible assumption
    | with_reducible refine good_ite ?_ ?_
    | with_reducible refine keeps_ite ?_ ?_
    | with_reducible refine keeps_next.2 ?_
    | with_reducible apply State.memUpset_good
    | with_reducible apply State.scrubParity_good
    | with_reducible apply State.scrubWord_good
    | with_reducible apply State.count_good

theorem execStageMemoryWriteBack_keeps (h : Good k s) (a0) : Keeps k (execStageMemoryWriteBack a0 s) := by
  unfold execStageMemoryWriteBack
  repeat' first
    | with_reducible assumption
    | with_reducible refine good_ite ?_ ?_
    | with_reducible refine keeps_ite ?_ ?_
    | with_reducible refine keeps_next.2 ?_
    | with_reducible apply State.setMemHealth_good
    | simp only [↓good_upd]

end Sys2Proof.Machine
end

