-- ==== Sys2Proof/Laws/KeepStage.lean ====
section
/-! SUPPORT. What every operation of Machine/Stage.lean keeps (Laws/Good.lean). -/

namespace Sys2Proof.Machine

variable {k : Key} {s t : State}

@[simp ↓] theorem State.seqBegin_good (h : Good k s) (a1 a2) : Good k (State.seqBegin s a1 a2) := by
  unfold State.seqBegin
  dsimp only
  repeat' first
    | with_reducible assumption
    | with_reducible refine good_ite ?_ ?_
    | with_reducible apply State.globalEvent_good
    | with_reducible apply State.account_good
    | split

@[simp ↓] theorem State.seqDo_good (h : Good k s) (a1 a2 a3) (hf : ∀ st x0, Good k st → Good k (a3 st x0)) : Good k (State.seqDo s a1 a2 a3) := by
  unfold State.seqDo
  exact good_ite (hf _ _ (State.seqBegin_good h _ _)) h

@[simp ↓] theorem State.seqNext_good (h : Good k s) (a1) : Good k (State.seqNext s a1) := by
  unfold State.seqNext
  repeat' first
    | with_reducible assumption
    | with_reducible apply State.seqFinish_good

@[simp ↓] theorem State.seqPut_good (h : Good k s) (a1 a2 a3) : Good k (State.seqPut s a1 a2 a3) := by
  unfold State.seqPut
  repeat' first
    | with_reducible assumption
    | with_reducible apply State.seqFinish_good

@[simp ↓] theorem State.seqHold_good (h : Good k s) (a1) : Good k (State.seqHold s a1) := by
  unfold State.seqHold
  repeat' first
    | with_reducible assumption
    | with_reducible apply State.setSeqState_good

@[simp ↓] theorem State.seqGoto_good (h : Good k s) (a1 a2) : Good k (State.seqGoto s a1 a2) := by
  unfold State.seqGoto
  repeat' first
    | with_reducible assumption
    | with_reducible apply State.setSeqPc_good

@[simp ↓] theorem State.setSeqCard_good (h : Good k s) (a1 a2 a3) : Good k (State.setSeqCard s a1 a2 a3) := by
  unfold State.setSeqCard
  repeat' first
    | with_reducible assumption
    | with_reducible apply State.modSeq_good

@[simp ↓] theorem State.setOrigin_good (h : Good k s) (a1 a2 a3) : Good k (State.setOrigin s a1 a2 a3) := by
  unfold State.setOrigin
  repeat' first
    | with_reducible assumption
    | with_reducible apply State.modSeq_good

theorem execNop_keeps (h : Good k s) (a0) : Keeps k (execNop a0 s) := by
  unfold execNop
  repeat' first
    | with_reducible assumption
    | with_reducible refine keeps_next.2 ?_
    | with_reducible apply State.seqDo_good
    | with_reducible apply State.seqNext_good
    | with_reducible intro _

theorem execAlu_keeps (h : Good k s) (a0) : Keeps k (execAlu a0 s) := by
  unfold execAlu
  repeat' first
    | with_reducible assumption
    | with_reducible refine keeps_next.2 ?_
    | with_reducible apply State.seqDo_good
    | with_reducible apply State.seqPut_good
    | with_reducible intro _

theorem execAddi_keeps (h : Good k s) (a0) : Keeps k (execAddi a0 s) := by
  unfold execAddi
  repeat' first
    | with_reducible assumption
    | with_reducible refine keeps_next.2 ?_
    | with_reducible apply State.seqDo_good
    | with_reducible apply State.seqPut_good
    | with_reducible intro _

theorem execStgLi_keeps (h : Good k s) (a0) : Keeps k (execStgLi a0 s) := by
  unfold execStgLi
  repeat' first
    | with_reducible assumption
    | with_reducible refine keeps_next.2 ?_
    | with_reducible apply State.seqDo_good
    | with_reducible apply State.seqPut_good
    | with_reducible intro _

theorem execLiw_keeps (h : Good k s) (a0) : Keeps k (execLiw a0 s) := by
  unfold execLiw
  repeat' first
    | with_reducible assumption
    | with_reducible refine keeps_next.2 ?_
    | with_reducible apply State.seqDo_good
    | with_reducible apply State.seqPut_good
    | with_reducible apply State.setSeqPc_good
    | simp only
    | split
    | with_reducible intro _

theorem execStgBr_keeps (h : Good k s) (a0) : Keeps k (execStgBr a0 s) := by
  unfold execStgBr
  repeat' first
    | with_reducible assumption
    | with_reducible refine keeps_next.2 ?_
    | with_reducible apply State.seqDo_good
    | with_reducible apply State.seqGoto_good
    | with_reducible apply State.account_good
    | with_reducible apply State.seqNext_good
    | split
    | with_reducible intro _

theorem execStgCall_keeps (h : Good k s) (a0) : Keeps k (execStgCall a0 s) := by
  unfold execStgCall
  repeat' first
    | with_reducible assumption
    | with_reducible refine keeps_next.2 ?_
    | with_reducible apply State.seqDo_good
    | with_reducible apply State.seqGoto_good
    | with_reducible apply State.modSeq_good
    | with_reducible intro _

theorem execStgRet_keeps (h : Good k s) (a0) : Keeps k (execStgRet a0 s) := by
  unfold execStgRet
  repeat' first
    | with_reducible assumption
    | with_reducible refine keeps_next.2 ?_
    | with_reducible apply State.seqDo_good
    | with_reducible apply State.seqGoto_good
    | with_reducible apply State.modSeq_good
    | with_reducible intro _

theorem execHalt_keeps (h : Good k s) (a0) : Keeps k (execHalt a0 s) := by
  unfold execHalt
  repeat' first
    | with_reducible assumption
    | with_reducible refine keeps_next.2 ?_
    | with_reducible apply State.seqDo_good
    | with_reducible apply State.intEvent_good
    | with_reducible apply State.setSeqState_good
    | with_reducible intro _

theorem execLdd_keeps (h : Good k s) (a0) : Keeps k (execLdd a0 s) := by
  unfold execLdd
  repeat' first
    | with_reducible assumption
    | with_reducible refine keeps_next.2 ?_
    | with_reducible apply State.seqDo_good
    | with_reducible apply State.seqPut_good
    | with_reducible apply State.stageFault_good
    | split
    | with_reducible intro _

theorem execStd_keeps (h : Good k s) (a0) : Keeps k (execStd a0 s) := by
  unfold execStd
  repeat' first
    | with_reducible assumption
    | with_reducible refine keeps_next.2 ?_
    | with_reducible apply State.seqDo_good
    | with_reducible apply State.seqNext_good
    | with_reducible apply State.modSeq_good
    | with_reducible apply State.stageFault_good
    | split
    | with_reducible intro _

@[simp ↓] theorem State.seqBytes_good (h : Good k s) (a1 a2) : Good k (State.seqBytes s a1 a2) := by
  unfold State.seqBytes
  repeat' first
    | with_reducible assumption
    | with_reducible apply State.account_good
    | split

@[simp ↓] theorem State.seqLost_good (h : Good k s) (a1 a2) : Good k (State.seqLost s a1 a2) := by
  unfold State.seqLost
  repeat' first
    | with_reducible assumption
    | with_reducible apply State.raise_good

@[simp ↓] theorem State.seqRead_good (h : Good k s) (a1 a2) : Good k (State.seqRead s a1 a2).1 := by
  unfold State.seqRead
  repeat' first
    | with_reducible assumption
    | with_reducible apply State.memRead_good
    | with_reducible apply State.seqLost_good
    | with_reducible apply State.seqBytes_good
    | simp only
    | split

theorem execLds_keeps (h : Good k s) (a0 a1) : Keeps k (execLds a0 a1 s) := by
  unfold execLds
  repeat' first
    | with_reducible assumption
    | with_reducible refine keeps_next.2 ?_
    | with_reducible refine good_ite ?_ ?_
    | with_reducible apply State.seqRead_good
    | with_reducible apply State.seqNext_good
    | with_reducible apply State.seqDo_good
    | with_reducible apply State.seqHold_good
    | with_reducible apply State.stageFault_good
    | with_reducible apply State.memUpset_good
    | with_reducible apply State.seqPut_good
    | with_reducible refine good_of_pair (by assumption) ?_
    | split
    | with_reducible intro _

theorem execSts_keeps (h : Good k s) (a0) : Keeps k (execSts a0 s) := by
  unfold execSts
  simp +contextual (maxDischargeDepth := 50) [h]

theorem execMcas_keeps (h : Good k s) (a0 a1) : Keeps k (execMcas a0 a1 s) := by
  unfold execMcas
  repeat' first
    | with_reducible assumption
    | with_reducible refine keeps_next.2 ?_
    | with_reducible refine good_ite ?_ ?_
    | with_reducible apply State.seqRead_good
    | with_reducible apply State.seqNext_good
    | with_reducible apply State.seqDo_good
    | with_reducible apply State.seqHold_good
    | with_reducible apply State.stageFault_good
    | with_reducible apply State.memUpset_good
    | with_reducible apply State.seqPut_good
    | with_reducible apply State.memWrite_good
    | with_reducible refine good_of_pair (by assumption) ?_
    | split
    | with_reducible intro _

theorem execMcnt_keeps (h : Good k s) (a0 a1) : Keeps k (execMcnt a0 a1 s) := by
  unfold execMcnt
  repeat' first
    | with_reducible assumption
    | with_reducible refine keeps_next.2 ?_
    | with_reducible refine good_ite ?_ ?_
    | with_reducible apply State.memRead_good
    | with_reducible apply State.seqLost_good
    | with_reducible apply State.seqNext_good
    | with_reducible apply State.seqDo_good
    | with_reducible apply State.seqHold_good
    | with_reducible apply State.stageFault_good
    | with_reducible apply State.memUpset_good
    | with_reducible apply State.seqPut_good
    | with_reducible apply State.seqBytes_good
    | with_reducible refine good_of_pair (by assumption) ?_
    | split
    | with_reducible intro _

theorem execTime_keeps (h : Good k s) (a0) : Keeps k (execTime a0 s) := by
  unfold execTime
  repeat' first
    | with_reducible assumption
    | with_reducible refine keeps_next.2 ?_
    | with_reducible apply State.seqDo_good
    | with_reducible apply State.seqPut_good
    | split
    | with_reducible intro _

theorem execWatch_keeps (h : Good k s) (a0) : Keeps k (execWatch a0 s) := by
  unfold execWatch
  repeat' first
    | with_reducible assumption
    | with_reducible refine keeps_next.2 ?_
    | with_reducible apply State.seqDo_good
    | with_reducible apply State.seqNext_good
    | with_reducible apply State.modSeq_good
    | with_reducible apply State.stageFault_good
    | simp only
    | split
    | with_reducible intro _

theorem execWaite_keeps (h : Good k s) (a0) : Keeps k (execWaite a0 s) := by
  unfold execWaite
  repeat' first
    | with_reducible assumption
    | with_reducible refine keeps_next.2 ?_
    | with_reducible apply State.seqDo_good
    | with_reducible apply State.seqHold_good
    | with_reducible apply State.globalEvent_good
    | with_reducible apply State.seqPut_good
    | with_reducible apply State.modSeq_good
    | simp only
    | split
    | with_reducible intro _

theorem execTset_keeps (h : Good k s) (a0) : Keeps k (execTset a0 s) := by
  unfold execTset
  repeat' first
    | with_reducible assumption
    | with_reducible refine keeps_next.2 ?_
    | with_reducible apply State.seqDo_good
    | with_reducible apply State.seqNext_good
    | with_reducible apply State.modSeq_good
    | with_reducible intro _

theorem execTimerExpiry_keeps (h : Good k s) (a0) : Keeps k (execTimerExpiry a0 s) := by
  unfold execTimerExpiry
  repeat' first
    | with_reducible assumption
    | with_reducible refine keeps_next.2 ?_
    | with_reducible refine good_ite ?_ ?_
    | with_reducible apply State.localTo_good
    | with_reducible apply State.modSeq_good

theorem execEwait_keeps (h : Good k s) (a0) : Keeps k (execEwait a0 s) := by
  unfold execEwait
  repeat' first
    | with_reducible assumption
    | with_reducible refine keeps_next.2 ?_
    | with_reducible apply State.seqDo_good
    | with_reducible apply State.seqNext_good
    | with_reducible apply State.seqHold_good
    | with_reducible apply State.globalEvent_good
    | split
    | with_reducible intro _

theorem execDeq_keeps (h : Good k s) (a0) : Keeps k (execDeq a0 s) := by
  unfold execDeq
  repeat' first
    | with_reducible assumption
    | with_reducible refine keeps_next.2 ?_
    | with_reducible apply State.seqDo_good
    | with_reducible apply State.dequeue_good
    | with_reducible apply State.seqPut_good
    | with_reducible apply State.setOrigin_good
    | with_reducible apply State.setSeqCard_good
    | with_reducible refine good_of_pair (by assumption) ?_
    | simp only
    | split
    | with_reducible intro _

theorem execEnq_keeps (h : Good k s) (a0) : Keeps k (execEnq a0 s) := by
  unfold execEnq
  repeat' first
    | with_reducible assumption
    | with_reducible refine keeps_next.2 ?_
    | with_reducible apply State.seqDo_good
    | with_reducible apply State.seqPut_good
    | with_reducible apply State.cardEvent_good
    | with_reducible apply State.offer_good
    | simp only
    | split
    | with_reducible intro _

theorem execCget_keeps (h : Good k s) (a0) : Keeps k (execCget a0 s) := by
  unfold execCget
  repeat' first
    | with_reducible assumption
    | with_reducible refine keeps_next.2 ?_
    | with_reducible apply State.seqDo_good
    | with_reducible apply State.seqPut_good
    | with_reducible intro _

theorem execCput_keeps (h : Good k s) (a0) : Keeps k (execCput a0 s) := by
  unfold execCput
  repeat' first
    | with_reducible assumption
    | with_reducible refine keeps_next.2 ?_
    | with_reducible apply State.seqDo_good
    | with_reducible apply State.seqNext_good
    | with_reducible apply State.setSeqCard_good
    | simp only
    | with_reducible intro _

theorem execCclr_keeps (h : Good k s) (a0) : Keeps k (execCclr a0 s) := by
  unfold execCclr
  repeat' first
    | with_reducible assumption
    | with_reducible refine keeps_next.2 ?_
    | with_reducible apply State.seqDo_good
    | with_reducible apply State.seqNext_good
    | with_reducible apply State.setOrigin_good
    | with_reducible apply State.setSeqCard_good
    | split
    | with_reducible intro _

theorem execCcopy_keeps (h : Good k s) (a0) : Keeps k (execCcopy a0 s) := by
  unfold execCcopy
  repeat' first
    | with_reducible assumption
    | with_reducible refine keeps_next.2 ?_
    | with_reducible apply State.seqDo_good
    | with_reducible apply State.seqNext_good
    | with_reducible apply State.setOrigin_good
    | with_reducible apply State.setSeqCard_good
    | split
    | with_reducible intro _

theorem execQflush_keeps (h : Good k s) (a0) : Keeps k (execQflush a0 s) := by
  unfold execQflush
  repeat' first
    | with_reducible assumption
    | with_reducible refine keeps_next.2 ?_
    | with_reducible apply State.seqDo_good
    | with_reducible apply State.seqNext_good
    | with_reducible apply State.flushQueue_good
    | with_reducible apply State.raise_good
    | simp only
    | split
    | with_reducible intro _

theorem execRxdeq_keeps (h : Good k s) (a0) : Keeps k (execRxdeq a0 s) := by
  unfold execRxdeq
  repeat' first
    | with_reducible assumption
    | with_reducible refine keeps_next.2 ?_
    | with_reducible apply State.seqDo_good
    | with_reducible apply State.stageFault_good
    | with_reducible apply State.seqPut_good
    | with_reducible apply State.setRx_good
    | with_reducible apply State.setOrigin_good
    | with_reducible apply State.setSeqCard_good
    | simp only
    | split
    | with_reducible intro _

theorem execRxdrop_keeps (h : Good k s) (a0) : Keeps k (execRxdrop a0 s) := by
  unfold execRxdrop
  repeat' first
    | with_reducible assumption
    | with_reducible refine keeps_next.2 ?_
    | with_reducible apply State.seqDo_good
    | with_reducible apply State.stageFault_good
    | with_reducible apply State.seqNext_good
    | with_reducible apply State.rxDrop_good
    | simp only
    | split
    | with_reducible intro _

theorem execDisp_keeps (h : Good k s) (a0) : Keeps k (execDisp a0 s) := by
  unfold execDisp
  repeat' first
    | with_reducible assumption
    | with_reducible refine keeps_next.2 ?_
    | with_reducible apply State.seqDo_good
    | with_reducible apply State.stageFault_good
    | with_reducible apply State.offer_good
    | with_reducible apply State.seqPut_good
    | simp only
    | split
    | with_reducible intro _

theorem execTbind_keeps (h : Good k s) (a0) : Keeps k (execTbind a0 s) := by
  unfold execTbind
  repeat' first
    | with_reducible assumption
    | with_reducible refine keeps_next.2 ?_
    | with_reducible refine good_ite ?_ ?_
    | with_reducible apply State.memRead_good
    | with_reducible apply State.seqLost_good
    | with_reducible apply State.seqNext_good
    | with_reducible apply State.seqDo_good
    | with_reducible apply State.seqHold_good
    | with_reducible apply State.raise_good
    | with_reducible apply State.stageFault_good
    | with_reducible apply State.seqBytes_good
    | with_reducible apply State.modSeq_good
    | with_reducible refine good_of_pair (by assumption) ?_
    | split
    | with_reducible intro _

theorem execTnext_keeps (h : Good k s) (a0 a1) : Keeps k (execTnext a0 a1 s) := by
  unfold execTnext
  repeat' first
    | with_reducible assumption
    | with_reducible refine keeps_next.2 ?_
    | with_reducible apply State.memRead_good
    | with_reducible apply State.seqLost_good
    | with_reducible apply State.seqNext_good
    | with_reducible apply State.seqDo_good
    | with_reducible apply State.setSeqCard_good
    | with_reducible apply State.seqHold_good
    | with_reducible apply State.stageFault_good
    | with_reducible apply State.memUpset_good
    | with_reducible apply State.seqPut_good
    | with_reducible apply State.setOrigin_good
    | with_reducible apply State.scheduleEnd_good
    | with_reducible apply State.seqBytes_good
    | with_reducible apply State.modSeq_good
    | simp only
    | split
    | with_reducible intro _

theorem execJlink_keeps (h : Good k s) (a0) : Keeps k (execJlink a0 s) := by
  unfold execJlink
  repeat' first
    | with_reducible assumption
    | with_reducible refine keeps_next.2 ?_
    | with_reducible apply State.seqDo_good
    | with_reducible apply State.stageFault_good
    | with_reducible apply State.seqNext_good
    | with_reducible apply State.setSeqCard_good
    | simp only
    | split
    | with_reducible intro _

theorem execPwin_keeps (h : Good k s) (a0) : Keeps k (execPwin a0 s) := by
  unfold execPwin
  repeat' first
    | with_reducible assumption
    | with_reducible refine keeps_next.2 ?_
    | with_reducible apply State.seqDo_good
    | with_reducible apply State.seqNext_good
    | with_reducible apply State.stageFault_good
    | simp only [↓good_upd]
    | split
    | with_reducible intro _

@[simp ↓] theorem State.slotRequest_good (h : Good k s) (a1 a2) : Good k (State.slotRequest s a1 a2) := by
  unfold State.slotRequest
  dsimp only
  simp +contextual (maxDischargeDepth := 100) only [h, ↓good_ite, ↓State.toChip_good, ↓State.sendPkt_good]

theorem execXreq_keeps (h : Good k s) (a0) : Keeps k (execXreq a0 s) := by
  unfold execXreq
  repeat' first
    | with_reducible assumption
    | with_reducible apply State.advanceTo_good
    | with_reducible refine keeps_next.2 ?_
    | with_reducible apply State.seqDo_good
    | with_reducible apply State.stageFault_good
    | with_reducible apply State.setSlot_good
    | with_reducible apply State.setFld_good
    | with_reducible apply State.seqNext_good
    | with_reducible apply State.slotRequest_good
    | with_reducible apply State.setSlotState_good
    | simp only
    | split
    | with_reducible intro _

theorem execXstat_keeps (h : Good k s) (a0) : Keeps k (execXstat a0 s) := by
  unfold execXstat
  repeat' first
    | with_reducible assumption
    | with_reducible refine keeps_next.2 ?_
    | with_reducible apply State.seqDo_good
    | with_reducible apply State.seqPut_good
    | with_reducible intro _

@[simp ↓] theorem State.sendLead_good (h : Good k s) (a1 a2) : Good k (State.sendLead s a1 a2) := by
  unfold State.sendLead
  repeat' first
    | with_reducible assumption
    | with_reducible refine good_ite ?_ ?_
    | with_reducible apply State.sendXfer_good

theorem execXmove_keeps (h : Good k s) (a0 a1) : Keeps k (execXmove a0 a1 s) := by
  unfold execXmove
  simp +contextual (maxDischargeDepth := 50) [h]

theorem execXbind_keeps (h : Good k s) (a0) : Keeps k (execXbind a0 s) := by
  unfold execXbind
  repeat' first
    | with_reducible assumption
    | with_reducible refine keeps_next.2 ?_
    | with_reducible apply State.seqDo_good
    | with_reducible apply State.stageFault_good
    | with_reducible apply State.setSlotState_good
    | with_reducible apply State.setSlot_good
    | with_reducible apply State.seqNext_good
    | with_reducible apply State.sendLead_good
    | simp only
    | split
    | with_reducible intro _

theorem execXdone_keeps (h : Good k s) (a0) : Keeps k (execXdone a0 s) := by
  unfold execXdone
  repeat' first
    | with_reducible assumption
    | with_reducible refine keeps_next.2 ?_
    | with_reducible apply State.seqDo_good
    | with_reducible apply State.setSlot_good
    | with_reducible apply State.modSeq_good
    | with_reducible apply State.seqHold_good
    | with_reducible apply State.xdoneTry_good
    | with_reducible apply State.stageFault_good
    | simp only
    | split
    | with_reducible intro _

theorem execXfree_keeps (h : Good k s) (a0) : Keeps k (execXfree a0 s) := by
  unfold execXfree
  repeat' first
    | with_reducible assumption
    | with_reducible refine keeps_next.2 ?_
    | with_reducible apply State.seqDo_good
    | with_reducible apply State.seqNext_good
    | with_reducible apply State.setSlotState_good
    | with_reducible apply State.setSlot_good
    | with_reducible apply State.stageFault_good
    | simp only
    | split
    | with_reducible intro _

theorem execCrel_keeps (h : Good k s) (a0) : Keeps k (execCrel a0 s) := by
  unfold execCrel
  repeat' first
    | with_reducible assumption
    | with_reducible refine keeps_next.2 ?_
    | with_reducible apply State.seqDo_good
    | with_reducible apply State.stageFault_good
    | with_reducible apply State.seqNext_good
    | with_reducible apply State.raise_good
    | with_reducible apply State.releaseSlots_good
    | simp only
    | split
    | with_reducible intro _

theorem execXcard_keeps (h : Good k s) (a0) : Keeps k (execXcard a0 s) := by
  unfold execXcard
  repeat' first
    | with_reducible assumption
    | with_reducible refine keeps_next.2 ?_
    | with_reducible apply State.seqDo_good
    | with_reducible apply State.stageFault_good
    | with_reducible apply State.toChip_good
    | with_reducible apply State.account_good
    | with_reducible apply State.sendPkt_good
    | with_reducible apply State.seqNext_good
    | simp only
    | split
    | with_reducible intro _

@[simp ↓] theorem State.seqStart_good (h : Good k s) (a1) : Good k (State.seqStart s a1) := by
  unfold State.seqStart
  dsimp only
  simp +contextual (maxDischargeDepth := 100) only [h, ↓State.setSeq_good, ↓State.clearRegs_good, ↓State.setG_good, ↓State.setSeqPc_good]

@[simp ↓] theorem State.seqRun_good (h : Good k s) (a1) : Good k (State.seqRun s a1) := by
  unfold State.seqRun
  dsimp only
  simp +contextual (maxDischargeDepth := 100) only [h, ↓good_ite, ↓State.seqStart_good, ↓State.setSeqState_good, ↓State.setBit_good]

@[simp ↓] theorem State.seqStop_good (h : Good k s) (a1) : Good k (State.seqStop s a1) := by
  unfold State.seqStop
  dsimp only
  simp +contextual (maxDischargeDepth := 100) only [h, ↓good_ite, ↓State.setBit_good, ↓State.modSeq_good, ↓State.setSeqState_good]

theorem execRun_keeps (h : Good k s) (a0) : Keeps k (execRun a0 s) := by
  unfold execRun
  repeat' first
    | with_reducible assumption
    | with_reducible refine keeps_next.2 ?_
    | with_reducible apply State.seqRun_good

theorem execRunClear_keeps (h : Good k s) (a0) : Keeps k (execRunClear a0 s) := by
  unfold execRunClear
  repeat' first
    | with_reducible assumption
    | with_reducible refine keeps_next.2 ?_
    | with_reducible apply State.seqStop_good

theorem execXtimeout_keeps (h : Good k s) (a0 a1) : Keeps k (execXtimeout a0 a1 s) := by
  unfold execXtimeout
  repeat' first
    | with_reducible assumption
    | with_reducible refine good_ite ?_ ?_
    | with_reducible refine keeps_next.2 ?_
    | with_reducible apply State.advanceTo_good
    | with_reducible apply State.setSlotState_good
    | with_reducible apply State.setSlot_good

@[simp ↓] theorem State.closeSlot_good (h : Good k s) (a1 a2) : Good k (State.closeSlot s a1 a2) := by
  unfold State.closeSlot
  repeat' first
    | with_reducible assumption
    | with_reducible refine good_ite ?_ ?_
    | with_reducible apply State.settleWaits_good
    | with_reducible apply State.setSlotState_good
    | with_reducible apply State.setSlot_good
    | with_reducible apply State.closeTry_good

@[simp ↓] theorem State.closeSlots_good (h : Good k s) (a1) : Good k (State.closeSlots s a1) := by
  unfold State.closeSlots
  repeat' first
    | with_reducible assumption
    | with_reducible refine good_ite ?_ ?_
    | with_reducible refine good_foldl ?_ (fun _ _ _ => ?_)
    | with_reducible apply State.closeSlot_good

end Sys2Proof.Machine
end

