-- ==== Sys2Proof/Laws/KeepContexts.lean ====
section
/-! SUPPORT. What every operation of Machine/Contexts.lean keeps (Laws/Good.lean). -/

namespace Sys2Proof.Machine

variable {k : Key} {s t : State}

@[simp ↓] theorem State.ctxErr_good (h : Good k s)  : Good k (State.ctxErr s) := by
  unfold State.ctxErr
  repeat' first
    | with_reducible assumption
    | with_reducible apply State.intEvent_good

@[simp ↓] theorem State.ctxCreate_good (h : Good k s) (a1) : Good k (State.ctxCreate s a1) := by
  unfold State.ctxCreate
  dsimp only
  simp +contextual (maxDischargeDepth := 100) only [h, ↓good_ite, ↓good_mk, Good.pend, Good.fuses, Good.mem, Good.spad, Good.regs, and_self, ↓State.clearRegs_good, ↓State.wr_good, ↓State.setCtxState_good, ↓State.ctxErr_good]

@[simp ↓] theorem State.ctxResume_good (h : Good k s) (a1) : Good k (State.ctxResume s a1) := by
  unfold State.ctxResume
  repeat' first
    | with_reducible assumption
    | with_reducible refine good_ite ?_ ?_
    | with_reducible apply State.setCtxState_good
    | with_reducible apply State.ctxErr_good

@[simp ↓] theorem State.ctxHalt_good (h : Good k s) (a1) : Good k (State.ctxHalt s a1) := by
  unfold State.ctxHalt
  repeat' first
    | with_reducible assumption
    | with_reducible refine good_ite ?_ ?_
    | with_reducible apply State.stopSeqs_good
    | with_reducible apply State.setCtxState_good
    | with_reducible apply State.ctxErr_good

@[simp ↓] theorem State.ctxTeardown_good (h : Good k s) (a1) : Good k (State.ctxTeardown s a1) := by
  unfold State.ctxTeardown
  repeat' first
    | with_reducible assumption
    | with_reducible refine good_ite ?_ ?_
    | with_reducible apply State.tearSettle_good
    | with_reducible apply State.closeSlots_good
    | with_reducible apply State.raise_good
    | with_reducible apply State.ctxErr_good

@[simp ↓] theorem State.ctxSpill_good (h : Good k s) (a1) : Good k (State.ctxSpill s a1) := by
  unfold State.ctxSpill
  dsimp only
  simp +contextual (maxDischargeDepth := 100) only [h, ↓good_ite, ↓good_foldl, ↓good_mk, Good.pend, Good.fuses, Good.mem, Good.spad, Good.regs, and_self, implies_true, ↓State.wr_good, ↓State.setCtxState_good, ↓State.ctxErr_good]

@[simp ↓] theorem State.ctxRestore_good (h : Good k s) (a1) : Good k (State.ctxRestore s a1) := by
  unfold State.ctxRestore
  repeat' first
    | with_reducible assumption
    | with_reducible refine good_ite ?_ ?_
    | with_reducible apply State.setCtxState_good
    | with_reducible apply State.ctxErr_good

@[simp ↓] theorem State.returnGranule_good (h : Good k s) (a1) : Good k (State.returnGranule s a1) := by
  unfold State.returnGranule
  repeat' first
    | with_reducible assumption
    | with_reducible apply State.granuleWrite_good

@[simp ↓] theorem State.ctxRelease_good (h : Good k s) (a1) : Good k (State.ctxRelease s a1) := by
  unfold State.ctxRelease
  dsimp only
  simp +contextual (maxDischargeDepth := 100) only [h, ↓good_ite, ↓good_foldl, ↓good_mk, Good.pend, Good.fuses, Good.mem, Good.spad, Good.regs, and_self, implies_true, ↓State.setSeqState_good, ↓State.setSeq_good, ↓State.withdraw_good, ↓State.returnGranule_good, ↓State.setBit_good, ↓State.setCtxState_good, ↓State.ctxErr_good]

@[simp ↓] theorem State.ctxCommand_good (h : Good k s) (a1 a2) : Good k (State.ctxCommand s a1 a2) := by
  unfold State.ctxCommand
  repeat' first
    | with_reducible assumption
    | with_reducible refine good_ite ?_ ?_
    | with_reducible apply State.ctxErr_good
    | with_reducible apply State.ctxCreate_good
    | with_reducible apply State.ctxResume_good
    | with_reducible apply State.ctxHalt_good
    | with_reducible apply State.ctxTeardown_good
    | with_reducible apply State.ctxSpill_good
    | with_reducible apply State.ctxRestore_good
    | with_reducible apply State.ctxRelease_good
    | split

theorem execCreate_keeps (h : Good k s) (a0) : Keeps k (execCreate a0 s) := by
  unfold execCreate
  repeat' first
    | with_reducible assumption
    | with_reducible refine keeps_next.2 ?_
    | with_reducible apply State.ctxCommand_good

theorem execResumeCtx_keeps (h : Good k s) (a0) : Keeps k (execResumeCtx a0 s) := by
  unfold execResumeCtx
  repeat' first
    | with_reducible assumption
    | with_reducible refine keeps_next.2 ?_
    | with_reducible apply State.ctxCommand_good

theorem execHaltCtx_keeps (h : Good k s) (a0) : Keeps k (execHaltCtx a0 s) := by
  unfold execHaltCtx
  repeat' first
    | with_reducible assumption
    | with_reducible refine keeps_next.2 ?_
    | with_reducible apply State.ctxCommand_good

theorem execTeardown_keeps (h : Good k s) (a0) : Keeps k (execTeardown a0 s) := by
  unfold execTeardown
  repeat' first
    | with_reducible assumption
    | with_reducible refine keeps_next.2 ?_
    | with_reducible apply State.ctxCommand_good

theorem execSpill_keeps (h : Good k s) (a0) : Keeps k (execSpill a0 s) := by
  unfold execSpill
  repeat' first
    | with_reducible assumption
    | with_reducible refine keeps_next.2 ?_
    | with_reducible apply State.ctxCommand_good

theorem execRestore_keeps (h : Good k s) (a0) : Keeps k (execRestore a0 s) := by
  unfold execRestore
  repeat' first
    | with_reducible assumption
    | with_reducible refine keeps_next.2 ?_
    | with_reducible apply State.ctxCommand_good

theorem execRelease_keeps (h : Good k s) (a0) : Keeps k (execRelease a0 s) := by
  unfold execRelease
  repeat' first
    | with_reducible assumption
    | with_reducible refine keeps_next.2 ?_
    | with_reducible apply State.ctxCommand_good

@[simp ↓] theorem State.haltReached_good (h : Good k s) (a1) : Good k (State.haltReached s a1) := by
  unfold State.haltReached
  dsimp only
  simp +contextual (maxDischargeDepth := 100) only [h, ↓State.setCtxState_good, ↓State.setBit_good, ↓State.raise_good]

theorem execCtxHalted_keeps (h : Good k s) (a0) : Keeps k (execCtxHalted a0 s) := by
  unfold execCtxHalted
  repeat' first
    | with_reducible assumption
    | with_reducible refine good_ite ?_ ?_
    | with_reducible refine keeps_ite ?_ ?_
    | with_reducible refine keeps_next.2 ?_
    | with_reducible apply State.withdraw_good
    | with_reducible apply State.closeSlots_good
    | with_reducible apply State.repairEnd_good
    | with_reducible apply State.haltReached_good
    | with_reducible apply State.setFld_good

@[simp ↓] theorem State.spillAbort_good (h : Good k s) (a1 a2) : Good k (State.spillAbort s a1 a2) := by
  unfold State.spillAbort
  repeat' first
    | with_reducible assumption
    | with_reducible apply State.raise_good
    | with_reducible apply State.intEvent_good
    | with_reducible apply State.setCtxState_good

@[simp ↓] theorem State.accountMove_good (h : Good k s) (a1) : Good k (State.accountMove s a1) := by
  unfold State.accountMove
  dsimp only
  simp +contextual (maxDischargeDepth := 100) only [h, ↓State.globalEvent_good, ↓State.account_good]

@[simp ↓] theorem State.spillWrite_good (h : Good k s) (a1 a2) : Good k (State.spillWrite s a1 a2) := by
  unfold State.spillWrite
  dsimp only
  simp +contextual (maxDischargeDepth := 100) only [h, ↓good_mk, Good.pend, Good.fuses, Good.mem, Good.spad, Good.regs, and_self, ↓State.memRead_good]

@[simp ↓] theorem State.spillOut_good (h : Good k s) (a1) : Good k (State.spillOut s a1) := by
  unfold State.spillOut
  dsimp only
  simp +contextual (maxDischargeDepth := 100) only [h, ↓good_foldl, implies_true, ↓State.spillWrite_good]

theorem execSpillDone_keeps (h : Good k s) (a0 a1) : Keeps k (execSpillDone a0 a1 s) := by
  unfold execSpillDone
  repeat' first
    | with_reducible assumption
    | with_reducible refine keeps_ite ?_ ?_
    | with_reducible refine keeps_next.2 ?_
    | with_reducible refine good_foldl ?_ (fun _ _ _ => ?_)
    | with_reducible apply State.spillOut_good
    | with_reducible apply State.accountMove_good
    | with_reducible apply State.returnGranule_good
    | with_reducible apply State.setCtxState_good
    | with_reducible apply State.spillAbort_good

@[simp ↓] theorem State.restoreAbort_good (h : Good k s) (a1) : Good k (State.restoreAbort s a1) := by
  unfold State.restoreAbort
  dsimp only
  simp +contextual (maxDischargeDepth := 100) only [h, ↓good_foldl, implies_true, ↓State.spillAbort_good, ↓State.setBit_good, ↓State.zeroGranule_good]

theorem execRestoreDone_keeps (h : Good k s) (a0 a1 a2) : Keeps k (execRestoreDone a0 a1 a2 s) := by
  unfold execRestoreDone
  repeat' first
    | with_reducible assumption
    | with_reducible refine keeps_ite ?_ ?_
    | with_reducible refine keeps_next.2 ?_
    | with_reducible refine good_foldl ?_ (fun _ _ _ => ?_)
    | with_reducible apply State.accountMove_good
    | with_reducible apply State.memWrite_good
    | with_reducible apply State.setCtxState_good
    | with_reducible apply State.restoreAbort_good

@[simp ↓] theorem State.addEnergy_good (h : Good k s) (a1 a2) : Good k (State.addEnergy s a1 a2) := by
  unfold State.addEnergy
  dsimp only
  simp +contextual (maxDischargeDepth := 100) only [h, ↓good_ite, ↓good_mk, Good.pend, Good.fuses, Good.mem, Good.spad, Good.regs, and_self, ↓State.account_good, ↓State.count64_good]

@[simp ↓] theorem State.shareEnergy_good (h : Good k s) (a1 a2) : Good k (State.shareEnergy s a1 a2) := by
  unfold State.shareEnergy
  dsimp only
  simp +contextual (maxDischargeDepth := 100) only [h, ↓good_ite, ↓good_foldl, ↓good_mk, Good.pend, Good.fuses, Good.mem, Good.spad, Good.regs, and_self, implies_true, ↓State.addEnergy_good]

theorem execEnergyApportion_keeps (h : Good k s) (a0) : Keeps k (execEnergyApportion a0 s) := by
  unfold execEnergyApportion
  repeat' first
    | with_reducible assumption
    | with_reducible refine keeps_next.2 ?_
    | with_reducible refine good_foldl ?_ (fun _ _ _ => ?_)
    | with_reducible apply State.shareEnergy_good

end Sys2Proof.Machine
end

