-- ==== Sys2Proof/Laws/KeepHostRings.lean ====
section
/-! SUPPORT. What every operation of Machine/HostRings.lean keeps (Laws/Good.lean). -/

namespace Sys2Proof.Machine

variable {k : Key} {s t : State}

@[simp ↓] theorem State.ringOff_good (h : Good k s) (a1) : Good k (State.ringOff s a1) := by
  unfold State.ringOff
  repeat' first
    | with_reducible assumption
    | with_reducible apply State.setBit_good
    | with_reducible apply State.setFld_good
    | with_reducible apply State.evictLeaving_good
    | with_reducible apply State.modRing_good
    | with_reducible apply good_modHost

@[simp ↓] theorem State.ringBad_good (h : Good k s) (a1 a2) : Good k (State.ringBad s a1 a2) := by
  unfold State.ringBad
  repeat' first
    | with_reducible assumption
    | with_reducible apply State.hostRaise_good
    | with_reducible apply State.intEvent_good
    | with_reducible apply State.ringOff_good
    | with_reducible apply State.setBit_good

@[simp ↓] theorem State.writeLine_good (h : Good k s) (a1 a2 a3 a4) : Good k (State.writeLine s a1 a2 a3 a4) := by
  unfold State.writeLine
  repeat' first
    | with_reducible assumption
    | with_reducible refine good_ite ?_ ?_
    | with_reducible apply State.putLine_good
    | with_reducible apply State.cxlAsk_good
    | with_reducible apply State.hostPost_good
    | split

@[simp ↓] theorem State.writeIndex_good (h : Good k s) (a1) : Good k (State.writeIndex s a1) := by
  unfold State.writeIndex
  repeat' first
    | with_reducible assumption
    | with_reducible apply State.writeLine_good
    | with_reducible apply State.modRing_good

@[simp ↓] theorem State.handled_good (h : Good k s) (a1) : Good k (State.handled s a1) := by
  unfold State.handled
  dsimp only
  simp +contextual (maxDischargeDepth := 100) only [h, ↓good_ite, ↓State.modRing_good, ↓State.writeIndex_good]

theorem execRingIndexWrite_keeps (h : Good k s) (a0) : Keeps k (execRingIndexWrite a0 s) := by
  unfold execRingIndexWrite
  repeat' first
    | with_reducible assumption
    | with_reducible refine good_ite ?_ ?_
    | with_reducible refine keeps_next.2 ?_
    | with_reducible apply State.writeIndex_good

@[simp ↓] theorem State.afterOffer_good (h : Good k s) (a1 a2 a3 a4 a5) (hf : ∀ st, Good k st → Good k (a5 st )) : Good k (State.afterOffer s a1 a2 a3 a4 a5) := by
  unfold State.afterOffer
  repeat' first
    | with_reducible assumption
    | with_reducible apply hf
    | with_reducible apply State.modRing_good
    | with_reducible apply State.setBit_good
    | with_reducible apply State.handled_good
    | with_reducible apply State.account_good
    | split

@[simp ↓] theorem State.offerCards_good (h : Good k s) (a1 a2) : Good k (State.offerCards s a1 a2) := by
  induction a2 generalizing s with
  | nil => exact State.modRing_good h _ _
  | cons c cs ih =>
    unfold State.offerCards
    exact State.afterOffer_good (State.offer_good h _ _ _ _) _ _ _ _ _ fun st hs => ih hs

@[simp ↓] theorem State.readCards_good (h : Good k s) (a1) : Good k (State.readCards s a1) := by
  unfold State.readCards
  repeat' first
    | with_reducible assumption
    | with_reducible refine good_ite ?_ ?_
    | with_reducible refine good_foldl ?_ (fun _ _ _ => ?_)
    | with_reducible apply State.modRing_good
    | with_reducible apply State.cxlAsk_good
    | with_reducible apply State.hostRead_good
    | with_reducible refine good_of_some (by assumption) ?_
    | simp only
    | split

@[simp ↓] theorem State.offerMore_good (h : Good k s) (a1 a2) : Good k (State.offerMore s a1 a2) := by
  unfold State.offerMore
  dsimp only
  simp +contextual (maxDischargeDepth := 100) only [h, ↓good_ite, ↓State.offerCards_good, ↓State.readCards_good]

theorem execH2dCardRetry_keeps (h : Good k s) (a0) : Keeps k (execH2dCardRetry a0 s) := by
  unfold execH2dCardRetry
  repeat' first
    | with_reducible assumption
    | with_reducible refine good_ite ?_ ?_
    | with_reducible refine keeps_next.2 ?_
    | with_reducible apply State.offerMore_good

@[simp ↓] theorem State.hostIndex_good (h : Good k s) (a1 a2) : Good k (State.hostIndex s a1 a2) := by
  unfold State.hostIndex
  dsimp only
  simp +contextual (maxDischargeDepth := 100) only [h, ↓good_ite, ↓State.modRing_good, ↓State.ringBad_good, ↓State.readCards_good]

@[simp ↓] theorem State.readIndex_good (h : Good k s) (a1) : Good k (State.readIndex s a1) := by
  unfold State.readIndex
  repeat' first
    | with_reducible assumption
    | with_reducible refine good_ite ?_ ?_
    | with_reducible apply State.modRing_good
    | with_reducible apply State.setBit_good
    | with_reducible apply State.cxlAsk_good
    | with_reducible apply State.hostRead_good
    | with_reducible refine good_of_some (by assumption) ?_
    | split

theorem execRingIndexRead_keeps (h : Good k s) (a0) : Keeps k (execRingIndexRead a0 s) := by
  unfold execRingIndexRead
  repeat' first
    | with_reducible assumption
    | with_reducible refine keeps_next.2 ?_
    | with_reducible apply State.readIndex_good

@[simp ↓] theorem State.doorbell_good (h : Good k s) (a1) : Good k (State.doorbell s a1) := by
  unfold State.doorbell
  repeat' first
    | with_reducible assumption
    | with_reducible refine good_ite ?_ ?_
    | with_reducible apply State.setBit_good

theorem execDoorbell_keeps (h : Good k s) (a0) : Keeps k (execDoorbell a0 s) := by
  unfold execDoorbell
  repeat' first
    | with_reducible assumption
    | with_reducible refine good_ite ?_ ?_
    | with_reducible refine keeps_next.2 ?_
    | with_reducible apply State.doorbell_good

@[simp ↓] theorem State.ringSignal_good (h : Good k s) (a1) : Good k (State.ringSignal s a1) := by
  unfold State.ringSignal
  repeat' first
    | with_reducible assumption
    | with_reducible refine good_ite ?_ ?_
    | with_reducible apply State.msixSend_good
    | with_reducible apply State.modRing_good

@[simp ↓] theorem State.cardWritten_good (h : Good k s) (a1) : Good k (State.cardWritten s a1) := by
  unfold State.cardWritten
  dsimp only
  simp +contextual (maxDischargeDepth := 100) only [h, ↓good_ite, ↓State.modRing_good, ↓State.handled_good, ↓State.ringSignal_good]

@[simp ↓] theorem State.writeCard_good (h : Good k s) (a1 a2 a3) : Good k (State.writeCard s a1 a2 a3) := by
  unfold State.writeCard
  dsimp only
  simp +contextual (maxDischargeDepth := 100) only [h, ↓good_ite, ↓State.account_good, ↓State.writeLine_good, ↓State.modRing_good, ↓State.cardWritten_good]

theorem execD2hCard_keeps (h : Good k s) (a0 a1) : Keeps k (execD2hCard a0 a1 s) := by
  unfold execD2hCard
  repeat' first
    | with_reducible assumption
    | with_reducible refine keeps_next.2 ?_
    | with_reducible apply State.dequeue_good
    | with_reducible apply State.headUpset_good
    | with_reducible apply State.writeCard_good
    | with_reducible refine good_of_pair (by assumption) ?_
    | simp only [↓good_upd]
    | split

theorem execRingInterrupt_keeps (h : Good k s) (a0) : Keeps k (execRingInterrupt a0 s) := by
  unfold execRingInterrupt
  repeat' first
    | with_reducible assumption
    | with_reducible refine good_ite ?_ ?_
    | with_reducible refine keeps_next.2 ?_
    | with_reducible apply State.ringSignal_good
    | with_reducible apply State.advanceTo_good

@[simp ↓] theorem State.ringCfgWrite_good (h : Good k s) (a1 a2) : Good k (State.ringCfgWrite s a1 a2) := by
  unfold State.ringCfgWrite
  dsimp only
  simp +contextual (maxDischargeDepth := 100) only [h, ↓good_ite, ↓State.ringOff_good, ↓State.intEvent_good, ↓State.wr_good, ↓State.setRing_good, ↓State.setBit_good, ↓State.setFld_good]

theorem execRingEnable_keeps (h : Good k s) (a0 a1) : Keeps k (execRingEnable a0 a1 s) := by
  unfold execRingEnable
  repeat' first
    | with_reducible assumption
    | with_reducible refine keeps_next.2 ?_
    | with_reducible apply State.ringCfgWrite_good

@[simp ↓] theorem State.hostFailed_good (h : Good k s) (a1) : Good k (State.hostFailed s a1) := by
  unfold State.hostFailed
  dsimp only
  simp +contextual (maxDischargeDepth := 100) only [h, ↓good_ite, ↓State.respond_good, ↓State.setLoad_good, ↓State.modRing_good, ↓State.ringBad_good]

@[simp ↓] theorem State.hostDelivered_good (h : Good k s) (a1 a2) : Good k (State.hostDelivered s a1 a2) := by
  unfold State.hostDelivered
  repeat' first
    | with_reducible assumption
    | with_reducible refine good_ite ?_ ?_
    | with_reducible apply State.globalEvent_good
    | with_reducible apply State.loadMore_good
    | with_reducible apply State.modRing_good
    | with_reducible apply State.offerMore_good
    | with_reducible apply State.hostIndex_good
    | split

theorem execHostCompletion_keeps (h : Good k s) (a0 a1 a2 a3) : Keeps k (execHostCompletion a0 a1 a2 a3 s) := by
  unfold execHostCompletion
  repeat' first
    | with_reducible assumption
    | with_reducible refine good_ite ?_ ?_
    | with_reducible refine keeps_next.2 ?_
    | with_reducible apply good_modHost
    | with_reducible apply State.count_good
    | with_reducible apply State.hostFailed_good
    | with_reducible apply State.hostRaise_good
    | with_reducible apply State.intEvent_good
    | with_reducible apply State.closeHostTag_good
    | with_reducible apply State.hostDelivered_good
    | split

@[simp ↓] theorem State.tagTimeout_good (h : Good k s) (a1) : Good k (State.tagTimeout s a1) := by
  unfold State.tagTimeout
  repeat' first
    | with_reducible assumption
    | with_reducible refine good_ite ?_ ?_
    | with_reducible apply State.intEvent_good
    | with_reducible apply State.count_good
    | with_reducible apply State.quarantineTag_good
    | with_reducible apply State.hostFailed_good
    | with_reducible apply State.hostRaise_good
    | simp only
    | split

theorem execHostCplTimeout_keeps (h : Good k s) (a0) : Keeps k (execHostCplTimeout a0 s) := by
  unfold execHostCplTimeout
  repeat' first
    | with_reducible assumption
    | with_reducible refine keeps_next.2 ?_
    | with_reducible apply State.tagTimeout_good

theorem execRingReadRetry_keeps (h : Good k s) (a0) : Keeps k (execRingReadRetry a0 s) := by
  unfold execRingReadRetry
  repeat' first
    | with_reducible assumption
    | with_reducible refine good_ite ?_ ?_
    | with_reducible refine keeps_next.2 ?_
    | with_reducible apply State.modRing_good
    | with_reducible apply State.hostRead_good
    | with_reducible apply State.readCards_good
    | with_reducible refine good_of_some (by assumption) ?_
    | split

theorem execCxlCacheResponse_keeps (h : Good k s) (a0 a1 a2) : Keeps k (execCxlCacheResponse a0 a1 a2 s) := by
  unfold execCxlCacheResponse
  repeat' first
    | with_reducible assumption
    | with_reducible refine keeps_next.2 ?_
    | with_reducible refine good_ite ?_ ?_
    | with_reducible apply State.offerMore_good
    | with_reducible apply State.hostIndex_good
    | with_reducible apply State.cardWritten_good
    | with_reducible apply State.putLine_good
    | with_reducible apply State.modRing_good
    | with_reducible apply good_modHost
    | split

@[simp ↓] theorem State.snoopAnswer_good (h : Good k s) (a1 a2) : Good k (State.snoopAnswer s a1 a2) := by
  unfold State.snoopAnswer
  repeat' first
    | with_reducible assumption
    | with_reducible apply good_modHost

@[simp ↓] theorem State.snoop_good (h : Good k s) (a1 a2) : Good k (State.snoop s a1 a2) := by
  unfold State.snoop
  repeat' first
    | with_reducible assumption
    | with_reducible refine good_ite ?_ ?_
    | with_reducible apply State.snoopAnswer_good
    | with_reducible apply State.count_good
    | with_reducible apply State.putLine_good
    | with_reducible apply State.dropLine_good
    | split

theorem execSnpdata_keeps (h : Good k s) (a0) : Keeps k (execSnpdata a0 s) := by
  unfold execSnpdata
  repeat' first
    | with_reducible assumption
    | with_reducible refine keeps_next.2 ?_
    | with_reducible apply State.snoop_good

theorem execSnpinv_keeps (h : Good k s) (a0) : Keeps k (execSnpinv a0 s) := by
  unfold execSnpinv
  repeat' first
    | with_reducible assumption
    | with_reducible refine good_ite ?_ ?_
    | with_reducible refine keeps_next.2 ?_
    | with_reducible apply State.snoop_good
    | with_reducible apply State.doorbell_good
    | split

theorem execSnpcur_keeps (h : Good k s) (a0) : Keeps k (execSnpcur a0 s) := by
  unfold execSnpcur
  repeat' first
    | with_reducible assumption
    | with_reducible refine keeps_next.2 ?_
    | with_reducible apply State.snoop_good

@[simp ↓] theorem State.goEvict_good (h : Good k s) (a1 a2 a3) : Good k (State.goEvict s a1 a2 a3) := by
  unfold State.goEvict
  repeat' first
    | with_reducible assumption
    | with_reducible apply State.hostRaise_good
    | with_reducible apply State.evictLeaving_good
    | with_reducible apply State.cxlRetry_good
    | with_reducible apply good_modHost
    | with_reducible apply State.intEvent_good
    | split

theorem execGoWritepull_keeps (h : Good k s) (a0) : Keeps k (execGoWritepull a0 s) := by
  unfold execGoWritepull
  repeat' first
    | with_reducible assumption
    | with_reducible refine keeps_next.2 ?_
    | with_reducible apply State.goEvict_good

theorem execGoWritepulldrop_keeps (h : Good k s) (a0) : Keeps k (execGoWritepulldrop a0 s) := by
  unfold execGoWritepulldrop
  repeat' first
    | with_reducible assumption
    | with_reducible refine keeps_next.2 ?_
    | with_reducible apply State.goEvict_good

theorem execGoErrWritepull_keeps (h : Good k s) (a0) : Keeps k (execGoErrWritepull a0 s) := by
  unfold execGoErrWritepull
  repeat' first
    | with_reducible assumption
    | with_reducible refine keeps_next.2 ?_
    | with_reducible apply State.goEvict_good

@[simp ↓] theorem State.msixEntry_good (h : Good k s) (a1 a2) : Good k (State.msixEntry s a1 a2) := by
  unfold State.msixEntry
  dsimp only
  simp +contextual (maxDischargeDepth := 100) only [h, ↓good_ite, ↓good_modHost, ↓State.msixSend_good]

theorem execMsiXUnmask_keeps (h : Good k s) (a0 a1) : Keeps k (execMsiXUnmask a0 a1 s) := by
  unfold execMsiXUnmask
  repeat' first
    | with_reducible assumption
    | with_reducible refine good_ite ?_ ?_
    | with_reducible refine keeps_next.2 ?_
    | with_reducible apply State.msixEntry_good

theorem execHostLinkUp_keeps (h : Good k s) (a0 a1 a2) : Keeps k (execHostLinkUp a0 a1 a2 s) := by
  unfold execHostLinkUp
  repeat' first
    | with_reducible assumption
    | with_reducible refine good_ite ?_ ?_
    | with_reducible refine keeps_next.2 ?_
    | with_reducible apply State.wr_good
    | with_reducible apply State.intEvent_good

@[simp ↓] theorem State.linkDown_good (h : Good k s)  : Good k (State.linkDown s) := by
  unfold State.linkDown
  repeat' first
    | with_reducible assumption
    | with_reducible refine good_ite ?_ ?_
    | with_reducible refine good_foldl ?_ (fun _ _ _ => ?_)
    | with_reducible apply State.intEvent_good
    | with_reducible apply State.wr_good
    | with_reducible apply State.tagTimeout_good
    | with_reducible apply good_modHost
    | with_reducible apply State.ringOff_good
    | with_reducible apply State.spillAbort_good
    | with_reducible apply State.restoreAbort_good
    | with_reducible apply State.ckptFail_good
    | with_reducible apply State.hostRaise_good
    | split

theorem execHostLinkDown_keeps (h : Good k s)  : Keeps k (execHostLinkDown s) := by
  unfold execHostLinkDown
  repeat' first
    | with_reducible assumption
    | with_reducible refine keeps_next.2 ?_
    | with_reducible apply State.linkDown_good

end Sys2Proof.Machine
end

