-- ==== Sys2Proof/Laws/KeepLinks.lean ====
section
/-! SUPPORT. What every operation of Machine/Links.lean keeps (Laws/Good.lean). -/

namespace Sys2Proof.Machine

variable {k : Key} {s t : State}

@[simp ↓] theorem State.linkRaise_good (h : Good k s) (a1 a2 a3) : Good k (State.linkRaise s a1 a2 a3) := by
  unfold State.linkRaise
  dsimp only
  simp +contextual (maxDischargeDepth := 100) only [h, ↓State.raise_good]

@[simp ↓] theorem State.setPortState_good (h : Good k s) (a1 a2) : Good k (State.setPortState s a1 a2) := by
  unfold State.setPortState
  dsimp only
  simp +contextual (maxDischargeDepth := 100) only [h, ↓good_ite, ↓State.intEvent_good, ↓State.setFld_good, ↓State.modPort_good, ↓good_modFab, ↓State.fenceFrom_good, ↓State.sendRollcall_good, ↓State.linkRaise_good]

@[simp ↓] theorem State.sendLink_good (h : Good k s) (a1 a2) : Good k (State.sendLink s a1 a2) := by
  unfold State.sendLink
  repeat' first
    | with_reducible assumption
    | with_reducible apply State.modPort_good

@[simp ↓] theorem State.setMask_good (h : Good k s) (a1 a2) : Good k (State.setMask s a1 a2) := by
  unfold State.setMask
  repeat' first
    | with_reducible assumption
    | with_reducible apply State.setBit_good
    | with_reducible apply State.setFld_good

@[simp ↓] theorem State.failAttempt_good (h : Good k s) (a1) : Good k (State.failAttempt s a1) := by
  unfold State.failAttempt
  dsimp only
  simp +contextual (maxDischargeDepth := 100) only [h, ↓State.modPort_good, ↓State.setPortState_good]

@[simp ↓] theorem State.askRetryLink_good (h : Good k s) (a1 a2) : Good k (State.askRetryLink s a1 a2) := by
  unfold State.askRetryLink
  dsimp only
  simp +contextual (maxDischargeDepth := 100) only [h, ↓State.sendLink_good, ↓State.setPort_good]

@[simp ↓] theorem State.fullRetrain_good (h : Good k s) (a1) : Good k (State.fullRetrain s a1) := by
  unfold State.fullRetrain
  dsimp only
  simp +contextual (maxDischargeDepth := 100) only [h, ↓State.setPort_good, ↓State.setPortState_good]

@[simp ↓] theorem State.noteRetrain_good (h : Good k s) (a1) : Good k (State.noteRetrain s a1) := by
  unfold State.noteRetrain
  repeat' first
    | with_reducible assumption
    | with_reducible apply State.modLedger_good
    | with_reducible apply State.count_good

@[simp ↓] theorem State.startRetrain_good (h : Good k s) (a1 a2) : Good k (State.startRetrain s a1 a2) := by
  unfold State.startRetrain
  dsimp only
  simp +contextual (maxDischargeDepth := 100) only [h, ↓good_ite, ↓State.noteRetrain_good, ↓State.sendLink_good, ↓State.setPortState_good, ↓State.modPort_good, ↓State.fullRetrain_good]

@[simp ↓] theorem State.startDrain_good (h : Good k s) (a1 a2) : Good k (State.startDrain s a1 a2) := by
  unfold State.startDrain
  repeat' first
    | with_reducible assumption
    | with_reducible refine good_ite ?_ ?_
    | with_reducible apply State.modPort_good
    | with_reducible apply State.sendLink_good

@[simp ↓] theorem State.flitFields_good (h : Good k s) (a1 a2) : Good k (State.flitFields s a1 a2) := by
  unfold State.flitFields
  dsimp only
  simp +contextual (maxDischargeDepth := 100) only [h, ↓State.modPort_good, ↓State.setFld_good]

@[simp ↓] theorem State.rxFlit_good (h : Good k s) (a1 a2 a3) : GoodIn k (fun x => x) (State.rxFlit s a1 a2 a3) := by
  unfold State.rxFlit
  repeat' first
    | with_reducible assumption
    | with_reducible refine goodIn_ite ?_ ?_
    | with_reducible refine goodIn_none
    | with_reducible refine goodIn_some.2 ?_
    | with_reducible apply State.flitFields_good

@[simp ↓] theorem State.rxLink_good (h : Good k s) (a1 a2 a3 a4) (hf : ∀ st x0, Good k st → Good k (a4 st x0)) : Good k (State.rxLink s a1 a2 a3 a4) := by
  unfold State.rxLink
  repeat' first
    | with_reducible assumption
    | with_reducible apply hf
    | with_reducible refine good_ite ?_ ?_
    | with_reducible apply State.rxFlit_good
    | with_reducible apply State.count_good
    | with_reducible refine good_of_some (by assumption) ?_
    | simp only
    | split

@[simp ↓] theorem State.enterConfig_good (h : Good k s) (a1) : Good k (State.enterConfig s a1) := by
  unfold State.enterConfig
  dsimp only
  simp +contextual (maxDischargeDepth := 100) only [h, ↓good_ite, ↓State.modPort_good, ↓State.setPortState_good]

@[simp ↓] theorem State.tryActive_good (h : Good k s) (a1) : Good k (State.tryActive s a1) := by
  unfold State.tryActive
  dsimp only
  simp +contextual (maxDischargeDepth := 100) only [h, ↓good_ite, ↓State.wr_good, ↓State.setPort_good, ↓State.setPortState_good, ↓State.linkRaise_good]

theorem execPortEnable_keeps (h : Good k s) (a0) : Keeps k (execPortEnable a0 s) := by
  unfold execPortEnable
  repeat' first
    | with_reducible assumption
    | with_reducible refine keeps_next.2 ?_
    | with_reducible apply State.modPort_good
    | with_reducible apply State.setFld_good
    | with_reducible apply State.setPortState_good
    | split

theorem execDetect_keeps (h : Good k s) (a0 a1) : Keeps k (execDetect a0 a1 s) := by
  unfold execDetect
  repeat' first
    | with_reducible assumption
    | with_reducible refine keeps_ite ?_ ?_
    | with_reducible refine keeps_next.2 ?_
    | with_reducible apply State.setPortState_good
    | with_reducible apply State.advanceTo_good

theorem execCalibrate_keeps (h : Good k s) (a0 a1) : Keeps k (execCalibrate a0 a1 s) := by
  unfold execCalibrate
  repeat' first
    | with_reducible assumption
    | with_reducible refine keeps_ite ?_ ?_
    | with_reducible refine keeps_next.2 ?_
    | with_reducible apply State.failAttempt_good
    | with_reducible apply State.setPortState_good
    | with_reducible apply State.setMask_good

theorem execAlign_keeps (h : Good k s) (a0 a1) : Keeps k (execAlign a0 a1 s) := by
  unfold execAlign
  repeat' first
    | with_reducible assumption
    | with_reducible refine keeps_ite ?_ ?_
    | with_reducible refine keeps_next.2 ?_
    | with_reducible apply State.failAttempt_good
    | with_reducible apply State.enterConfig_good
    | with_reducible apply State.setMask_good
    | with_reducible apply State.fullRetrain_good

@[simp ↓] theorem State.configFail_good (h : Good k s) (a1) : Good k (State.configFail s a1) := by
  unfold State.configFail
  repeat' first
    | with_reducible assumption
    | with_reducible refine good_ite ?_ ?_
    | with_reducible apply State.modPort_good
    | with_reducible apply State.linkRaise_good
    | with_reducible apply State.failAttempt_good
    | with_reducible apply State.setPortState_good
    | with_reducible apply State.fullRetrain_good

theorem execConfig_keeps (h : Good k s) (a0 a1) : Keeps k (execConfig a0 a1 s) := by
  unfold execConfig
  refine keeps_next.2 (State.rxLink_good h _ _ _ _ fun st b hs => good_ite hs ?_)
  extract_lets key mask peer s1 s2 m s3 s4
  have h1 : Good k s1 := State.wr_good hs _ _
  clear_value s1
  refine good_ite (State.setPortState_good (State.linkRaise_good h1 _ _ _) _ _)
    (good_ite (State.configFail_good h1 _) ?_)
  have h2 : Good k s2 := State.setBit_good h1 _ _ _
  clear_value s2
  have h3 : Good k s3 := good_ite h2 (State.setMask_good h2 _ _)
  clear_value s3
  have h4 : Good k s4 := State.sendLink_good (State.modPort_good h3 _ _) _ _
  clear_value s4
  exact State.tryActive_good h4 _

theorem execConfigAck_keeps (h : Good k s) (a0 a1) : Keeps k (execConfigAck a0 a1 s) := by
  unfold execConfigAck
  repeat' first
    | with_reducible assumption
    | with_reducible refine keeps_next.2 ?_
    | with_reducible apply State.rxLink_good
    | with_reducible apply State.tryActive_good
    | with_reducible apply State.modPort_good
    | split
    | with_reducible intro _

theorem execConfigTimeout_keeps (h : Good k s) (a0) : Keeps k (execConfigTimeout a0 s) := by
  unfold execConfigTimeout
  repeat' first
    | with_reducible assumption
    | with_reducible refine keeps_next.2 ?_
    | with_reducible refine keeps_ite ?_ ?_
    | with_reducible apply State.advanceTo_good
    | with_reducible apply State.failAttempt_good
    | with_reducible apply State.fullRetrain_good

@[simp ↓] theorem State.ackFields_good (h : Good k s) (a1) : Good k (State.ackFields s a1).2 := by
  unfold State.ackFields
  dsimp only
  simp +contextual (maxDischargeDepth := 100) only [h, ↓State.setPort_good]

@[simp ↓] theorem State.putOut_good (h : Good k s) (a1 a2) : Good k (State.putOut s a1 a2) := by
  unfold State.putOut
  repeat' first
    | with_reducible assumption
    | with_reducible apply State.modPort_good

@[simp ↓] theorem State.stamp_good (h : Good k s) (a1) : Good k (State.stamp s a1).1 := by
  unfold State.stamp
  repeat' first
    | with_reducible assumption
    | with_reducible apply State.modSync_good
    | split

@[simp ↓] theorem State.fillFlit_good (h : Good k s) (a1 a2 a3 a4 a5 a6) : Good k (State.fillFlit s a1 a2 a3 a4 a5 a6).1 := by
  induction a6 generalizing s a4 a5 with
  | zero => unfold State.fillFlit; first | exact h | simp [h]
  | succ f ih =>
    unfold State.fillFlit
    repeat' first
      | with_reducible assumption
      | (with_reducible apply ih)
      | with_reducible apply State.modPort_good
      | with_reducible apply State.stamp_good
      | simp only
      | split

@[simp ↓] theorem State.sendData_good (h : Good k s) (a1 a2 a3 a4) : Good k (State.sendData s a1 a2 a3 a4) := by
  unfold State.sendData
  repeat' first
    | with_reducible assumption
    | with_reducible apply State.fillFlit_good
    | with_reducible apply State.ackFields_good
    | with_reducible apply State.modPort_good
    | with_reducible apply State.setFld_good
    | with_reducible apply State.globalEvent_good
    | with_reducible apply State.putOut_good
    | simp only
    | split

@[simp ↓] theorem State.keyMissing_good (h : Good k s) (a1 a2) : Good k (State.keyMissing s a1 a2) := by
  unfold State.keyMissing
  dsimp only
  simp +contextual (maxDischargeDepth := 100) only [h, ↓good_ite, ↓State.modPort_good, ↓State.raise_good, ↓State.count_good, ↓State.tagOutcome_good, ↓State.freeTag_good]

@[simp ↓] theorem State.noteBulkWait_good (h : Good k s) (a1 a2) : Good k (State.noteBulkWait s a1 a2) := by
  unfold State.noteBulkWait
  dsimp only
  simp +contextual (maxDischargeDepth := 100) only [h, ↓State.modPort_good]

theorem execTransmitFlit_keeps (h : Good k s) (a0) : Keeps k (execTransmitFlit a0 s) := by
  unfold execTransmitFlit
  repeat' first
    | with_reducible assumption
    | with_reducible refine keeps_next.2 ?_
    | with_reducible refine keeps_ite ?_ ?_
    | with_reducible apply State.modPort_good
    | with_reducible apply State.globalEvent_good
    | with_reducible apply State.noteBulkWait_good
    | with_reducible apply State.setPort_good
    | with_reducible apply State.sendData_good
    | with_reducible apply State.setFld_good
    | with_reducible apply State.ackFields_good
    | with_reducible apply State.sendLink_good
    | with_reducible apply State.putOut_good
    | with_reducible apply State.keyMissing_good
    | simp only [↓good_upd]
    | split

@[simp ↓] theorem State.authDrop_good (h : Good k s) (a1) : Good k (State.authDrop s a1) := by
  unfold State.authDrop
  dsimp only
  simp +contextual (maxDischargeDepth := 100) only [h, ↓good_ite, ↓State.count_good, ↓State.raise_good, ↓State.modPort_good, ↓State.setPortState_good, ↓State.sendLink_good]

@[simp ↓] theorem State.passFlit_good (h : Good k s) (a1 a2) : Good k (State.passFlit s a1 a2) := by
  unfold State.passFlit
  repeat' first
    | with_reducible assumption
    | with_reducible refine good_ite ?_ ?_
    | with_reducible refine good_foldl ?_ (fun _ _ _ => ?_)
    | with_reducible apply State.tableParity_good
    | with_reducible apply State.modPort_good
    | with_reducible apply State.globalEvent_good
    | with_reducible apply State.count_good
    | with_reducible apply State.authDrop_good
    | with_reducible apply State.receivePkt_good
    | simp only
    | split

theorem execDataFlit_keeps (h : Good k s) (a0 a1) : Keeps k (execDataFlit a0 a1 s) := by
  unfold execDataFlit
  repeat' first
    | with_reducible assumption
    | with_reducible refine keeps_next.2 ?_
    | with_reducible refine keeps_ite ?_ ?_
    | with_reducible refine good_ite ?_ ?_
    | with_reducible apply State.globalEvent_good
    | with_reducible apply State.setPort_good
    | with_reducible apply State.askRetryLink_good
    | with_reducible apply State.rxFlit_good
    | with_reducible apply State.passFlit_good
    | with_reducible apply State.startRetrain_good
    | with_reducible apply State.count_good
    | with_reducible refine good_of_some (by assumption) ?_
    | split

theorem execIdleFlit_keeps (h : Good k s) (a0 a1) : Keeps k (execIdleFlit a0 a1 s) := by
  unfold execIdleFlit
  repeat' first
    | with_reducible assumption
    | with_reducible refine good_ite ?_ ?_
    | with_reducible refine keeps_next.2 ?_
    | with_reducible apply State.rxFlit_good
    | with_reducible apply State.count_good
    | with_reducible refine good_of_some (by assumption) ?_
    | split

theorem execRetryReq_keeps (h : Good k s) (a0 a1) : Keeps k (execRetryReq a0 a1 s) := by
  unfold execRetryReq
  repeat' first
    | with_reducible assumption
    | with_reducible refine keeps_next.2 ?_
    | with_reducible apply State.rxLink_good
    | with_reducible apply State.globalEvent_good
    | with_reducible apply State.count_good
    | with_reducible apply State.setPort_good
    | with_reducible apply State.startRetrain_good
    | simp only
    | split
    | with_reducible intro _

theorem execRetryReqResend_keeps (h : Good k s) (a0 a1) : Keeps k (execRetryReqResend a0 a1 s) := by
  unfold execRetryReqResend
  repeat' first
    | with_reducible assumption
    | with_reducible refine keeps_ite ?_ ?_
    | with_reducible refine keeps_next.2 ?_
    | with_reducible apply State.advanceTo_good
    | with_reducible apply State.modLedger_good
    | with_reducible apply State.linkRaise_good
    | with_reducible apply State.startRetrain_good
    | with_reducible apply State.modPort_good
    | with_reducible apply State.askRetryLink_good

theorem execRetrain_keeps (h : Good k s) (a0) : Keeps k (execRetrain a0 s) := by
  unfold execRetrain
  repeat' first
    | with_reducible assumption
    | with_reducible refine good_ite ?_ ?_
    | with_reducible refine keeps_next.2 ?_
    | with_reducible apply State.startRetrain_good

theorem execRetrainReq_keeps (h : Good k s) (a0 a1) : Keeps k (execRetrainReq a0 a1 s) := by
  unfold execRetrainReq
  repeat' first
    | with_reducible assumption
    | with_reducible refine keeps_next.2 ?_
    | with_reducible apply State.rxLink_good
    | with_reducible apply State.noteRetrain_good
    | with_reducible apply State.sendLink_good
    | with_reducible apply State.setPortState_good
    | with_reducible apply State.modPort_good
    | with_reducible apply State.fullRetrain_good
    | simp only
    | split
    | with_reducible intro _

theorem execRetrainAck_keeps (h : Good k s) (a0 a1) : Keeps k (execRetrainAck a0 a1 s) := by
  unfold execRetrainAck
  simp +contextual (maxDischargeDepth := 50) [h]

theorem execFastRetrainTimeout_keeps (h : Good k s) (a0) : Keeps k (execFastRetrainTimeout a0 s) := by
  unfold execFastRetrainTimeout
  repeat' first
    | with_reducible assumption
    | with_reducible refine keeps_ite ?_ ?_
    | with_reducible refine keeps_next.2 ?_
    | with_reducible apply State.fullRetrain_good
    | with_reducible apply State.advanceTo_good

@[simp ↓] theorem State.portRestart_good (h : Good k s) (a1) : Good k (State.portRestart s a1) := by
  unfold State.portRestart
  repeat' first
    | with_reducible assumption
    | with_reducible refine good_ite ?_ ?_
    | with_reducible apply State.setPortState_good
    | with_reducible apply State.modPort_good

theorem execRestart_keeps (h : Good k s) (a0) : Keeps k (execRestart a0 s) := by
  unfold execRestart
  repeat' first
    | with_reducible assumption
    | with_reducible refine keeps_next.2 ?_
    | with_reducible apply State.portRestart_good

@[simp ↓] theorem State.startStandby_good (h : Good k s) (a1) : Good k (State.startStandby s a1) := by
  unfold State.startStandby
  repeat' first
    | with_reducible assumption
    | with_reducible refine good_ite ?_ ?_
    | with_reducible apply State.setPort_good

theorem execLaneFailed_keeps (h : Good k s) (a0 a1 a2) : Keeps k (execLaneFailed a0 a1 a2 s) := by
  unfold execLaneFailed
  repeat' first
    | with_reducible assumption
    | with_reducible refine keeps_next.2 ?_
    | with_reducible refine keeps_ite ?_ ?_
    | with_reducible apply State.modPort_good
    | with_reducible apply State.startStandby_good
    | with_reducible apply State.linkRaise_good
    | with_reducible apply State.setPortState_good
    | with_reducible apply State.modLedger_good
    | with_reducible apply State.sendLink_good
    | with_reducible apply State.startRetrain_good
    | with_reducible apply State.count_good
    | with_reducible apply State.intEvent_good

@[simp ↓] theorem State.newMask_good (h : Good k s) (a1 a2) : Good k (State.newMask s a1 a2) := by
  unfold State.newMask
  dsimp only
  simp +contextual (maxDischargeDepth := 100) only [h, ↓good_ite, ↓State.modPort_good, ↓State.setMask_good, ↓State.askRetryLink_good, ↓State.setPortState_good, ↓State.linkRaise_good]

theorem execWidthReq_keeps (h : Good k s) (a0 a1) : Keeps k (execWidthReq a0 a1 s) := by
  unfold execWidthReq
  simp +contextual (maxDischargeDepth := 50) [h]

theorem execWidthAck_keeps (h : Good k s) (a0 a1) : Keeps k (execWidthAck a0 a1 s) := by
  unfold execWidthAck
  repeat' first
    | with_reducible assumption
    | with_reducible refine keeps_next.2 ?_
    | with_reducible apply State.rxLink_good
    | with_reducible apply State.newMask_good
    | split
    | with_reducible intro _

theorem execWidthChangeTimeout_keeps (h : Good k s) (a0) : Keeps k (execWidthChangeTimeout a0 s) := by
  unfold execWidthChangeTimeout
  repeat' first
    | with_reducible assumption
    | with_reducible refine keeps_ite ?_ ?_
    | with_reducible refine keeps_next.2 ?_
    | with_reducible apply State.startRetrain_good
    | with_reducible apply State.advanceTo_good

theorem execStandbyCalibrated_keeps (h : Good k s) (a0 a1) : Keeps k (execStandbyCalibrated a0 a1 s) := by
  unfold execStandbyCalibrated
  repeat' first
    | with_reducible assumption
    | with_reducible refine keeps_ite ?_ ?_
    | with_reducible refine keeps_next.2 ?_
    | with_reducible apply State.modLedger_good
    | with_reducible apply State.setPort_good
    | with_reducible apply State.sendLink_good
    | with_reducible apply State.setPortState_good
    | with_reducible apply State.advanceTo_good

theorem execFecDegraded_keeps (h : Good k s) (a0 a1 a2) : Keeps k (execFecDegraded a0 a1 a2 s) := by
  unfold execFecDegraded
  repeat' first
    | with_reducible assumption
    | with_reducible refine keeps_ite ?_ ?_
    | with_reducible refine keeps_next.2 ?_
    | with_reducible apply State.count_good
    | with_reducible apply State.advise_good
    | with_reducible apply State.intEvent_good
    | with_reducible apply State.linkRaise_good

theorem execDrain_keeps (h : Good k s) (a0 a1) : Keeps k (execDrain a0 a1 s) := by
  unfold execDrain
  repeat' first
    | with_reducible assumption
    | with_reducible refine keeps_next.2 ?_
    | with_reducible apply State.rxLink_good
    | with_reducible apply State.modPort_good
    | with_reducible intro _

theorem execRetireDrainEnd_keeps (h : Good k s) (a0) : Keeps k (execRetireDrainEnd a0 s) := by
  unfold execRetireDrainEnd
  repeat' first
    | with_reducible assumption
    | with_reducible refine good_ite ?_ ?_
    | with_reducible refine keeps_next.2 ?_
    | with_reducible apply State.advanceTo_good
    | with_reducible apply State.setPort_good
    | with_reducible apply State.setPortState_good
    | simp only
    | split

end Sys2Proof.Machine
end

