-- ==== Sys2Proof/Laws/KeepObsCmds.lean ====
section
/-! SUPPORT. What every operation of Machine/ObsCmds.lean keeps (Laws/Good.lean). -/

namespace Sys2Proof.Machine

variable {k : Key} {s t : State}

@[simp ↓] theorem State.obsErr_good (h : Good k s)  : Good k (State.obsErr s) := by
  unfold State.obsErr
  repeat' first
    | with_reducible assumption
    | with_reducible apply State.intEvent_good

@[simp ↓] theorem State.releasePark_good (h : Good k s) (a1 a2) : Good k (State.releasePark s a1 a2) := by
  unfold State.releasePark
  dsimp only
  simp +contextual (maxDischargeDepth := 100) only [h, ↓good_ite, ↓State.setJob_good]

@[simp ↓] theorem State.freezeArm_good (h : Good k s)  : Good k (State.freezeArm s) := by
  unfold State.freezeArm
  repeat' first
    | with_reducible assumption
    | with_reducible refine good_ite ?_ ?_
    | with_reducible apply State.obsErr_good
    | with_reducible apply State.setBit_good

theorem execFreezeArm_keeps (h : Good k s)  : Keeps k (execFreezeArm s) := by
  unfold execFreezeArm
  repeat' first
    | with_reducible assumption
    | with_reducible refine keeps_next.2 ?_
    | with_reducible apply State.freezeArm_good

@[simp ↓] theorem State.freezeCopy_good (h : Good k s)  : Good k (State.freezeCopy s) := by
  unfold State.freezeCopy
  dsimp only
  simp +contextual (maxDischargeDepth := 100) only [h, ↓good_foldl, implies_true, ↓State.wr_good]

@[simp ↓] theorem State.freezePark_good (h : Good k s)  : Good k (State.freezePark s) := by
  unfold State.freezePark
  dsimp only
  simp +contextual (maxDischargeDepth := 100) only [h, ↓good_ite, ↓good_foldl, ↓good_mk, Good.pend, Good.fuses, Good.mem, Good.spad, Good.regs, and_self, implies_true, ↓State.parkReq_good]

theorem execFreeze_keeps (h : Good k s)  : Keeps k (execFreeze s) := by
  unfold execFreeze
  repeat' first
    | with_reducible assumption
    | with_reducible refine keeps_ite ?_ ?_
    | with_reducible refine keeps_next.2 ?_
    | with_reducible apply State.freezeCopy_good
    | with_reducible apply State.advanceTo_good
    | with_reducible apply State.sysRecord_good
    | with_reducible apply State.setBit_good
    | with_reducible apply State.freezePark_good
    | with_reducible apply State.intEvent_good

@[simp ↓] theorem State.unfreeze_good (h : Good k s)  : Good k (State.unfreeze s) := by
  unfold State.unfreeze
  dsimp only
  simp +contextual (maxDischargeDepth := 100) only [h, ↓good_foldl, ↓good_mk, Good.pend, Good.fuses, Good.mem, Good.spad, Good.regs, and_self, implies_true, ↓State.releasePark_good, ↓State.setBit_good]

theorem execUnfreeze_keeps (h : Good k s)  : Keeps k (execUnfreeze s) := by
  unfold execUnfreeze
  repeat' first
    | with_reducible assumption
    | with_reducible refine keeps_next.2 ?_
    | with_reducible apply State.unfreeze_good

@[simp ↓] theorem State.ns2Write_good (h : Good k s)  : Good k (State.ns2Write s) := by
  unfold State.ns2Write
  dsimp only
  simp +contextual (maxDischargeDepth := 100) only [h, ↓good_ite, ↓good_foldl, implies_true, ↓State.sysRecord_good, ↓State.ctxRecord_good]

theorem execNs2Sample_keeps (h : Good k s) (a0) : Keeps k (execNs2Sample a0 s) := by
  unfold execNs2Sample
  repeat' first
    | with_reducible assumption
    | with_reducible refine keeps_ite ?_ ?_
    | with_reducible refine keeps_next.2 ?_
    | with_reducible apply State.intEvent_good
    | with_reducible apply State.count_good
    | with_reducible apply State.ns2Write_good

@[simp ↓] theorem State.sbufEnable_good (h : Good k s)  : Good k (State.sbufEnable s) := by
  unfold State.sbufEnable
  dsimp only
  simp +contextual (maxDischargeDepth := 100) only [h, ↓good_ite, ↓good_mk, Good.pend, Good.fuses, Good.mem, Good.spad, Good.regs, and_self, ↓State.obsErr_good, ↓State.wr_good, ↓State.setBit_good]

@[simp ↓] theorem State.cbufEnable_good (h : Good k s) (a1) : Good k (State.cbufEnable s a1) := by
  unfold State.cbufEnable
  dsimp only
  simp +contextual (maxDischargeDepth := 100) only [h, ↓good_ite, ↓good_mk, Good.pend, Good.fuses, Good.mem, Good.spad, Good.regs, and_self, ↓State.obsErr_good, ↓State.wr_good, ↓State.setBit_good]

theorem execBufferEnable_keeps (h : Good k s) (a0) : Keeps k (execBufferEnable a0 s) := by
  unfold execBufferEnable
  repeat' first
    | with_reducible assumption
    | with_reducible refine keeps_next.2 ?_
    | with_reducible apply State.sbufEnable_good
    | with_reducible apply State.cbufEnable_good
    | split

@[simp ↓] theorem State.profileWrite_good (h : Good k s) (a1 a2) : Good k (State.profileWrite s a1 a2) := by
  unfold State.profileWrite
  repeat' first
    | with_reducible assumption
    | with_reducible refine good_ite ?_ ?_
    | with_reducible apply State.wr_good
    | with_reducible apply State.obsErr_good

theorem execProfileWrite_keeps (h : Good k s) (a0 a1) : Keeps k (execProfileWrite a0 a1 s) := by
  unfold execProfileWrite
  repeat' first
    | with_reducible assumption
    | with_reducible refine keeps_next.2 ?_
    | with_reducible apply State.profileWrite_good

@[simp ↓] theorem State.dumpArm_good (h : Good k s)  : Good k (State.dumpArm s) := by
  unfold State.dumpArm
  dsimp only
  simp +contextual (maxDischargeDepth := 100) only [h, ↓good_ite, ↓State.obsErr_good, ↓State.setBit_good]

theorem execDumpArm_keeps (h : Good k s)  : Keeps k (execDumpArm s) := by
  unfold execDumpArm
  repeat' first
    | with_reducible assumption
    | with_reducible refine keeps_next.2 ?_
    | with_reducible apply State.dumpArm_good

@[simp ↓] theorem State.dumpEnd_good (h : Good k s) (a1 a2 a3) : Good k (State.dumpEnd s a1 a2 a3) := by
  unfold State.dumpEnd
  dsimp only
  simp +contextual (maxDischargeDepth := 100) only [h, ↓good_mk, Good.pend, Good.fuses, Good.mem, Good.spad, Good.regs, and_self, ↓State.wr_good, ↓State.ctxRecord_good, ↓State.intEvent_good, ↓State.setBit_good, ↓State.releasePark_good]

theorem execDumpCopy_keeps (h : Good k s)  : Keeps k (execDumpCopy s) := by
  unfold execDumpCopy
  repeat' first
    | with_reducible assumption
    | with_reducible refine keeps_ite ?_ ?_
    | with_reducible refine keeps_next.2 ?_
    | with_reducible apply State.dumpEnd_good
    | with_reducible apply State.memWrite_good
    | simp only
    | split

@[simp ↓] theorem State.ledgerWrite_good (h : Good k s) (a1) : Good k (State.ledgerWrite s a1) := by
  unfold State.ledgerWrite
  dsimp only
  simp +contextual (maxDischargeDepth := 100) only [h, ↓good_ite, ↓good_mk, Good.pend, Good.fuses, Good.mem, Good.spad, Good.regs, and_self, ↓State.modLedger_good, ↓State.intEvent_good, ↓State.wr_good, ↓State.setBit_good, ↓State.count_good]

theorem execLedgerWrite_keeps (h : Good k s) (a0) : Keeps k (execLedgerWrite a0 s) := by
  unfold execLedgerWrite
  repeat' first
    | with_reducible assumption
    | with_reducible refine keeps_next.2 ?_
    | with_reducible apply State.ledgerWrite_good

theorem execSync_keeps (h : Good k s) (a0) : Keeps k (execSync a0 s) := by
  unfold execSync
  repeat' first
    | with_reducible assumption
    | with_reducible refine keeps_next.2 ?_
    | with_reducible apply State.ledgerWrite_good

end Sys2Proof.Machine
end

