-- ==== Sys2Proof/Laws/KeepSparing.lean ====
section
/-! SUPPORT. What every operation of Machine/Sparing.lean keeps (Laws/Good.lean). -/

namespace Sys2Proof.Machine

variable {k : Key} {s t : State}

@[simp ↓] theorem State.clearPage_good (h : Good k s) (a1) : Good k (State.clearPage s a1) := by
  unfold State.clearPage
  repeat' first
    | (simp (maxDischargeDepth := 50) only [*, good_mk, Good.pend, Good.fuses, Good.mem, Good.spad, Good.regs, and_self, regsOk_filter]; done)

@[simp ↓] theorem State.wipeCore_good (h : Good k s) (a1) : Good k (State.wipeCore s a1) := by
  unfold State.wipeCore
  repeat' first
    | with_reducible apply State.clearPage_good
    | (simp (maxDischargeDepth := 50) only [*, good_mk, Good.pend, Good.fuses, Good.mem, Good.spad, Good.regs, and_self, spadOk_clearRange]; done)

@[simp ↓] theorem State.retireSlot_good (h : Good k s) (a1) : Good k (State.retireSlot s a1) := by
  unfold State.retireSlot
  dsimp only
  simp +contextual (maxDischargeDepth := 100) only [h, ↓good_ite, ↓good_foldl, ↓good_mk, Good.pend, Good.fuses, Good.mem, Good.spad, Good.regs, and_self, implies_true, ↓State.repairStart_good, ↓State.setUnit_good]

@[simp ↓] theorem State.returnUnits_good (h : Good k s) (a1) : Good k (State.returnUnits s a1) := by
  unfold State.returnUnits
  repeat' first
    | with_reducible assumption
    | with_reducible refine good_ite ?_ ?_
    | with_reducible refine good_foldl ?_ (fun _ _ _ => ?_)
    | with_reducible apply State.setUnit_good

@[simp ↓] theorem State.retireEnds_good (h : Good k s) (a1) : Good k (State.retireEnds s a1) := by
  unfold State.retireEnds
  dsimp only
  simp +contextual (maxDischargeDepth := 100) only [h, ↓good_mk, Good.pend, Good.fuses, Good.mem, Good.spad, Good.regs, and_self]

@[simp ↓] theorem State.takePodOut_good (h : Good k s) (a1) : Good k (State.takePodOut s a1) := by
  unfold State.takePodOut
  dsimp only
  simp +contextual (maxDischargeDepth := 100) only [h, ↓good_mk, Good.pend, Good.fuses, Good.mem, Good.spad, Good.regs, and_self]

@[simp ↓] theorem State.newSlot_good (h : Good k s) (a1 a2) : Good k (State.newSlot s a1 a2) := by
  unfold State.newSlot
  repeat' first
    | with_reducible assumption
    | with_reducible apply State.wr_good
    | with_reducible apply State.wipeCore_good

theorem execSlotRetired_keeps (h : Good k s) (a0 a1) : Keeps k (execSlotRetired a0 a1 s) := by
  unfold execSlotRetired
  repeat' first
    | with_reducible assumption
    | with_reducible refine keeps_next.2 ?_
    | with_reducible apply State.returnUnits_good
    | with_reducible apply State.advise_good
    | with_reducible apply State.setBit_good
    | with_reducible apply State.setFld_good
    | with_reducible apply State.retireEnds_good
    | with_reducible apply State.newSlot_good
    | with_reducible apply State.raise_good
    | with_reducible apply State.modLedger_good
    | with_reducible apply State.takePodOut_good
    | with_reducible apply State.repairEnd_good
    | simp only [↓good_upd]
    | split

@[simp ↓] theorem State.askSelfTest_good (h : Good k s) (a1 a2) : Good k (State.askSelfTest s a1 a2) := by
  unfold State.askSelfTest
  dsimp only
  simp +contextual (maxDischargeDepth := 100) only [h, ↓good_ite, ↓good_mk, Good.pend, Good.fuses, Good.mem, Good.spad, Good.regs, and_self, ↓State.repairStart_good]

@[simp ↓] theorem State.spareColumn_good (h : Good k s) (a1 a2) : Good k (State.spareColumn s a1 a2) := by
  unfold State.spareColumn
  dsimp only
  simp +contextual (maxDischargeDepth := 100) only [h, ↓good_ite, ↓State.raise_good, ↓State.modLedger_good, ↓State.setFld_good, ↓State.retireSlot_good]

theorem execArraySelfTest_keeps (h : Good k s) (a0 a1 a2) : Keeps k (execArraySelfTest a0 a1 a2 s) := by
  unfold execArraySelfTest
  repeat' first
    | with_reducible assumption
    | with_reducible refine keeps_ite ?_ ?_
    | with_reducible refine keeps_next.2 ?_
    | with_reducible refine good_foldl ?_ (fun _ _ _ => ?_)
    | with_reducible apply State.spareColumn_good
    | with_reducible apply State.repairEnd_good
    | simp only [↓good_upd]

@[simp ↓] theorem State.askQmSwitch_good (h : Good k s)  : Good k (State.askQmSwitch s) := by
  unfold State.askQmSwitch
  repeat' first
    | with_reducible assumption
    | with_reducible refine good_ite ?_ ?_
    | with_reducible apply State.raise_good
    | with_reducible apply State.repairStart_good
    | with_reducible apply State.setBit_good

theorem execQmSwitched_keeps (h : Good k s) (a0) : Keeps k (execQmSwitched a0 s) := by
  unfold execQmSwitched
  repeat' first
    | with_reducible assumption
    | with_reducible refine keeps_ite ?_ ?_
    | with_reducible refine keeps_next.2 ?_
    | with_reducible apply State.raise_good
    | with_reducible apply State.setBit_good
    | with_reducible apply State.modLedger_good
    | with_reducible apply State.repairEnd_good

@[simp ↓] theorem State.fire_good (h : Good k s) (a1 a2) : Good k (State.fire s a1 a2) := by
  unfold State.fire
  dsimp only
  simp +contextual (maxDischargeDepth := 100) only [h, ↓good_mk, Good.pend, Good.fuses, Good.mem, Good.spad, Good.regs, and_self]

@[simp ↓] theorem State.spareOrFail_good (h : Good k s) (a1) : Good k (State.spareOrFail s a1) := by
  unfold State.spareOrFail
  dsimp only
  simp +contextual (maxDischargeDepth := 100) only [h, ↓good_ite, ↓State.bankFailed_good, ↓State.spareRow_good]

@[simp ↓] theorem State.ceRate_good (h : Good k s)  : Good k (State.ceRate s) := by
  unfold State.ceRate
  repeat' first
    | with_reducible assumption
    | with_reducible apply State.raise_good

@[simp ↓] theorem State.judge_good (h : Good k s) (a1 a2) : Good k (State.judge s a1 a2) := by
  unfold State.judge
  repeat' first
    | with_reducible assumption
    | with_reducible refine good_ite ?_ ?_
    | with_reducible apply State.fire_good
    | with_reducible apply State.ceRate_good
    | with_reducible apply State.advise_good
    | with_reducible apply State.retireSlot_good
    | with_reducible apply State.spareColumn_good
    | with_reducible apply State.askSelfTest_good
    | with_reducible apply State.spareOrFail_good
    | with_reducible apply State.askQmSwitch_good
    | simp only
    | split

theorem execThresholdEvaluation_keeps (h : Good k s)  : Keeps k (execThresholdEvaluation s) := by
  unfold execThresholdEvaluation
  repeat' first
    | with_reducible assumption
    | with_reducible refine keeps_next.2 ?_
    | with_reducible refine good_foldl ?_ (fun _ _ _ => ?_)
    | with_reducible apply State.judge_good
    | simp only [↓good_upd]

@[simp ↓] theorem State.cmdErr_good (h : Good k s)  : Good k (State.cmdErr s) := by
  unfold State.cmdErr
  repeat' first
    | with_reducible assumption
    | with_reducible apply State.setBit_good

@[simp ↓] theorem State.rejoin_good (h : Good k s)  : Good k (State.rejoin s) := by
  unfold State.rejoin
  repeat' first
    | with_reducible assumption
    | with_reducible refine good_ite ?_ ?_
    | with_reducible apply State.setRecState_good
    | with_reducible apply State.cmdErr_good
    | simp only [↓good_upd]

theorem execRejoin_keeps (h : Good k s)  : Keeps k (execRejoin s) := by
  unfold execRejoin
  repeat' first
    | with_reducible assumption
    | with_reducible refine keeps_next.2 ?_
    | with_reducible apply State.rejoin_good

@[simp ↓] theorem State.reclaim_good (h : Good k s) (a1 a2) : Good k (State.reclaim s a1 a2) := by
  unfold State.reclaim
  dsimp only
  simp +contextual (maxDischargeDepth := 100) only [h, ↓State.raise_good, ↓State.count_good, ↓State.reclaimGrant_good]

@[simp ↓] theorem State.reclaimChip_good (h : Good k s)  : Good k (State.reclaimChip s) := by
  unfold State.reclaimChip
  dsimp only
  simp +contextual (maxDischargeDepth := 100) only [h, ↓good_ite, ↓good_foldl, implies_true, ↓State.reclaim_good, ↓State.setPool_good]

theorem execReclaim_keeps (h : Good k s)  : Keeps k (execReclaim s) := by
  unfold execReclaim
  repeat' first
    | with_reducible assumption
    | with_reducible refine keeps_next.2 ?_
    | with_reducible apply State.reclaimChip_good

theorem execGrantAge_keeps (h : Good k s) (a0) : Keeps k (execGrantAge a0 s) := by
  unfold execGrantAge
  repeat' first
    | with_reducible assumption
    | with_reducible refine keeps_next.2 ?_
    | with_reducible apply State.reclaim_good
    | with_reducible apply State.advanceTo_good
    | simp only
    | split

end Sys2Proof.Machine
end

