-- ==== Sys2Proof/Laws/KeepPower.lean ====
section
/-! SUPPORT. What every operation of Machine/Power.lean keeps (Laws/Good.lean). -/

namespace Sys2Proof.Machine

variable {k : Key} {s t : State}

@[simp ↓] theorem State.powerRaise_good (h : Good k s) (a1 a2 a3 a4 a5 a6 a7) : Good k (State.powerRaise s a1 a2 a3 a4 a5 a6 a7) := by
  unfold State.powerRaise
  dsimp only
  simp +contextual (maxDischargeDepth := 100) only [h, ↓good_ite, ↓State.raise_good, ↓State.intEvent_good]

@[simp ↓] theorem State.showLimit_good (h : Good k s)  : Good k (State.showLimit s) := by
  unfold State.showLimit
  dsimp only
  simp +contextual (maxDischargeDepth := 100) only [h, ↓State.setFld_good]

@[simp ↓] theorem State.commandVout_good (h : Good k s) (a1) : Good k (State.commandVout s a1) := by
  unfold State.commandVout
  dsimp only
  simp +contextual (maxDischargeDepth := 100) only [h, ↓good_ite, ↓good_mk, Good.pend, Good.fuses, Good.mem, Good.spad, Good.regs, and_self]

@[simp ↓] theorem State.applyLimits_good (h : Good k s) : Good k (State.applyLimits s) := by
  unfold State.applyLimits
  repeat' first
    | with_reducible assumption
    | with_reducible refine good_ite ?_ ?_
    | with_reducible apply State.setBit_good
    | with_reducible apply State.setFld_good
    | with_reducible apply State.showLimit_good
    | with_reducible apply State.commandVout_good

@[simp ↓] theorem State.demand_good (h : Good k s) (a1 a2) : Good k (State.demand s a1 a2) := by
  unfold State.demand
  dsimp only
  simp +contextual (maxDischargeDepth := 100) only [h, ↓good_mk, Good.pend, Good.fuses, Good.mem, Good.spad, Good.regs, and_self]

theorem execCclkStepEdge_keeps (h : Good k s) (a0) : Keeps k (execCclkStepEdge a0 s) := by
  unfold execCclkStepEdge
  repeat' first
    | with_reducible assumption
    | with_reducible refine keeps_ite ?_ ?_
    | with_reducible refine keeps_next.2 ?_
    | with_reducible apply State.setFld_good
    | with_reducible apply State.commandVout_good
    | with_reducible apply State.setBit_good
    | with_reducible apply State.intEvent_good
    | with_reducible apply State.showLimit_good
    | with_reducible apply State.count_good

@[simp ↓] theorem State.peakDemand_good (h : Good k s) (a1) : Good k (State.peakDemand s a1) := by
  unfold State.peakDemand
  repeat' first
    | with_reducible assumption
    | with_reducible apply State.powerRaise_good
    | with_reducible apply State.count_good
    | with_reducible apply State.demand_good

@[simp ↓] theorem State.ledgerMinute_good (h : Good k s)  : Good k (State.ledgerMinute s) := by
  unfold State.ledgerMinute
  dsimp only
  simp +contextual (maxDischargeDepth := 100) only [h, ↓State.modLedger_good]

@[simp ↓] theorem State.recordSample_good (h : Good k s) (a1) : Good k (State.recordSample s a1) := by
  unfold State.recordSample
  dsimp only
  simp +contextual (maxDischargeDepth := 100) only [h, ↓good_ite, ↓good_foldl, ↓good_mk, Good.pend, Good.fuses, Good.mem, Good.spad, Good.regs, and_self, implies_true, ↓State.wr_good, ↓State.count64_good, ↓State.ledgerMinute_good]

@[simp ↓] theorem State.judgePeak_good (h : Good k s) (a1) : Good k (State.judgePeak s a1) := by
  unfold State.judgePeak
  dsimp only
  simp +contextual (maxDischargeDepth := 100) only [h, ↓good_ite, ↓good_mk, Good.pend, Good.fuses, Good.mem, Good.spad, Good.regs, and_self, ↓State.peakDemand_good]

theorem execPowerSample_keeps (h : Good k s) (a0) : Keeps k (execPowerSample a0 s) := by
  unfold execPowerSample
  repeat' first
    | with_reducible assumption
    | with_reducible refine keeps_next.2 ?_
    | with_reducible apply State.judgePeak_good
    | with_reducible apply State.recordSample_good
    | with_reducible apply State.applyLimits_good
    | with_reducible apply State.demand_good

@[simp ↓] theorem State.clearTier_good (h : Good k s) (a1) : Good k (State.clearTier s a1) := by
  unfold State.clearTier
  repeat' first
    | with_reducible apply State.clearPage_good
    | simp only
    | (simp (maxDischargeDepth := 50) only [*, good_mk, Good.pend, Good.fuses, Good.mem, Good.spad, Good.regs, and_self, memOk_filter]; done)

@[simp ↓] theorem State.presetPort_good (h : Good k s) (a1) : Good k (State.presetPort s a1) := by
  unfold State.presetPort
  repeat' first
    | with_reducible assumption
    | with_reducible apply State.setFld_good

@[simp ↓] theorem State.clearPort_good (h : Good k s) (a1) : Good k (State.clearPort s a1) := by
  unfold State.clearPort
  repeat' first
    | with_reducible assumption
    | with_reducible apply State.presetPort_good
    | with_reducible apply State.clearPage_good
    | simp only [↓good_upd]

@[simp ↓] theorem State.clearDomain_good (h : Good k s) (a1) : Good k (State.clearDomain s a1) := by
  unfold State.clearDomain
  dsimp only
  simp +contextual (maxDischargeDepth := 100) only [h, ↓good_ite, ↓good_foldl, ↓good_mk, Good.pend, Good.fuses, Good.mem, Good.spad, Good.regs, and_self, implies_true, ↓State.wipeCore_good, ↓State.clearRegs_good, ↓State.clearTier_good, ↓State.clearPort_good, ↓State.clearPage_good]

@[simp ↓] theorem State.domainOff_good (h : Good k s) (a1) : Good k (State.domainOff s a1) := by
  unfold State.domainOff
  dsimp only
  simp +contextual (maxDischargeDepth := 100) only [h, ↓good_ite, ↓good_foldl, implies_true, ↓State.setBit_good, ↓State.clearDomain_good, ↓State.setUnit_good]

@[simp ↓] theorem State.domainEn_good (h : Good k s) (a1) : Good k (State.domainEn s a1) := by
  unfold State.domainEn
  dsimp only
  simp +contextual (maxDischargeDepth := 100) only [h, ↓good_ite, ↓good_foldl, implies_true, ↓State.setBit_good, ↓State.domainOff_good, ↓State.intEvent_good]

theorem execDomainEn_keeps (h : Good k s) (a0) : Keeps k (execDomainEn a0 s) := by
  unfold execDomainEn
  repeat' first
    | with_reducible assumption
    | with_reducible refine keeps_next.2 ?_
    | with_reducible apply State.domainEn_good

@[simp ↓] theorem State.domainFail_good (h : Good k s) (a1) : Good k (State.domainFail s a1) := by
  unfold State.domainFail
  dsimp only
  simp +contextual (maxDischargeDepth := 100) only [h, ↓good_ite, ↓good_foldl, implies_true, ↓State.setBit_good, ↓State.powerRaise_good, ↓State.setUnit_good]

@[simp ↓] theorem State.domainUp_good (h : Good k s) (a1) : Good k (State.domainUp s a1) := by
  unfold State.domainUp
  repeat' first
    | with_reducible assumption
    | with_reducible apply State.setBit_good
    | with_reducible apply State.clearDomain_good

theorem execDomainOn_keeps (h : Good k s) (a0 a1) : Keeps k (execDomainOn a0 a1 s) := by
  unfold execDomainOn
  repeat' first
    | with_reducible assumption
    | with_reducible refine good_ite ?_ ?_
    | with_reducible refine keeps_ite ?_ ?_
    | with_reducible refine keeps_next.2 ?_
    | with_reducible apply State.domainFail_good
    | with_reducible apply State.setBit_good
    | with_reducible apply State.clearDomain_good
    | with_reducible apply State.returnUnits_good

theorem execDomainFail_keeps (h : Good k s) (a0) : Keeps k (execDomainFail a0 s) := by
  unfold execDomainFail
  repeat' first
    | with_reducible assumption
    | with_reducible refine keeps_ite ?_ ?_
    | with_reducible refine keeps_next.2 ?_
    | with_reducible apply State.domainFail_good

@[simp ↓] theorem State.thermTrip_good (h : Good k s) (a1 a2) : Good k (State.thermTrip s a1 a2) := by
  unfold State.thermTrip
  dsimp only
  simp +contextual (maxDischargeDepth := 100) only [h, ↓good_foldl, ↓good_mk, Good.pend, Good.fuses, Good.mem, Good.spad, Good.regs, and_self, implies_true, ↓State.modLedger_good, ↓State.powerRaise_good, ↓State.domainOff_good, ↓State.commandVout_good]

theorem execTemperatureRead_keeps (h : Good k s) (a0) : Keeps k (execTemperatureRead a0 s) := by
  unfold execTemperatureRead
  repeat' first
    | with_reducible assumption
    | with_reducible refine good_ite ?_ ?_
    | with_reducible refine keeps_next.2 ?_
    | with_reducible refine good_foldl ?_ (fun _ _ _ => ?_)
    | with_reducible apply State.wr_good
    | with_reducible apply State.applyLimits_good
    | with_reducible apply State.powerRaise_good
    | with_reducible apply State.demand_good
    | with_reducible apply State.thermTrip_good
    | simp only [↓good_upd]

theorem execThermalLimiterInterval_keeps (h : Good k s)  : Keeps k (execThermalLimiterInterval s) := by
  unfold execThermalLimiterInterval
  repeat' first
    | with_reducible assumption
    | with_reducible refine keeps_ite ?_ ?_
    | with_reducible refine keeps_next.2 ?_
    | with_reducible apply State.applyLimits_good
    | with_reducible apply State.demand_good

@[simp ↓] theorem State.judgeRail_good (h : Good k s) (a1 a2) : Good k (State.judgeRail s a1 a2) := by
  unfold State.judgeRail
  dsimp only
  simp +contextual (maxDischargeDepth := 100) only [h, ↓good_ite, ↓good_mk, Good.pend, Good.fuses, Good.mem, Good.spad, Good.regs, and_self, ↓State.setBit_good, ↓State.powerRaise_good, ↓State.modLedger_good]

@[simp ↓] theorem State.supplyLimit_good (h : Good k s)  : Good k (State.supplyLimit s) := by
  unfold State.supplyLimit
  dsimp only
  simp +contextual (maxDischargeDepth := 100) only [h, ↓good_ite, ↓good_mk, Good.pend, Good.fuses, Good.mem, Good.spad, Good.regs, and_self, ↓State.applyLimits_good, ↓State.demand_good]

theorem execPwrBrakeAssert_keeps (h : Good k s)  : Keeps k (execPwrBrakeAssert s) := by
  unfold execPwrBrakeAssert
  repeat' first
    | with_reducible assumption
    | with_reducible refine keeps_ite ?_ ?_
    | with_reducible refine keeps_next.2 ?_
    | with_reducible apply State.applyLimits_good
    | with_reducible apply State.powerRaise_good
    | with_reducible apply State.demand_good
    | simp only [↓good_upd]

theorem execPwrBrakeRelease_keeps (h : Good k s)  : Keeps k (execPwrBrakeRelease s) := by
  unfold execPwrBrakeRelease
  repeat' first
    | with_reducible assumption
    | with_reducible refine keeps_next.2 ?_
    | with_reducible apply State.applyLimits_good
    | with_reducible apply State.demand_good
    | simp only [↓good_upd]

@[simp ↓] theorem State.ringMeasure_good (h : Good k s) (a1 a2) : Good k (State.ringMeasure s a1 a2) := by
  unfold State.ringMeasure
  dsimp only
  simp +contextual (maxDischargeDepth := 100) only [h, ↓good_ite, ↓good_mk, Good.pend, Good.fuses, Good.mem, Good.spad, Good.regs, and_self, ↓State.modLedger_good, ↓State.powerRaise_good, ↓State.observe_good, ↓State.advise_good]

theorem execRingOscillatorMeasure_keeps (h : Good k s) (a0) : Keeps k (execRingOscillatorMeasure a0 s) := by
  unfold execRingOscillatorMeasure
  repeat' first
    | with_reducible assumption
    | with_reducible refine good_ite ?_ ?_
    | with_reducible refine keeps_next.2 ?_
    | with_reducible refine good_foldl ?_ (fun _ _ _ => ?_)
    | with_reducible apply State.ringMeasure_good
    | simp only [↓good_upd]

@[simp ↓] theorem State.vmaxDemand_good (h : Good k s)  : Good k (State.vmaxDemand s) := by
  unfold State.vmaxDemand
  repeat' first
    | with_reducible assumption
    | with_reducible refine good_ite ?_ ?_
    | with_reducible apply State.demand_good

theorem execVmaxMinute_keeps (h : Good k s)  : Keeps k (execVmaxMinute s) := by
  unfold execVmaxMinute
  repeat' first
    | with_reducible assumption
    | with_reducible refine good_ite ?_ ?_
    | with_reducible refine keeps_ite ?_ ?_
    | with_reducible refine keeps_next.2 ?_
    | with_reducible apply State.count_good
    | with_reducible apply State.modLedger_good
    | with_reducible apply State.powerRaise_good
    | with_reducible apply State.applyLimits_good
    | with_reducible apply State.vmaxDemand_good

theorem execD2dLost_keeps (h : Good k s)  : Keeps k (execD2dLost s) := by
  unfold execD2dLost
  repeat' first
    | with_reducible assumption
    | with_reducible refine keeps_next.2 ?_
    | with_reducible apply State.raise_good

theorem execPllLost_keeps (h : Good k s) (a0) : Keeps k (execPllLost a0 s) := by
  unfold execPllLost
  repeat' first
    | with_reducible assumption
    | with_reducible refine good_ite ?_ ?_
    | with_reducible refine keeps_ite ?_ ?_
    | with_reducible refine keeps_next.2 ?_
    | with_reducible apply State.setBit_good
    | with_reducible apply State.intEvent_good
    | with_reducible apply State.raise_good

theorem execCtrlStoreUe_keeps (h : Good k s)  : Keeps k (execCtrlStoreUe s) := by
  unfold execCtrlStoreUe
  repeat' first
    | with_reducible assumption
    | with_reducible refine keeps_next.2 ?_
    | with_reducible apply State.raise_good

theorem execMcWatchdog_keeps (h : Good k s)  : Keeps k (execMcWatchdog s) := by
  unfold execMcWatchdog
  repeat' first
    | with_reducible assumption
    | with_reducible refine keeps_next.2 ?_
    | with_reducible apply State.raise_good

end Sys2Proof.Machine
end

