-- ==== Sys2Proof/Laws/KeepQstop.lean ====
section
/-! SUPPORT. What every operation of Machine/Qstop.lean keeps (Laws/Good.lean). -/

namespace Sys2Proof.Machine

variable {k : Key} {s t : State}

@[simp ↓] theorem State.quiesce_good (h : Good k s)  : Good k (State.quiesce s) := by
  unfold State.quiesce
  dsimp only
  simp +contextual (maxDischargeDepth := 100) only [h, ↓good_foldl, implies_true, ↓State.setBit_good, ↓State.parkReq_good]

@[simp ↓] theorem State.quiesceEnd_good (h : Good k s)  : Good k (State.quiesceEnd s) := by
  unfold State.quiesceEnd
  dsimp only
  simp +contextual (maxDischargeDepth := 100) only [h, ↓good_foldl, implies_true, ↓State.setBit_good, ↓State.pumpAll_good, ↓State.releasePark_good]

theorem execQstopLevelChange_keeps (h : Good k s) (a0 a1) : Keeps k (execQstopLevelChange a0 a1 s) := by
  unfold execQstopLevelChange
  repeat' first
    | with_reducible assumption
    | with_reducible refine good_ite ?_ ?_
    | with_reducible refine keeps_next.2 ?_
    | with_reducible apply State.setBit_good
    | with_reducible apply good_modHost
    | with_reducible apply State.hostRaise_good
    | with_reducible apply State.intEvent_good
    | with_reducible apply State.quiesce_good
    | with_reducible apply State.count_good
    | with_reducible apply State.quiesceEnd_good

theorem execQstopInputFault_keeps (h : Good k s)  : Keeps k (execQstopInputFault s) := by
  unfold execQstopInputFault
  repeat' first
    | with_reducible assumption
    | with_reducible refine good_ite ?_ ?_
    | with_reducible refine keeps_next.2 ?_
    | with_reducible apply State.setBit_good
    | with_reducible apply good_modHost
    | with_reducible apply State.hostRaise_good
    | with_reducible apply State.intEvent_good
    | with_reducible apply State.count_good
    | with_reducible apply State.quiesce_good

theorem execQstopRdy_keeps (h : Good k s) (a0) : Keeps k (execQstopRdy a0 s) := by
  unfold execQstopRdy
  repeat' first
    | with_reducible assumption
    | with_reducible refine good_ite ?_ ?_
    | with_reducible refine keeps_next.2 ?_
    | with_reducible apply State.ledgerWrite_good
    | with_reducible apply State.setBit_good

@[simp ↓] theorem State.faultClear_good (h : Good k s)  : Good k (State.faultClear s) := by
  unfold State.faultClear
  repeat' first
    | with_reducible assumption
    | with_reducible refine good_ite ?_ ?_
    | with_reducible apply State.quiesceEnd_good
    | with_reducible apply State.setBit_good

theorem execFaultClear_keeps (h : Good k s)  : Keeps k (execFaultClear s) := by
  unfold execFaultClear
  repeat' first
    | with_reducible assumption
    | with_reducible refine keeps_next.2 ?_
    | with_reducible apply State.faultClear_good

end Sys2Proof.Machine
end

