-- ==== Sys2Proof/Laws/KeepQueueCmds.lean ====
section
/-! SUPPORT. What every operation of Machine/QueueCmds.lean keeps (Laws/Good.lean). -/

namespace Sys2Proof.Machine

variable {k : Key} {s t : State}

@[simp ↓] theorem State.answerQm_good (h : Good k s) (a1 a2 a3) : Good k (State.answerQm s a1 a2 a3) := by
  unfold State.answerQm
  dsimp only
  simp +contextual (maxDischargeDepth := 100) only [h, ↓good_mk, Good.pend, Good.fuses, Good.mem, Good.spad, Good.regs, and_self]

theorem execEnqueue_keeps (h : Good k s) (a0 a1 a2) : Keeps k (execEnqueue a0 a1 a2 s) := by
  unfold execEnqueue
  repeat' first
    | with_reducible assumption
    | with_reducible refine keeps_next.2 ?_
    | with_reducible apply State.offer_good
    | with_reducible apply State.answerQm_good

theorem execDequeue_keeps (h : Good k s) (a0 a1 a2) : Keeps k (execDequeue a0 a1 a2 s) := by
  unfold execDequeue
  repeat' first
    | with_reducible assumption
    | with_reducible refine good_ite ?_ ?_
    | with_reducible refine keeps_next.2 ?_
    | with_reducible apply State.headUpset_good
    | with_reducible apply State.dequeue_good
    | with_reducible apply State.answerQm_good
    | with_reducible refine good_of_pair (by assumption) ?_
    | simp only
    | split

theorem execQueueEnable_keeps (h : Good k s) (a0) : Keeps k (execQueueEnable a0 s) := by
  unfold execQueueEnable
  repeat' first
    | with_reducible assumption
    | with_reducible refine keeps_next.2 ?_
    | with_reducible apply State.drainHeld_good
    | with_reducible apply State.queueOn_good

theorem execQueueDisable_keeps (h : Good k s) (a0) : Keeps k (execQueueDisable a0 s) := by
  unfold execQueueDisable
  repeat' first
    | with_reducible assumption
    | with_reducible refine keeps_next.2 ?_
    | with_reducible apply State.queueOff_good

theorem execFlush_keeps (h : Good k s)  : Keeps k (execFlush s) := by
  unfold execFlush
  repeat' first
    | with_reducible assumption
    | with_reducible refine good_ite ?_ ?_
    | with_reducible refine keeps_next.2 ?_
    | with_reducible apply State.flushQueue_good

theorem execCard_keeps (h : Good k s) (a0) : Keeps k (execCard a0 s) := by
  unfold execCard
  repeat' first
    | with_reducible assumption
    | with_reducible refine good_ite ?_ ?_
    | with_reducible refine keeps_next.2 ?_
    | with_reducible apply State.serveRx_good
    | with_reducible apply good_modFab
    | with_reducible apply State.routeCard_good
    | with_reducible apply State.arriveRx_good
    | with_reducible refine good_of_some (by assumption) ?_
    | simp only
    | split

theorem execLeadCardEnqueue_keeps (h : Good k s)  : Keeps k (execLeadCardEnqueue s) := by
  unfold execLeadCardEnqueue
  repeat' first
    | with_reducible assumption
    | with_reducible refine keeps_next.2 ?_
    | with_reducible apply State.leadEnqueue_good

theorem execReadinessSignal_keeps (h : Good k s) (a0) : Keeps k (execReadinessSignal a0 s) := by
  unfold execReadinessSignal
  repeat' first
    | with_reducible assumption
    | with_reducible refine good_ite ?_ ?_
    | with_reducible refine keeps_next.2 ?_
    | with_reducible apply State.signalReady_good
    | split

theorem execRetire_keeps (h : Good k s) (a0) : Keeps k (execRetire a0 s) := by
  unfold execRetire
  repeat' first
    | with_reducible assumption
    | with_reducible refine good_ite ?_ ?_
    | with_reducible refine keeps_next.2 ?_
    | with_reducible apply State.retireCard_good

theorem execReplayReq_keeps (h : Good k s) (a0) : Keeps k (execReplayReq a0 s) := by
  unfold execReplayReq
  repeat' first
    | with_reducible assumption
    | with_reducible refine good_ite ?_ ?_
    | with_reducible refine keeps_next.2 ?_
    | with_reducible apply State.replayReq_good

theorem execReplayNak_keeps (h : Good k s) (a0) : Keeps k (execReplayNak a0 s) := by
  unfold execReplayNak
  repeat' first
    | with_reducible assumption
    | with_reducible refine good_ite ?_ ?_
    | with_reducible refine keeps_next.2 ?_
    | with_reducible apply State.replayNak_good

@[simp ↓] theorem State.shelfSetOn_good (h : Good k s) (a1) : Good k (State.shelfSetOn s a1) := by
  unfold State.shelfSetOn
  repeat' first
    | with_reducible assumption
    | with_reducible refine good_ite ?_ ?_
    | with_reducible apply State.setBit_good
    | with_reducible apply State.freeShelves_good

theorem execShelfSetEnable_keeps (h : Good k s) (a0) : Keeps k (execShelfSetEnable a0 s) := by
  unfold execShelfSetEnable
  repeat' first
    | with_reducible assumption
    | with_reducible refine keeps_next.2 ?_
    | with_reducible apply State.shelfSetOn_good

@[simp ↓] theorem State.setAsm_good (h : Good k s) (a1 a2) : Good k (State.setAsm s a1 a2) := by
  unfold State.setAsm
  dsimp only
  simp +contextual (maxDischargeDepth := 100) only [h, ↓good_mk, Good.pend, Good.fuses, Good.mem, Good.spad, Good.regs, and_self, ↓State.setFld_good]

@[simp ↓] theorem State.asmOn_good (h : Good k s) (a1) : Good k (State.asmOn s a1) := by
  unfold State.asmOn
  repeat' first
    | with_reducible assumption
    | with_reducible refine good_ite ?_ ?_
    | with_reducible apply State.setBit_good
    | with_reducible apply State.setFld_good
    | with_reducible apply State.setAsm_good

theorem execAssemblerEnable_keeps (h : Good k s) (a0) : Keeps k (execAssemblerEnable a0 s) := by
  unfold execAssemblerEnable
  repeat' first
    | with_reducible assumption
    | with_reducible refine keeps_next.2 ?_
    | with_reducible apply State.asmOn_good

@[simp ↓] theorem State.joinBatch_good (h : Good k s) (a1 a2) : Good k (State.joinBatch s a1 a2) := by
  unfold State.joinBatch
  dsimp only
  simp +contextual (maxDischargeDepth := 100) only [h, ↓State.setAsm_good]

theorem execServeReq_keeps (h : Good k s) (a0) : Keeps k (execServeReq a0 s) := by
  unfold execServeReq
  repeat' first
    | with_reducible assumption
    | with_reducible refine good_ite ?_ ?_
    | with_reducible refine keeps_next.2 ?_
    | with_reducible apply State.dequeue_good
    | with_reducible apply State.cardEvent_good
    | with_reducible apply State.setAsm_good
    | with_reducible apply State.joinBatch_good
    | with_reducible refine good_of_pair (by assumption) ?_
    | simp only
    | split

theorem execBatchDeadline_keeps (h : Good k s) (a0) : Keeps k (execBatchDeadline a0 s) := by
  unfold execBatchDeadline
  repeat' first
    | with_reducible assumption
    | with_reducible refine good_ite ?_ ?_
    | with_reducible refine keeps_next.2 ?_
    | with_reducible apply State.setAsm_good
    | with_reducible apply State.advanceTo_good

theorem execBatchClose_keeps (h : Good k s) (a0) : Keeps k (execBatchClose a0 s) := by
  unfold execBatchClose
  repeat' first
    | with_reducible assumption
    | with_reducible refine good_ite ?_ ?_
    | with_reducible refine keeps_next.2 ?_
    | with_reducible apply State.memWrite_good
    | with_reducible apply State.accept_good
    | with_reducible apply State.count_good
    | with_reducible apply State.raise_good
    | with_reducible apply State.setFld_good
    | with_reducible apply State.setAsm_good
    | with_reducible apply State.joinBatch_good
    | simp only
    | split

end Sys2Proof.Machine
end

