-- ==== Sys2Proof/Laws/KeepSecurity.lean ====
section
/-! SUPPORT. What every operation of Machine/Security.lean keeps (Laws/Good.lean). -/

namespace Sys2Proof.Machine

variable {k : Key} {s t : State}

@[simp ↓] theorem State.modTrust_good (h : Good k s) {f : TrustState → TrustState} (hf : ∀ t, (f t).fuses = t.fuses) :
    Good k (s.modTrust f) := ⟨h.1, (hf _).trans h.2.1, h.2.2⟩

@[simp ↓] theorem State.modSpdm_good (h : Good k s) (a1) : Good k (State.modSpdm s a1) := by
  unfold State.modSpdm
  repeat' first
    | with_reducible assumption
    | with_reducible apply State.modTrust_good
    | simp only
    | with_reducible intro _

@[simp ↓] theorem State.trustRaise_good (h : Good k s) (a1 a2 a3 a4) : Good k (State.trustRaise s a1 a2 a3 a4) := by
  unfold State.trustRaise
  repeat' first
    | with_reducible assumption
    | with_reducible apply State.raise_good

@[simp ↓] theorem State.bootFrom_good (h : Good k s) (a1 a2) : Good k (State.bootFrom s a1 a2) := by
  unfold State.bootFrom
  dsimp only
  simp +contextual (maxDischargeDepth := 100) only [h, implies_true, ↓State.extend_good, ↓State.modTrust_good, ↓State.wr_good, ↓State.setFld_good]

@[simp ↓] theorem State.trySlot_good (h : Good k s) (a1) : Good k (State.trySlot s a1).1 := by
  unfold State.trySlot
  repeat' first
    | with_reducible assumption
    | with_reducible apply State.trustRaise_good
    | with_reducible apply State.bootFrom_good
    | simp only
    | split

theorem execSecureBoot_keeps (h : Good k s) (a0) : Keeps k (execSecureBoot a0 s) := by
  unfold execSecureBoot
  repeat' first
    | with_reducible assumption
    | with_reducible refine good_ite ?_ ?_
    | with_reducible refine keeps_next.2 ?_
    | with_reducible apply State.trustRaise_good
    | with_reducible apply State.domainUp_good
    | with_reducible apply State.trySlot_good
    | with_reducible apply State.setPhase_good
    | with_reducible apply State.modTrust_good
    | with_reducible refine good_of_pair (by assumption) ?_
    | simp only
    | split
    | with_reducible intro _

@[simp ↓] theorem State.spdmAnswer_good (h : Good k s) (a1 a2) : Good k (State.spdmAnswer s a1 a2) := by
  unfold State.spdmAnswer
  repeat' first
    | with_reducible assumption
    | with_reducible apply State.modSpdm_good

@[simp ↓] theorem State.spdmError_good (h : Good k s) (a1) : Good k (State.spdmError s a1) := by
  unfold State.spdmError
  repeat' first
    | with_reducible assumption
    | with_reducible apply State.spdmAnswer_good

@[simp ↓] theorem State.mctpBody_good (h : Good k s) (a1 a2 a3) : Good k (State.mctpBody s a1 a2 a3) := by
  unfold State.mctpBody
  simp +contextual (maxDischargeDepth := 50) [h]

theorem execMctpMessage_keeps (h : Good k s) (a0 a1 a2 a3) : Keeps k (execMctpMessage a0 a1 a2 a3 s) := by
  unfold execMctpMessage
  repeat' first
    | with_reducible assumption
    | with_reducible refine keeps_next.2 ?_
    | with_reducible apply State.hostRaise_good
    | with_reducible apply State.mctpBody_good
    | with_reducible apply good_modHost
    | split

@[simp ↓] theorem State.spdm_good (h : Good k s) (a1 a2 a3) (hf : ∀ st, Good k st → Good k (a3 st )) : Good k (State.spdm s a1 a2 a3) := by
  unfold State.spdm
  repeat' first
    | with_reducible assumption
    | with_reducible apply hf
    | with_reducible refine good_ite ?_ ?_
    | with_reducible apply State.spdmError_good

theorem execGetVersion_keeps (h : Good k s) (a0) : Keeps k (execGetVersion a0 s) := by
  unfold execGetVersion
  repeat' first
    | with_reducible assumption
    | with_reducible refine keeps_next.2 ?_
    | with_reducible apply State.spdm_good
    | with_reducible apply State.spdmAnswer_good
    | with_reducible apply State.modSpdm_good
    | with_reducible intro _

theorem execGetCapabilities_keeps (h : Good k s) (a0) : Keeps k (execGetCapabilities a0 s) := by
  unfold execGetCapabilities
  repeat' first
    | with_reducible assumption
    | with_reducible refine keeps_next.2 ?_
    | with_reducible apply State.spdm_good
    | with_reducible apply State.spdmAnswer_good
    | with_reducible apply State.modSpdm_good
    | with_reducible intro _

theorem execNegotiateAlgorithms_keeps (h : Good k s) (a0 a1) : Keeps k (execNegotiateAlgorithms a0 a1 s) := by
  unfold execNegotiateAlgorithms
  repeat' first
    | with_reducible assumption
    | with_reducible refine keeps_next.2 ?_
    | with_reducible apply State.spdm_good
    | with_reducible apply State.spdmAnswer_good
    | with_reducible apply State.modSpdm_good
    | with_reducible apply State.spdmError_good
    | split
    | with_reducible intro _

theorem execGetDigests_keeps (h : Good k s) (a0) : Keeps k (execGetDigests a0 s) := by
  unfold execGetDigests
  repeat' first
    | with_reducible assumption
    | with_reducible refine keeps_next.2 ?_
    | with_reducible apply State.spdm_good
    | with_reducible apply State.spdmAnswer_good
    | with_reducible intro _

theorem execGetCertificate_keeps (h : Good k s) (a0 a1 a2 a3) : Keeps k (execGetCertificate a0 a1 a2 a3 s) := by
  unfold execGetCertificate
  repeat' first
    | with_reducible assumption
    | with_reducible refine keeps_next.2 ?_
    | with_reducible apply State.spdm_good
    | with_reducible apply State.spdmError_good
    | with_reducible apply State.spdmAnswer_good
    | split
    | with_reducible intro _

theorem execChallenge_keeps (h : Good k s) (a0 a1 a2) : Keeps k (execChallenge a0 a1 a2 s) := by
  unfold execChallenge
  repeat' first
    | with_reducible assumption
    | with_reducible refine keeps_next.2 ?_
    | with_reducible apply State.spdm_good
    | with_reducible apply State.spdmError_good
    | with_reducible apply State.spdmAnswer_good
    | split
    | with_reducible intro _

theorem execGetMeasurements_keeps (h : Good k s) (a0 a1) : Keeps k (execGetMeasurements a0 a1 s) := by
  unfold execGetMeasurements
  repeat' first
    | with_reducible assumption
    | with_reducible refine keeps_next.2 ?_
    | with_reducible apply State.spdm_good
    | with_reducible apply State.spdmAnswer_good
    | with_reducible apply State.spdmError_good
    | simp only
    | split
    | with_reducible intro _

theorem execKeyExchange_keeps (h : Good k s) (a0 a1) : Keeps k (execKeyExchange a0 a1 s) := by
  unfold execKeyExchange
  repeat' first
    | with_reducible assumption
    | with_reducible refine keeps_next.2 ?_
    | with_reducible apply State.spdm_good
    | with_reducible apply State.spdmError_good
    | with_reducible apply State.draw_good
    | with_reducible apply State.spdmAnswer_good
    | with_reducible apply State.modSpdm_good
    | simp only
    | split
    | with_reducible intro _

theorem execFinish_keeps (h : Good k s) (a0 a1 a2) : Keeps k (execFinish a0 a1 a2 s) := by
  unfold execFinish
  repeat' first
    | with_reducible assumption
    | with_reducible refine keeps_next.2 ?_
    | with_reducible apply State.spdm_good
    | with_reducible apply State.spdmError_good
    | with_reducible apply State.modSpdm_good
    | with_reducible apply State.spdmAnswer_good
    | simp only
    | split
    | with_reducible intro _

@[simp ↓] theorem State.inSession_good (h : Good k s) (a1) (hf : ∀ st, Good k st → Good k (a1 st )) : Good k (State.inSession s a1) := by
  unfold State.inSession
  repeat' first
    | with_reducible assumption
    | with_reducible apply hf
    | with_reducible refine good_ite ?_ ?_
    | with_reducible apply State.spdmError_good

theorem execHeartbeat_keeps (h : Good k s) (a0) : Keeps k (execHeartbeat a0 s) := by
  unfold execHeartbeat
  repeat' first
    | with_reducible assumption
    | with_reducible refine keeps_next.2 ?_
    | with_reducible apply State.spdm_good
    | with_reducible apply State.inSession_good
    | with_reducible apply State.spdmAnswer_good
    | with_reducible intro _

theorem execKeyUpdate_keeps (h : Good k s) (a0) : Keeps k (execKeyUpdate a0 s) := by
  unfold execKeyUpdate
  repeat' first
    | with_reducible assumption
    | with_reducible refine keeps_next.2 ?_
    | with_reducible apply State.spdm_good
    | with_reducible apply State.inSession_good
    | with_reducible apply State.spdmAnswer_good
    | with_reducible apply State.modSpdm_good
    | with_reducible intro _

theorem execEndSession_keeps (h : Good k s) (a0) : Keeps k (execEndSession a0 s) := by
  unfold execEndSession
  repeat' first
    | with_reducible assumption
    | with_reducible refine keeps_next.2 ?_
    | with_reducible apply State.spdm_good
    | with_reducible apply State.inSession_good
    | with_reducible apply State.spdmAnswer_good
    | with_reducible apply State.modSpdm_good
    | with_reducible intro _

theorem execGetCtxMeasurement_keeps (h : Good k s) (a0 a1 a2) : Keeps k (execGetCtxMeasurement a0 a1 a2 s) := by
  unfold execGetCtxMeasurement
  repeat' first
    | with_reducible assumption
    | with_reducible refine keeps_next.2 ?_
    | with_reducible apply State.spdm_good
    | with_reducible apply State.spdmAnswer_good
    | simp only
    | with_reducible intro _

theorem execPqSign_keeps (h : Good k s) (a0 a1) : Keeps k (execPqSign a0 a1 s) := by
  unfold execPqSign
  repeat' first
    | with_reducible assumption
    | with_reducible refine keeps_next.2 ?_
    | with_reducible apply State.spdm_good
    | with_reducible apply State.spdmAnswer_good
    | with_reducible intro _

@[simp ↓] theorem State.qualifying_good (h : Good k s) (a1 a2) (hf : ∀ st, Good k st → Good k (a2 st )) : Good k (State.qualifying s a1 a2) := by
  unfold State.qualifying
  repeat' first
    | with_reducible assumption
    | with_reducible apply hf
    | with_reducible apply State.spdm_good
    | with_reducible apply State.spdmError_good
    | split
    | with_reducible intro _

theorem execCommitSvn_keeps (h : Good k s) (a0) : Keeps k (execCommitSvn a0 s) := by
  unfold execCommitSvn
  repeat' first
    | with_reducible assumption
    | with_reducible refine keeps_next.2 ?_
    | with_reducible apply State.qualifying_good
    | with_reducible apply State.spdmAnswer_good
    | with_reducible apply State.setFld_good
    | with_reducible intro _

@[simp ↓] theorem State.keyBad_good (h : Good k s)  : Good k (State.keyBad s) := by
  unfold State.keyBad
  repeat' first
    | with_reducible assumption
    | with_reducible apply State.spdmError_good
    | with_reducible apply State.trustRaise_good

@[simp ↓] theorem State.keyMessage_good (h : Good k s) (a1 a2) (hf : ∀ st, Good k st → Good k (a2 st )) : Good k (State.keyMessage s a1 a2) := by
  unfold State.keyMessage
  repeat' first
    | with_reducible assumption
    | with_reducible apply hf
    | with_reducible apply State.spdm_good
    | with_reducible apply State.spdmError_good
    | with_reducible apply State.trustRaise_good
    | split
    | with_reducible intro _

theorem execSetKey_keeps (h : Good k s) (a0 a1 a2 a3 a4) : Keeps k (execSetKey a0 a1 a2 a3 a4 s) := by
  unfold execSetKey
  repeat' first
    | with_reducible assumption
    | with_reducible refine keeps_next.2 ?_
    | with_reducible apply State.keyMessage_good
    | with_reducible apply State.keyBad_good
    | with_reducible apply State.draw_good
    | with_reducible apply good_modFab
    | with_reducible apply State.spdmAnswer_good
    | with_reducible apply State.wr_good
    | with_reducible apply State.setBit_good
    | simp only
    | split
    | with_reducible intro _

theorem execClearKey_keeps (h : Good k s) (a0 a1 a2) : Keeps k (execClearKey a0 a1 a2 s) := by
  unfold execClearKey
  repeat' first
    | with_reducible assumption
    | with_reducible refine keeps_next.2 ?_
    | with_reducible apply State.keyMessage_good
    | with_reducible apply State.keyBad_good
    | with_reducible apply good_modFab
    | with_reducible apply State.spdmAnswer_good
    | with_reducible apply State.wr_good
    | with_reducible apply State.setBit_good
    | simp only
    | split
    | with_reducible intro _

theorem execSetEnc_keeps (h : Good k s) (a0 a1 a2) : Keeps k (execSetEnc a0 a1 a2 s) := by
  unfold execSetEnc
  repeat' first
    | with_reducible assumption
    | with_reducible refine keeps_next.2 ?_
    | with_reducible apply State.keyMessage_good
    | with_reducible apply State.keyBad_good
    | with_reducible apply State.spdmAnswer_good
    | with_reducible apply State.setBit_good
    | simp only
    | split
    | with_reducible intro _

theorem execArmTx_keeps (h : Good k s) (a0 a1 a2 a3) : Keeps k (execArmTx a0 a1 a2 a3 s) := by
  unfold execArmTx
  repeat' first
    | with_reducible assumption
    | with_reducible refine keeps_next.2 ?_
    | with_reducible apply State.keyMessage_good
    | with_reducible apply State.keyBad_good
    | with_reducible apply good_modFab
    | with_reducible apply State.spdmAnswer_good
    | with_reducible apply State.wr_good
    | with_reducible apply State.setBit_good
    | simp only
    | split
    | with_reducible intro _

@[simp ↓] theorem State.drawNonce_good (h : Good k s)  : Good k (State.drawNonce s) := by
  unfold State.drawNonce
  dsimp only
  simp +contextual (maxDischargeDepth := 100) only [h, implies_true, ↓State.draw_good, ↓State.modTrust_good, ↓State.putBytes_good]

theorem execDbgNonce_keeps (h : Good k s)  : Keeps k (execDbgNonce s) := by
  unfold execDbgNonce
  repeat' first
    | with_reducible assumption
    | with_reducible refine keeps_next.2 ?_
    | with_reducible apply State.drawNonce_good

@[simp ↓] theorem State.tokenBad_good (h : Good k s) (a1) : Good k (State.tokenBad s a1) := by
  unfold State.tokenBad
  repeat' first
    | with_reducible assumption
    | with_reducible apply State.trustRaise_good
    | with_reducible apply State.intEvent_good
    | with_reducible apply State.setFld_good
    | with_reducible apply State.modTrust_good
    | simp only
    | with_reducible intro _

@[simp ↓] theorem State.submitToken_good (h : Good k s) (a1) : Good k (State.submitToken s a1) := by
  unfold State.submitToken
  repeat' first
    | with_reducible assumption
    | with_reducible refine good_ite ?_ ?_
    | with_reducible apply State.tokenBad_good
    | with_reducible apply State.modTrust_good
    | with_reducible apply State.extend_good
    | with_reducible apply State.setBit_good
    | with_reducible apply State.extendCtx_good
    | with_reducible apply State.trustRaise_good
    | with_reducible apply State.intEvent_good
    | simp only
    | split
    | with_reducible intro _

theorem execDebugToken_keeps (h : Good k s) (a0 a1) : Keeps k (execDebugToken a0 a1 s) := by
  unfold execDebugToken
  repeat' first
    | with_reducible assumption
    | with_reducible refine keeps_next.2 ?_
    | with_reducible apply State.spdm_good
    | with_reducible apply State.spdmAnswer_good
    | with_reducible apply State.submitToken_good
    | with_reducible apply State.spdmError_good
    | split
    | with_reducible intro _

@[simp ↓] theorem State.tokenWord_good (h : Good k s) (a1) : Good k (State.tokenWord s a1) := by
  unfold State.tokenWord
  dsimp only
  simp +contextual (maxDischargeDepth := 100) only [h, ↓good_ite, implies_true, ↓State.modTrust_good, ↓State.submitToken_good]

@[simp ↓] theorem State.relock_good (h : Good k s)  : Good k (State.relock s) := by
  unfold State.relock
  dsimp only
  simp +contextual (maxDischargeDepth := 100) only [h, ↓good_foldl, implies_true, ↓State.setBit_good]

theorem execDbgLock_keeps (h : Good k s)  : Keeps k (execDbgLock s) := by
  unfold execDbgLock
  repeat' first
    | with_reducible assumption
    | with_reducible refine keeps_next.2 ?_
    | with_reducible apply State.relock_good

@[simp ↓] theorem State.jtagTo_good (h : Good k s) (a1 a2) : Good k (State.jtagTo s a1 a2) := by
  unfold State.jtagTo
  repeat' first
    | with_reducible assumption
    | with_reducible apply State.modTrust_good
    | simp only
    | with_reducible intro _

theorem execBypass_keeps (h : Good k s)  : Keeps k (execBypass s) := by
  unfold execBypass
  repeat' first
    | with_reducible assumption
    | with_reducible refine keeps_next.2 ?_
    | with_reducible apply State.jtagTo_good

theorem execIdcode_keeps (h : Good k s)  : Keeps k (execIdcode s) := by
  unfold execIdcode
  repeat' first
    | with_reducible assumption
    | with_reducible refine keeps_next.2 ?_
    | with_reducible apply State.jtagTo_good

theorem execSamplePreload_keeps (h : Good k s) (a0 a1) : Keeps k (execSamplePreload a0 a1 s) := by
  unfold execSamplePreload
  repeat' first
    | with_reducible assumption
    | with_reducible refine keeps_next.2 ?_
    | with_reducible apply State.modTrust_good
    | with_reducible apply State.jtagTo_good
    | simp only
    | with_reducible intro _

theorem execExtest_keeps (h : Good k s)  : Keeps k (execExtest s) := by
  unfold execExtest
  repeat' first
    | with_reducible assumption
    | with_reducible refine good_ite ?_ ?_
    | with_reducible refine keeps_next.2 ?_
    | with_reducible apply State.modTrust_good
    | with_reducible apply State.jtagTo_good
    | simp only
    | with_reducible intro _

end Sys2Proof.Machine
end

