-- ==== Sys2Proof/Laws/KeepStartup.lean ====
section
/-! SUPPORT. What every operation of Machine/Startup.lean keeps (Laws/Good.lean). -/

namespace Sys2Proof.Machine

variable {k : Key} {s t : State}

@[simp ↓] theorem State.fuseRegs_good (h : Good k s) (h2 : Good k t)  : Good k (State.fuseRegs s t) := by
  unfold State.fuseRegs
  repeat' first
    | with_reducible assumption
    | with_reducible apply State.setBit_good
    | with_reducible apply State.setFld_good
    | with_reducible apply State.wr_good

@[simp ↓] theorem State.keepRegs_good (h : Good k s) (h2 : Good k t) (a2) : Good k (State.keepRegs s t a2) := by
  unfold State.keepRegs
  repeat' first
    | with_reducible assumption
    | with_reducible refine good_foldl ?_ (fun _ _ _ => ?_)
    | with_reducible apply State.wr_good

@[simp ↓] theorem State.settleRebuild_good (h : Good k s) (a1) : Good k (State.settleRebuild s a1) := by
  unfold State.settleRebuild
  repeat' first
    | with_reducible assumption
    | with_reducible refine good_ite ?_ ?_
    | with_reducible refine good_foldl ?_ (fun _ _ _ => ?_)
    | with_reducible apply State.setFld_good

@[simp ↓] theorem State.resetTo_good (h : Good k s) (a1 a2) : Good k (State.resetTo s a1 a2) := by
  unfold State.resetTo
  extract_lets ledger obs trust start t0 t1 t2 smem recov t3 t4
  have h0 : Good k t0 := ⟨h.1, h.2.1, rfl, rfl, rfl⟩
  clear_value t0
  have h1 : Good k t1 := State.wr_good (State.fuseRegs_good h h0) _ _
  clear_value t1
  have h2 : Good k t2 := good_ite h1 (State.wr_good h1 _ _)
  clear_value t2
  have h3 : Good k t3 := h2
  clear_value t3
  have h4 : Good k t4 := State.setFld_good (State.keepRegs_good h h3 _) _ _ _ _
  clear_value t4
  exact good_ite (good_foldl h4 fun _ _ hs => State.settleRebuild_good hs _) h2

@[simp ↓] theorem State.holdReset_good (h : Good k s) (a1) : Good k (State.holdReset s a1) := by
  unfold State.holdReset
  dsimp only
  simp +contextual (maxDischargeDepth := 100) only [h, ↓good_mk, Good.pend, Good.fuses, Good.mem, Good.spad, Good.regs, and_self]

@[simp ↓] theorem State.thermalHold_good (h : Good k s) : Good k (State.thermalHold s) := by
  unfold State.thermalHold
  repeat' first
    | with_reducible assumption
    | with_reducible apply State.holdReset_good
    | with_reducible apply State.setPhase_good
    | with_reducible apply good_modPower

@[simp ↓] theorem State.latchStraps_good (h : Good k s) (a1 a2) : Good k (State.latchStraps s a1 a2) := by
  unfold State.latchStraps
  repeat' first
    | with_reducible assumption
    | with_reducible refine good_foldl ?_ (fun _ _ _ => ?_)
    | with_reducible apply State.presetPort_good
    | simp only [↓good_upd]

@[simp ↓] theorem State.powerOnReset_good (h : Good k s) : Good k (State.powerOnReset s) := by
  unfold State.powerOnReset
  repeat' first
    | with_reducible assumption
    | with_reducible apply State.holdReset_good
    | with_reducible apply State.resetTo_good

theorem execPowerOnReset_keeps (h : Good k s) : Keeps k (execPowerOnReset s) := by
  unfold execPowerOnReset
  repeat' first
    | with_reducible assumption
    | with_reducible refine keeps_next.2 ?_
    | with_reducible apply State.powerOnReset_good

theorem execSupplySample_keeps (h : Good k s) (a0) : Keeps k (execSupplySample a0 s) := by
  unfold execSupplySample
  repeat' first
    | with_reducible assumption
    | with_reducible refine keeps_next.2 ?_
    | with_reducible refine good_ite ?_ ?_
    | with_reducible refine good_foldl ?_ (fun _ _ _ => ?_)
    | with_reducible apply State.supplyLimit_good
    | with_reducible apply State.judgeRail_good
    | with_reducible apply State.powerOnReset_good
    | simp only [↓good_upd]

@[simp ↓] theorem State.coldReset_good (h : Good k s) (a1) : Good k (State.coldReset s a1) := by
  unfold State.coldReset
  repeat' first
    | with_reducible assumption
    | with_reducible apply State.holdReset_good
    | with_reducible apply State.resetTo_good

theorem execColdReset_keeps (h : Good k s) (a0) : Keeps k (execColdReset a0 s) := by
  unfold execColdReset
  repeat' first
    | with_reducible assumption
    | with_reducible refine keeps_next.2 ?_
    | with_reducible apply State.coldReset_good

@[simp ↓] theorem State.warmReset_good (h : Good k s) (a1 a2 a3) : Good k (State.warmReset s a1 a2 a3) := by
  unfold State.warmReset
  repeat' first
    | with_reducible assumption
    | with_reducible refine good_ite ?_ ?_
    | with_reducible apply State.holdReset_good
    | with_reducible apply State.ledgerWrite_good
    | with_reducible apply State.latchStraps_good
    | with_reducible apply State.thermalHold_good
    | with_reducible apply State.resetTo_good

theorem execWarmReset_keeps (h : Good k s) (a0 a1 a2) : Keeps k (execWarmReset a0 a1 a2 s) := by
  unfold execWarmReset
  repeat' first
    | with_reducible assumption
    | with_reducible refine keeps_next.2 ?_
    | with_reducible apply State.warmReset_good

theorem execHostReset_keeps (h : Good k s)  : Keeps k (execHostReset s) := by
  unfold execHostReset
  simp +contextual (maxDischargeDepth := 50) [h]

theorem execResetRelease_keeps (h : Good k s) (a0 a1 a2) : Keeps k (execResetRelease a0 a1 a2 s) := by
  unfold execResetRelease
  repeat' first
    | with_reducible assumption
    | with_reducible refine keeps_next.2 ?_
    | with_reducible refine good_ite ?_ ?_
    | with_reducible apply State.latchStraps_good
    | with_reducible apply State.thermalHold_good
    | with_reducible apply good_modPower
    | simp only [↓good_upd]

theorem execThermalHoldEnd_keeps (h : Good k s)  : Keeps k (execThermalHoldEnd s) := by
  unfold execThermalHoldEnd
  repeat' first
    | with_reducible assumption
    | with_reducible refine good_ite ?_ ?_
    | with_reducible refine keeps_next.2 ?_
    | with_reducible apply good_modPower
    | with_reducible apply State.setBit_good
    | with_reducible apply State.setPhase_good
    | simp only [↓good_upd]

theorem execRootLock_keeps (h : Good k s)  : Keeps k (execRootLock s) := by
  unfold execRootLock
  repeat' first
    | with_reducible assumption
    | with_reducible refine good_ite ?_ ?_
    | with_reducible refine keeps_next.2 ?_
    | with_reducible apply State.setBit_good

@[simp ↓] theorem State.endPhase_good (h : Good k s) (a1 a2) : Good k (State.endPhase s a1 a2) := by
  unfold State.endPhase
  repeat' first
    | with_reducible assumption
    | with_reducible apply State.setPhase_good
    | with_reducible apply State.wr_good

theorem execPhaseRom_keeps (h : Good k s) (a0) : Keeps k (execPhaseRom a0 s) := by
  unfold execPhaseRom
  repeat' first
    | with_reducible assumption
    | with_reducible refine good_ite ?_ ?_
    | with_reducible refine keeps_next.2 ?_
    | with_reducible apply State.endPhase_good

@[simp ↓] theorem State.loadLedger_good (h : Good k s)  : Good k (State.loadLedger s) := by
  unfold State.loadLedger
  dsimp only
  simp +contextual (maxDischargeDepth := 100) only [h, ↓good_ite, ↓good_mk, Good.pend, Good.fuses, Good.mem, Good.spad, Good.regs, and_self, ↓State.setBit_good, ↓State.wr_good]

@[simp ↓] theorem State.countReset_good (h : Good k s)  : Good k (State.countReset s) := by
  unfold State.countReset
  dsimp only
  simp +contextual (maxDischargeDepth := 100) only [h, ↓State.modLedger_good]

theorem execPhaseFirmware_keeps (h : Good k s) (a0 a1) : Keeps k (execPhaseFirmware a0 a1 s) := by
  unfold execPhaseFirmware
  repeat' first
    | with_reducible assumption
    | with_reducible refine good_ite ?_ ?_
    | with_reducible refine keeps_next.2 ?_
    | with_reducible apply State.raise_good
    | with_reducible apply State.countReset_good
    | with_reducible apply State.extend_good
    | with_reducible apply State.loadLedger_good
    | with_reducible apply State.setBit_good
    | with_reducible apply State.putBytes_good
    | with_reducible apply State.setFld_good
    | with_reducible apply State.endPhase_good
    | simp only [↓good_upd]

theorem execPhaseUncore_keeps (h : Good k s) (a0 a1) : Keeps k (execPhaseUncore a0 a1 s) := by
  unfold execPhaseUncore
  repeat' first
    | with_reducible assumption
    | with_reducible refine good_ite ?_ ?_
    | with_reducible refine keeps_next.2 ?_
    | with_reducible apply State.domainUp_good
    | with_reducible apply State.endPhase_good
    | with_reducible apply State.raise_good

@[simp ↓] theorem State.testBank_good (h : Good k s) (a1 a2) : Good k (State.testBank s a1 a2) := by
  unfold State.testBank
  repeat' first
    | with_reducible assumption
    | with_reducible apply State.modLedger_good
    | with_reducible apply State.wr_good
    | with_reducible apply State.raise_good
    | simp only [↓good_upd]
    | split

@[simp ↓] theorem State.testRows_good (h : Good k s) (a1 a2 a3 a4) : Good k (State.testRows s a1 a2 a3 a4) := by
  unfold State.testRows
  dsimp only
  simp +contextual (maxDischargeDepth := 100) only [h, ↓good_ite, ↓good_mk, Good.pend, Good.fuses, Good.mem, Good.spad, Good.regs, and_self, ↓State.testBank_good]

@[simp ↓] theorem State.testFailing_good (h : Good k s) (a1) : Good k (State.testFailing s a1) := by
  unfold State.testFailing
  dsimp only
  simp +contextual (maxDischargeDepth := 100) only [h, ↓good_ite, ↓State.setFld_good, ↓State.testRows_good]

theorem execPhaseMemory_keeps (h : Good k s) (a0 a1 a2 a3) : Keeps k (execPhaseMemory a0 a1 a2 a3 s) := by
  unfold execPhaseMemory
  repeat' first
    | with_reducible assumption
    | with_reducible refine good_ite ?_ ?_
    | with_reducible refine keeps_next.2 ?_
    | with_reducible refine good_foldl ?_ (fun _ _ _ => ?_)
    | with_reducible apply State.domainUp_good
    | with_reducible apply State.endPhase_good
    | with_reducible apply State.keepRegs_good
    | with_reducible apply State.testFailing_good
    | with_reducible apply State.showSpares_good
    | with_reducible apply State.raise_good
    | with_reducible apply State.modLedger_good
    | with_reducible apply State.setBit_good

@[simp ↓] theorem State.slotFails_good (h : Good k s) (a1) : Good k (State.slotFails s a1) := by
  unfold State.slotFails
  repeat' first
    | with_reducible assumption
    | with_reducible apply State.advise_good
    | with_reducible apply State.setBit_good
    | with_reducible apply State.setFld_good
    | with_reducible apply State.newSlot_good
    | with_reducible apply State.raise_good
    | with_reducible apply State.modLedger_good
    | simp only [↓good_upd]
    | split

@[simp ↓] theorem State.columnFails_good (h : Good k s) (a1 a2 a3) : Good k (State.columnFails s a1 a2 a3) := by
  unfold State.columnFails
  dsimp only
  simp +contextual (maxDischargeDepth := 100) only [h, ↓good_ite, ↓State.raise_good, ↓State.modLedger_good, ↓State.setFld_good, ↓State.slotFails_good]

@[simp ↓] theorem State.enableUnitQueues_good (h : Good k s)  : Good k (State.enableUnitQueues s) := by
  unfold State.enableUnitQueues
  dsimp only
  simp +contextual (maxDischargeDepth := 100) only [h, ↓good_ite, ↓good_foldl, implies_true, ↓State.wr_good, ↓State.queueOn_good]

@[simp ↓] theorem State.dividePorts_good (h : Good k s)  : Good k (State.dividePorts s) := by
  unfold State.dividePorts
  dsimp only
  simp +contextual (maxDischargeDepth := 100) only [h, ↓good_ite, ↓good_foldl, implies_true, ↓State.domainUp_good, ↓State.wr_good, ↓State.intEvent_good, ↓State.setBit_good]

@[simp ↓] theorem State.startSummary_good (h : Good k s) (a1) : Good k (State.startSummary s a1) := by
  unfold State.startSummary
  dsimp only
  simp +contextual (maxDischargeDepth := 100) only [h, ↓good_ite, ↓State.wr_good, ↓State.setBit_good]

theorem execPhaseCores_keeps (h : Good k s) (a0 a1 a2) : Keeps k (execPhaseCores a0 a1 a2 s) := by
  unfold execPhaseCores
  repeat' first
    | with_reducible assumption
    | with_reducible refine good_ite ?_ ?_
    | with_reducible refine keeps_next.2 ?_
    | with_reducible refine good_foldl ?_ (fun _ _ _ => ?_)
    | with_reducible apply State.keepRegs_good
    | with_reducible apply State.domainUp_good
    | with_reducible apply State.wr_good
    | with_reducible apply State.slotFails_good
    | with_reducible apply State.columnFails_good
    | with_reducible apply State.setUnit_good
    | with_reducible apply State.startSummary_good
    | with_reducible apply State.enableUnitQueues_good
    | with_reducible apply State.applyLimits_good
    | with_reducible apply State.vmaxDemand_good
    | with_reducible apply State.demand_good
    | with_reducible apply State.dividePorts_good
    | with_reducible apply State.endPhase_good
    | simp only [↓good_upd]

theorem execPhaseLinks_keeps (h : Good k s) (a0) : Keeps k (execPhaseLinks a0 s) := by
  unfold execPhaseLinks
  repeat' first
    | with_reducible assumption
    | with_reducible refine good_ite ?_ ?_
    | with_reducible refine keeps_next.2 ?_
    | with_reducible apply State.setFld_good
    | with_reducible apply State.setBit_good
    | with_reducible apply State.endPhase_good
    | with_reducible apply State.wr_good
    | simp only [↓good_upd]

end Sys2Proof.Machine
end

