-- ==== Sys2Proof/Laws/KeepRegWrite.lean ====
section
/-! SUPPORT. What every operation of Machine/RegWrite.lean keeps (Laws/Good.lean). -/

namespace Sys2Proof.Machine

variable {k : Key} {s t : State}

@[simp ↓] theorem State.plain_good (h : Good k s) (a1 a2 a3) : Good k (State.plain s a1 a2 a3) := by
  unfold State.plain
  dsimp only
  simp +contextual (maxDischargeDepth := 100) only [h, ↓State.wr_good]

@[simp ↓] theorem State.hdrWrite_good (h : Good k s) (a1 a2 a3) : Good k (State.hdrWrite s a1 a2 a3) := by
  unfold State.hdrWrite
  dsimp only
  simp +contextual (maxDischargeDepth := 100) only [h, ↓good_ite, ↓good_foldl, implies_true, ↓State.noteRequest_good, ↓State.plain_good, ↓State.intEvent_good, ↓State.setFld_good]

@[simp ↓] theorem State.coreWrite_good (h : Good k s) (a1 a2 a3 a4) : Good k (State.coreWrite s a1 a2 a3 a4) := by
  unfold State.coreWrite
  dsimp only
  simp +contextual (maxDischargeDepth := 100) only [h, ↓good_ite, ↓State.limitWrite_good, ↓State.agSelWrite_good, ↓State.plain_good]

@[simp ↓] theorem State.poolWrite_good (h : Good k s) (a1 a2 a3 a4) : Good k (State.poolWrite s a1 a2 a3 a4) := by
  unfold State.poolWrite
  dsimp only
  simp +contextual (maxDischargeDepth := 100) only [h, ↓good_ite, ↓State.poolOff_good, ↓State.wr_good, ↓State.poolOn_good, ↓State.setFld_good, ↓State.plain_good]

@[simp ↓] theorem State.smemWrite_good (h : Good k s) (a1 a2 a3 a4) : Good k (State.smemWrite s a1 a2 a3 a4) := by
  unfold State.smemWrite
  dsimp only
  simp +contextual (maxDischargeDepth := 100) only [h, ↓good_ite, ↓State.plain_good, ↓State.granuleWrite_good, ↓State.poolWrite_good]

@[simp ↓] theorem State.heldFields_good (h : Good k s) (a1 a2 a3) : Good k (State.heldFields s a1 a2 a3) := by
  unfold State.heldFields
  repeat' first
    | with_reducible assumption
    | with_reducible refine good_ite ?_ ?_
    | with_reducible apply State.setBit_good

@[simp ↓] theorem State.qmWrite_good (h : Good k s) (a1 a2 a3) : Good k (State.qmWrite s a1 a2 a3) := by
  unfold State.qmWrite
  repeat' first
    | with_reducible assumption
    | with_reducible refine good_ite ?_ ?_
    | with_reducible apply State.flushQueue_good
    | with_reducible apply State.setBit_good
    | with_reducible apply State.asmOn_good
    | with_reducible apply State.freeShelves_good
    | with_reducible apply State.wr_good
    | with_reducible apply State.asmOff_good
    | with_reducible apply State.plain_good
    | with_reducible apply State.heldFields_good
    | with_reducible apply State.shelfSetOn_good

@[simp ↓] theorem State.qselWrite_good (h : Good k s) (a1 a2 a3) : Good k (State.qselWrite s a1 a2 a3) := by
  unfold State.qselWrite
  repeat' first
    | with_reducible assumption
    | with_reducible refine good_ite ?_ ?_
    | with_reducible apply State.drainHeld_good
    | with_reducible apply State.setBit_good
    | with_reducible apply State.queueOn_good
    | with_reducible apply State.wr_good
    | with_reducible apply State.plain_good
    | with_reducible apply State.queueOff_good
    | with_reducible apply State.heldFields_good

@[simp ↓] theorem State.stgWrite_good (h : Good k s) (a1 a2 a3) : Good k (State.stgWrite s a1 a2 a3) := by
  unfold State.stgWrite
  dsimp only
  simp +contextual (maxDischargeDepth := 100) only [h, ↓good_ite, ↓State.seqRun_good, ↓State.seqStop_good, ↓State.plain_good]

@[simp ↓] theorem State.portCfgWrite_good (h : Good k s) (a1 a2 a3) : Good k (State.portCfgWrite s a1 a2 a3) := by
  unfold State.portCfgWrite
  dsimp only
  simp +contextual (maxDischargeDepth := 100) only [h, ↓good_ite, ↓good_foldl, implies_true, ↓State.intEvent_good, ↓State.plain_good]

@[simp ↓] theorem State.lnkWrite_good (h : Good k s) (a1 a2 a3) : Good k (State.lnkWrite s a1 a2 a3) := by
  unfold State.lnkWrite
  dsimp only
  simp +contextual (maxDischargeDepth := 100) only [h, ↓good_ite, ↓State.startRetrain_good, ↓State.portRestart_good, ↓State.portCfgWrite_good, ↓State.plain_good]

@[simp ↓] theorem State.fabWrite_good (h : Good k s) (a1 a2 a3) : Good k (State.fabWrite s a1 a2 a3) := by
  unfold State.fabWrite
  dsimp only
  simp +contextual (maxDischargeDepth := 100) only [h, ↓good_ite, ↓State.setBit_good, ↓State.setRollcallDone_good, ↓State.armSwap_good, ↓State.startCopy_good, ↓State.setChipId_good, ↓State.setFld_good, ↓State.plain_good, ↓State.tblWrite_good]

@[simp ↓] theorem State.mgtWrite_good (h : Good k s) (a1 a2 a3) : Good k (State.mgtWrite s a1 a2 a3) := by
  unfold State.mgtWrite
  dsimp only
  simp +contextual (maxDischargeDepth := 100) only [h, ↓good_ite, ↓good_mk, Good.pend, Good.fuses, Good.mem, Good.spad, Good.regs, and_self, ↓State.rejoin_good, ↓State.reclaimChip_good, ↓State.warmReset_good, ↓State.coldReset_good, ↓State.plain_good]

@[simp ↓] theorem State.pwrWrite_good (h : Good k s) (a1 a2 a3 a4) : Good k (State.pwrWrite s a1 a2 a3 a4) := by
  unfold State.pwrWrite
  dsimp only
  simp +contextual (maxDischargeDepth := 100) only [h, ↓good_ite, ↓State.plain_good, ↓State.intEvent_good, ↓State.domainEn_good]

@[simp ↓] theorem State.clkWrite_good (h : Good k s) (a1 a2 a3) : Good k (State.clkWrite s a1 a2 a3) := by
  unfold State.clkWrite
  repeat' first
    | with_reducible assumption
    | with_reducible refine good_ite ?_ ?_
    | with_reducible apply State.plain_good

@[simp ↓] theorem State.bufferWrite_good (h : Good k s) (a1 a2 a3 a4) (hf : ∀ st, Good k st → Good k (a4 st )) : Good k (State.bufferWrite s a1 a2 a3 a4) := by
  unfold State.bufferWrite
  repeat' first
    | with_reducible assumption
    | with_reducible apply hf
    | with_reducible refine good_ite ?_ ?_
    | with_reducible apply State.setBit_good
    | with_reducible apply State.obsErr_good
    | with_reducible apply State.plain_good

@[simp ↓] theorem State.obsWrite_good (h : Good k s) (a1 a2 a3) : Good k (State.obsWrite s a1 a2 a3) := by
  unfold State.obsWrite
  repeat' first
    | with_reducible assumption
    | with_reducible refine good_ite ?_ ?_
    | with_reducible apply State.sbufEnable_good
    | with_reducible apply State.setBit_good
    | with_reducible apply State.obsErr_good
    | with_reducible apply State.setFld_good
    | with_reducible apply State.bufferWrite_good
    | with_reducible apply State.unfreeze_good
    | with_reducible apply State.plain_good
    | with_reducible apply State.dumpArm_good
    | with_reducible apply State.takeSnapshot_good
    | with_reducible apply State.freezeArm_good

@[simp ↓] theorem State.obsselWrite_good (h : Good k s) (a1 a2 a3) : Good k (State.obsselWrite s a1 a2 a3) := by
  unfold State.obsselWrite
  dsimp only
  simp +contextual (maxDischargeDepth := 100) only [h, ↓good_ite, implies_true, ↓State.profileWrite_good, ↓State.bufferWrite_good, ↓State.cbufEnable_good, ↓State.obsErr_good, ↓State.plain_good]

@[simp ↓] theorem State.trustWrite_good (h : Good k s) (a1 a2 a3) : Good k (State.trustWrite s a1 a2 a3) := by
  unfold State.trustWrite
  dsimp only
  simp +contextual (maxDischargeDepth := 100) only [h, ↓good_ite, ↓State.relock_good, ↓State.tokenWord_good, ↓State.plain_good]

@[simp ↓] theorem State.hostWrite_good (h : Good k s) (a1 a2 a3) : Good k (State.hostWrite s a1 a2 a3) := by
  unfold State.hostWrite
  dsimp only
  simp +contextual (maxDischargeDepth := 100) only [h, ↓good_ite, ↓State.doorbell_good, ↓State.faultClear_good, ↓State.ringCfgWrite_good, ↓State.intEvent_good, ↓State.plain_good]

@[simp ↓] theorem State.regWrite_good (h : Good k s) (a1 a2 a3 a4) : Good k (State.regWrite s a1 a2 a3 a4) := by
  unfold State.regWrite
  repeat' first
    | with_reducible assumption
    | with_reducible refine good_ite ?_ ?_
    | with_reducible apply State.plain_good
    | with_reducible apply State.ctxErr_good
    | with_reducible apply State.obsselWrite_good
    | with_reducible apply State.privDenied_good
    | with_reducible apply State.qselWrite_good
    | with_reducible apply State.hdrWrite_good
    | with_reducible apply State.coreWrite_good
    | with_reducible apply State.mgtWrite_good
    | with_reducible apply State.dbgRead_good
    | with_reducible apply State.smemWrite_good
    | with_reducible apply State.qmWrite_good
    | with_reducible apply State.stgWrite_good
    | with_reducible apply State.cfgErr_good
    | with_reducible apply State.lnkWrite_good
    | with_reducible apply State.fabWrite_good
    | with_reducible apply State.ctxCommand_good
    | with_reducible apply State.pwrWrite_good
    | with_reducible apply State.clkWrite_good
    | with_reducible apply State.obsWrite_good
    | with_reducible apply State.ledgerWrite_good
    | with_reducible apply State.trustWrite_good
    | with_reducible apply State.hostWrite_good
    | simp only [↓good_upd]
    | split

end Sys2Proof.Machine
end

