-- ==== Sys2Proof/Laws/KeepAccess.lean ====
section
/-! SUPPORT. What every operation of Machine/Access.lean keeps (Laws/Good.lean). -/

namespace Sys2Proof.Machine

variable {k : Key} {s t : State}

@[simp ↓] theorem State.modLatch_good (h : Good k s) (a1 a2) : Good k (State.modLatch s a1 a2) := by
  unfold State.modLatch
  repeat' first
    | with_reducible assumption
    | simp only [↓good_upd]

@[simp ↓] theorem State.applyHeld_good (h : Good k s) (a1) : Good k (State.applyHeld s a1) := by
  unfold State.applyHeld
  repeat' first
    | with_reducible assumption
    | with_reducible apply State.modLatch_good
    | with_reducible apply State.regWrite_good
    | simp only
    | split

@[simp ↓] theorem State.regLoad_good (h : Good k s) (a1) : Good k (State.regLoad s a1).1 := by
  unfold State.regLoad
  dsimp only
  simp +contextual (maxDischargeDepth := 100) only [h, ↓good_ite, ↓State.drawNonce_good]

@[simp ↓] theorem State.read32_good (h : Good k s) (a1 a2 a3) : Good k (State.read32 s a1 a2 a3).1 := by
  unfold State.read32
  repeat' first
    | with_reducible assumption
    | with_reducible apply State.modLatch_good
    | with_reducible apply State.applyHeld_good
    | with_reducible apply State.regLoad_good
    | simp only
    | split

@[simp ↓] theorem State.write32_good (h : Good k s) (a1 a2 a3 a4) : Good k (State.write32 s a1 a2 a3 a4) := by
  unfold State.write32
  repeat' first
    | with_reducible assumption
    | with_reducible refine good_ite ?_ ?_
    | with_reducible apply State.modLatch_good
    | with_reducible apply State.applyHeld_good
    | with_reducible apply State.regWrite_good
    | simp only
    | split

@[simp ↓] theorem State.readTwo_good (h : Good k s) (a1 a2 a3) : Good k (State.readTwo s a1 a2 a3).1 := by
  unfold State.readTwo
  dsimp only
  simp +contextual (maxDischargeDepth := 100) only [h, ↓State.read32_good]

@[simp ↓] theorem State.readRaw_good (h : Good k s) (a1 a2 a3 a4) : Good k (State.readRaw s a1 a2 a3 a4).1 := by
  unfold State.readRaw
  repeat' first
    | with_reducible assumption
    | with_reducible apply State.regLoad_good
    | with_reducible apply State.modLatch_good
    | with_reducible apply State.applyHeld_good
    | with_reducible apply State.readTwo_good
    | with_reducible apply State.read32_good
    | split

theorem noteRead_good {p : State × Nat} (h : Good k p.1) (ag) : Good k (noteRead ag p).1 := State.modLatch_good h _ _

@[simp ↓] theorem State.readReg_good (h : Good k s) (a1 a2 a3 a4) : Good k (State.readReg s a1 a2 a3 a4).1 := by
  unfold State.readReg
  exact noteRead_good (State.readRaw_good h _ _ _ _) _

@[simp ↓] theorem State.writeReg_good (h : Good k s) (a1 a2 a3 a4 a5) : Good k (State.writeReg s a1 a2 a3 a4 a5) := by
  unfold State.writeReg
  repeat' first
    | with_reducible assumption
    | with_reducible refine good_ite ?_ ?_
    | with_reducible apply State.regWrite_good
    | with_reducible apply State.modLatch_good
    | with_reducible apply State.applyHeld_good
    | with_reducible apply State.write32_good
    | split

@[simp ↓] theorem State.refuse_good (h : Good k s) (a1 a2) : Good k (State.refuse s a1 a2) := by
  unfold State.refuse
  repeat' first
    | with_reducible assumption
    | with_reducible refine good_ite ?_ ?_
    | with_reducible apply State.stageFault_good
    | with_reducible apply State.privDenied_good

@[simp ↓] theorem State.tryRead_good (h : Good k s) (a1 a2 a3 a4) : Good k (State.tryRead s a1 a2 a3 a4).1 := by
  unfold State.tryRead
  repeat' first
    | with_reducible assumption
    | with_reducible apply State.readReg_good
    | with_reducible apply State.refuse_good
    | simp only
    | split

@[simp ↓] theorem State.tryWrite_good (h : Good k s) (a1 a2 a3 a4 a5) : Good k (State.tryWrite s a1 a2 a3 a4 a5).1 := by
  unfold State.tryWrite
  repeat' first
    | with_reducible assumption
    | with_reducible apply State.writeReg_good
    | with_reducible apply State.refuse_good
    | split

theorem execIntForce_keeps (h : Good k s) (a0 a1 a2) : Keeps k (execIntForce a0 a1 a2 s) := by
  unfold execIntForce
  repeat' first
    | with_reducible assumption
    | with_reducible refine keeps_next.2 ?_
    | with_reducible apply State.tryWrite_good

theorem execIntEnable_keeps (h : Good k s) (a0 a1 a2) : Keeps k (execIntEnable a0 a1 a2 s) := by
  unfold execIntEnable
  repeat' first
    | with_reducible assumption
    | with_reducible refine keeps_next.2 ?_
    | with_reducible apply State.tryWrite_good

theorem execLock_keeps (h : Good k s) (a0 a1) : Keeps k (execLock a0 a1 s) := by
  unfold execLock
  repeat' first
    | with_reducible assumption
    | with_reducible refine keeps_next.2 ?_
    | with_reducible apply State.tryWrite_good

theorem execReadLatch_keeps (h : Good k s) (a0 a1 a2) : Keeps k (execReadLatch a0 a1 a2 s) := by
  unfold execReadLatch
  repeat' first
    | with_reducible assumption
    | with_reducible refine keeps_next.2 ?_
    | with_reducible apply State.tryRead_good

theorem execRegisterWrite_keeps (h : Good k s) (a0 a1 a2 a3 a4) : Keeps k (execRegisterWrite a0 a1 a2 a3 a4 s) := by
  unfold execRegisterWrite
  repeat' first
    | with_reducible assumption
    | with_reducible refine good_ite ?_ ?_
    | with_reducible refine keeps_next.2 ?_
    | with_reducible apply State.tryWrite_good

theorem execMmr_keeps (h : Good k s) (a0) : Keeps k (execMmr a0 s) := by
  unfold execMmr
  repeat' first
    | with_reducible assumption
    | with_reducible refine keeps_next.2 ?_
    | with_reducible apply State.seqDo_good
    | with_reducible apply State.stageFault_good
    | with_reducible apply State.tryRead_good
    | with_reducible apply State.seqPut_good
    | with_reducible refine good_of_pair (by assumption) ?_
    | split
    | with_reducible intro _

theorem execMmw_keeps (h : Good k s) (a0) : Keeps k (execMmw a0 s) := by
  unfold execMmw
  repeat' first
    | with_reducible assumption
    | with_reducible refine keeps_next.2 ?_
    | with_reducible apply State.seqDo_good
    | with_reducible apply State.stageFault_good
    | with_reducible apply State.tryWrite_good
    | with_reducible apply State.seqNext_good
    | with_reducible refine good_of_pair (by assumption) ?_
    | split
    | with_reducible intro _

@[simp ↓] theorem State.unmapped_good (h : Good k s)  : Good k (State.unmapped s) := by
  unfold State.unmapped
  repeat' first
    | with_reducible assumption
    | with_reducible apply State.count_good

theorem execWrite_keeps (h : Good k s)  : Keeps k (execWrite s) := by
  unfold execWrite
  repeat' first
    | with_reducible assumption
    | with_reducible refine good_ite ?_ ?_
    | with_reducible refine keeps_next.2 ?_
    | with_reducible apply State.takeIn_good
    | with_reducible apply State.landWrite_good
    | with_reducible apply State.wackOf_good
    | with_reducible apply State.privDenied_good
    | with_reducible apply State.tryWrite_good
    | with_reducible apply State.unmapped_good
    | with_reducible refine good_of_some_third (by assumption) ?_
    | simp only
    | split

theorem execRreq_keeps (h : Good k s)  : Keeps k (execRreq s) := by
  unfold execRreq
  repeat' first
    | with_reducible assumption
    | with_reducible refine good_ite ?_ ?_
    | with_reducible refine keeps_next.2 ?_
    | with_reducible apply State.takeIn_good
    | with_reducible apply State.sendPkt_good
    | with_reducible apply State.privDenied_good
    | with_reducible apply State.unmapped_good
    | with_reducible apply State.tryRead_good
    | with_reducible refine good_of_pair (by assumption) ?_
    | with_reducible refine good_of_some_third (by assumption) ?_
    | simp only
    | split

@[simp ↓] theorem State.regMessage_good (h : Good k s) (a1 a2 a3 a4) (hf : ∀ st x0 x1, Good k st → Good k (a4 st x0 x1)) : Good k (State.regMessage s a1 a2 a3 a4) := by
  unfold State.regMessage
  repeat' first
    | with_reducible assumption
    | with_reducible apply hf
    | with_reducible apply State.mgmt_good
    | with_reducible apply State.respond_good
    | with_reducible apply State.privDenied_good
    | split
    | with_reducible intro _

theorem execRegRead_keeps (h : Good k s) (a0 a1) : Keeps k (execRegRead a0 a1 s) := by
  unfold execRegRead
  repeat' first
    | with_reducible assumption
    | with_reducible refine keeps_next.2 ?_
    | with_reducible apply State.regMessage_good
    | with_reducible apply State.readReg_good
    | with_reducible apply State.respond_good
    | simp only
    | with_reducible intro _

theorem execRegWrite_keeps (h : Good k s) (a0 a1 a2) : Keeps k (execRegWrite a0 a1 a2 s) := by
  unfold execRegWrite
  repeat' first
    | with_reducible assumption
    | with_reducible refine keeps_next.2 ?_
    | with_reducible apply State.regMessage_good
    | with_reducible apply State.respond_good
    | with_reducible apply State.writeReg_good
    | split
    | with_reducible intro _

@[simp ↓] theorem State.hostAnswer_good (h : Good k s) (a1 a2 a3) : Good k (State.hostAnswer s a1 a2 a3) := by
  unfold State.hostAnswer
  repeat' first
    | with_reducible assumption
    | with_reducible apply good_modHost

@[simp ↓] theorem State.hostUr_good (h : Good k s) (a1) : Good k (State.hostUr s a1) := by
  unfold State.hostUr
  dsimp only
  simp +contextual (maxDischargeDepth := 100) only [h, ↓good_ite, ↓State.count_good, ↓State.hostAnswer_good]

theorem execBar0Access_keeps (h : Good k s) (a0 a1 a2 a3) : Keeps k (execBar0Access a0 a1 a2 a3 s) := by
  unfold execBar0Access
  repeat' first
    | with_reducible assumption
    | with_reducible refine good_ite ?_ ?_
    | with_reducible refine keeps_next.2 ?_
    | with_reducible apply State.globalEvent_good
    | with_reducible apply State.hostAnswer_good
    | with_reducible apply State.hostUr_good
    | with_reducible apply State.privDenied_good
    | with_reducible apply State.tryWrite_good
    | with_reducible apply State.tryRead_good
    | with_reducible refine good_of_pair (by assumption) ?_
    | split

@[simp ↓] theorem State.hostAccount_good (h : Good k s) (a1 a2) : Good k (State.hostAccount s a1 a2) := by
  unfold State.hostAccount
  dsimp only
  simp +contextual (maxDischargeDepth := 100) only [h, ↓good_foldl, implies_true, ↓State.account_good]

@[simp ↓] theorem State.bar2Read_good (h : Good k s) (a1 a2) : Good k (State.bar2Read s a1 a2) := by
  unfold State.bar2Read
  dsimp only
  simp +contextual (maxDischargeDepth := 100) only [h, ↓good_ite, ↓State.memRead_good, ↓State.globalEvent_good, ↓State.hostAccount_good, ↓State.hostAnswer_good, ↓State.count_good]

@[simp ↓] theorem State.bar2Write_good (h : Good k s) (a1 a2 a3) : Good k (State.bar2Write s a1 a2 a3) := by
  unfold State.bar2Write
  dsimp only
  simp +contextual (maxDischargeDepth := 100) only [h, ↓good_ite, ↓good_foldl, implies_true, ↓State.globalEvent_good, ↓State.hostAccount_good, ↓State.setMemHealth_good, ↓State.rowWritten_good, ↓State.count_good, ↓State.memWrite_good]

@[simp ↓] theorem State.bar2Go_good (h : Good k s) (a1) : Good k (State.bar2Go s a1) := by
  unfold State.bar2Go
  repeat' first
    | with_reducible assumption
    | with_reducible refine good_ite ?_ ?_
    | with_reducible apply State.hostUr_good
    | with_reducible apply State.bar2Read_good
    | with_reducible apply State.bar2Write_good
    | split

@[simp ↓] theorem State.bar2Access_good (h : Good k s) (a1) : Good k (State.bar2Access s a1) := by
  unfold State.bar2Access
  dsimp only
  simp +contextual (maxDischargeDepth := 100) only [h, ↓good_ite, ↓good_mk, Good.pend, Good.fuses, Good.mem, Good.spad, Good.regs, and_self, ↓State.hostAnswer_good, ↓State.privDenied_good, ↓State.bar2Go_good]

theorem execBar2Read_keeps (h : Good k s) (a0 a1 a2) : Keeps k (execBar2Read a0 a1 a2 s) := by
  unfold execBar2Read
  repeat' first
    | with_reducible assumption
    | with_reducible refine keeps_next.2 ?_
    | with_reducible apply State.bar2Access_good
    | with_reducible apply State.memUpset_good

theorem execBar2Write_keeps (h : Good k s) (a0 a1 a2) : Keeps k (execBar2Write a0 a1 a2 s) := by
  unfold execBar2Write
  repeat' first
    | with_reducible assumption
    | with_reducible refine good_ite ?_ ?_
    | with_reducible refine keeps_next.2 ?_
    | with_reducible apply State.bar2Access_good

theorem execZeroFillEnd_keeps (h : Good k s) (a0) : Keeps k (execZeroFillEnd a0 s) := by
  unfold execZeroFillEnd
  repeat' first
    | with_reducible assumption
    | with_reducible refine good_ite ?_ ?_
    | with_reducible refine keeps_next.2 ?_
    | with_reducible refine good_foldl ?_ (fun _ _ _ => ?_)
    | with_reducible apply State.setBit_good
    | with_reducible apply State.bar2Go_good
    | simp only [↓good_upd]

end Sys2Proof.Machine
end

