-- ==== Sys2Proof/Laws/KeepCarts.lean ====
section
/-! SUPPORT. What every operation of Machine/Carts.lean keeps (Laws/Good.lean). -/

namespace Sys2Proof.Machine

variable {k : Key} {s t : State}

@[simp ↓] theorem State.modCart_good (h : Good k s) (a1 a2) : Good k (State.modCart s a1 a2) := by
  unfold State.modCart
  repeat' first
    | with_reducible assumption
    | simp only [↓good_upd]

@[simp ↓] theorem State.writeWear_good (h : Good k s) (a1) : Good k (State.writeWear s a1) := by
  unfold State.writeWear
  dsimp only
  simp +contextual (maxDischargeDepth := 100) only [h, ↓good_ite, ↓State.modCart_good]

@[simp ↓] theorem State.ledgerCart_good (h : Good k s) (a1) : Good k (State.ledgerCart s a1) := by
  unfold State.ledgerCart
  dsimp only
  simp +contextual (maxDischargeDepth := 100) only [h, ↓State.modLedger_good]

@[simp ↓] theorem State.showWear_good (h : Good k s) (a1) : Good k (State.showWear s a1) := by
  unfold State.showWear
  dsimp only
  simp +contextual (maxDischargeDepth := 100) only [h, ↓State.setFld_good]

@[simp ↓] theorem State.retireWorn_good (h : Good k s) (a1) : Good k (State.retireWorn s a1) := by
  unfold State.retireWorn
  dsimp only
  simp +contextual (maxDischargeDepth := 100) only [h, ↓good_ite, ↓State.linkRaise_good, ↓State.startDrain_good, ↓State.setPortState_good]

@[simp ↓] theorem State.judgeWear_good (h : Good k s) (a1) : Good k (State.judgeWear s a1) := by
  unfold State.judgeWear
  dsimp only
  simp +contextual (maxDischargeDepth := 100) only [h, ↓good_ite, ↓State.showWear_good, ↓State.intEvent_good, ↓State.setBit_good, ↓State.ledgerCart_good, ↓State.writeWear_good, ↓State.advise_good, ↓State.linkRaise_good, ↓State.retireWorn_good]

@[simp ↓] theorem State.payMatings_good (h : Good k s) (a1) : Good k (State.payMatings s a1) := by
  unfold State.payMatings
  dsimp only
  simp +contextual (maxDischargeDepth := 100) only [h, ↓good_ite, ↓State.judgeWear_good, ↓State.modCart_good, ↓State.count_good]

theorem execCartPrsAssert_keeps (h : Good k s) (a0) : Keeps k (execCartPrsAssert a0 s) := by
  unfold execCartPrsAssert
  repeat' first
    | with_reducible assumption
    | with_reducible refine keeps_ite ?_ ?_
    | with_reducible refine keeps_next.2 ?_
    | with_reducible apply State.intEvent_good
    | with_reducible apply State.setBit_good
    | with_reducible apply State.modCart_good

theorem execCartAbsent_keeps (h : Good k s) (a0) : Keeps k (execCartAbsent a0 s) := by
  unfold execCartAbsent
  repeat' first
    | with_reducible assumption
    | with_reducible refine keeps_next.2 ?_
    | with_reducible refine keeps_ite ?_ ?_
    | with_reducible apply State.modPort_good
    | with_reducible apply State.setBit_good
    | with_reducible apply State.linkRaise_good
    | with_reducible apply State.setPortState_good
    | with_reducible apply State.modCart_good
    | with_reducible apply State.intEvent_good

@[simp ↓] theorem State.showCart_good (h : Good k s) (a1 a2) : Good k (State.showCart s a1 a2) := by
  unfold State.showCart
  repeat' first
    | with_reducible assumption
    | with_reducible refine good_foldl ?_ (fun _ _ _ => ?_)
    | with_reducible apply State.setBit_good
    | with_reducible apply State.setFld_good
    | with_reducible apply State.wr_good
    | with_reducible apply State.modCart_good
    | with_reducible apply State.showWear_good

@[simp ↓] theorem State.acceptCart_good (h : Good k s) (a1 a2 a3) : Good k (State.acceptCart s a1 a2 a3) := by
  unfold State.acceptCart
  repeat' first
    | with_reducible assumption
    | with_reducible refine good_ite ?_ ?_
    | with_reducible apply State.setBit_good
    | with_reducible apply State.linkRaise_good
    | with_reducible apply State.ledgerCart_good
    | with_reducible apply State.payMatings_good
    | with_reducible apply State.retireWorn_good
    | with_reducible apply State.showCart_good
    | with_reducible apply State.modCart_good

theorem execCartPoll_keeps (h : Good k s) (a0 a1 a2) : Keeps k (execCartPoll a0 a1 a2 s) := by
  unfold execCartPoll
  repeat' first
    | with_reducible assumption
    | with_reducible refine keeps_next.2 ?_
    | with_reducible refine keeps_ite ?_ ?_
    | with_reducible refine good_ite ?_ ?_
    | with_reducible refine good_foldl ?_ (fun _ _ _ => ?_)
    | with_reducible apply State.acceptCart_good
    | with_reducible apply State.setBit_good
    | with_reducible apply State.linkRaise_good
    | with_reducible apply State.writeWear_good
    | with_reducible apply State.payMatings_good
    | with_reducible apply State.setPortState_good
    | with_reducible apply State.raise_good
    | with_reducible apply State.modCart_good
    | with_reducible apply State.count_good
    | with_reducible apply State.startDrain_good

theorem execLaserHour_keeps (h : Good k s) (a0) : Keeps k (execLaserHour a0 s) := by
  unfold execLaserHour
  repeat' first
    | with_reducible assumption
    | with_reducible refine keeps_ite ?_ ?_
    | with_reducible refine keeps_next.2 ?_
    | with_reducible apply State.judgeWear_good
    | with_reducible apply State.count_good

end Sys2Proof.Machine
end

