-- ==== Sys2Proof/Laws/KeepDispatcher.lean ====
section
/-! SUPPORT. What every operation of Machine/Dispatcher.lean keeps (Laws/Good.lean). -/

namespace Sys2Proof.Machine

variable {k : Key} {s t : State}

@[simp ↓] theorem State.setWindow_good (h : Good k s) (a1 a2 a3 a4) : Good k (State.setWindow s a1 a2 a3 a4) := by
  unfold State.setWindow
  dsimp only
  simp +contextual (maxDischargeDepth := 100) only [h, ↓State.wr_good]

@[simp ↓] theorem State.writeWindows_good (h : Good k s) (a1 a2) : Good k (State.writeWindows s a1 a2) := by
  unfold State.writeWindows
  dsimp only
  simp +contextual (maxDischargeDepth := 100) only [h, ↓good_foldl, implies_true, ↓State.setWindow_good]

@[simp ↓] theorem State.failDispatch_good (h : Good k s) (a1 a2 a3 a4) : Good k (State.failDispatch s a1 a2 a3 a4) := by
  unfold State.failDispatch
  repeat' first
    | with_reducible assumption
    | with_reducible apply State.postDone_good
    | with_reducible apply State.raise_good

@[simp ↓] theorem State.startCore_good (h : Good k s) (a1 a2 a3 a4) : Good k (State.startCore s a1 a2 a3 a4) := by
  unfold State.startCore
  simp +contextual (maxDischargeDepth := 50) [h]

@[simp ↓] theorem State.startJob_good (h : Good k s) (a1 a2 a3) : Good k (State.startJob s a1 a2 a3) := by
  unfold State.startJob
  dsimp only
  simp +contextual (maxDischargeDepth := 100) only [h, ↓good_ite, ↓good_foldl, ↓good_mk, Good.pend, Good.fuses, Good.mem, Good.spad, Good.regs, and_self, implies_true, ↓State.clearPodFlags_good, ↓State.startCore_good, ↓State.setUnit_good, ↓State.setJob_good, ↓State.wr_good, ↓State.globalEvent_good, ↓State.showJobs_good, ↓State.signalReady_good]

@[simp ↓] theorem State.checkAndStart_good (h : Good k s) (a1 a2 a3) : Good k (State.checkAndStart s a1 a2 a3) := by
  unfold State.checkAndStart
  repeat' first
    | with_reducible assumption
    | with_reducible refine good_ite ?_ ?_
    | with_reducible apply State.setWindow_good
    | with_reducible apply State.failDispatch_good
    | with_reducible apply State.startJob_good
    | split

@[simp ↓] theorem State.dispatchCard_good (h : Good k s) (a1 a2) : Good k (State.dispatchCard s a1 a2) := by
  unfold State.dispatchCard
  repeat' first
    | with_reducible assumption
    | with_reducible apply State.writeWindows_good
    | with_reducible apply State.setShelf_good
    | with_reducible apply State.failDispatch_good
    | with_reducible apply State.checkAndStart_good
    | simp only [↓good_upd]
    | split

@[simp ↓] theorem State.takeJob_good (h : Good k s) (a1) : Good k (State.takeJob s a1).1 := by
  unfold State.takeJob
  have g := State.dequeue_good (k := k) h .dispatch none (4 * a1) (fun _ => false)
  split <;> exact good_of_pair (by assumption) g

@[simp ↓] theorem State.dropInactive_good (h : Good k s) (a1) : Good k (State.dropInactive s a1) := by
  unfold State.dropInactive
  repeat' first
    | with_reducible assumption
    | with_reducible refine good_ite ?_ ?_
    | with_reducible apply State.postDone_good
    | with_reducible refine good_of_pair (by assumption) ?_
    | with_reducible apply State.takeJob_good
    | split

theorem execJobDispatch_keeps (h : Good k s)  : Keeps k (execJobDispatch s) := by
  unfold execJobDispatch
  repeat' first
    | with_reducible assumption
    | with_reducible refine good_ite ?_ ?_
    | with_reducible refine keeps_next.2 ?_
    | with_reducible refine good_foldl ?_ (fun _ _ _ => ?_)
    | with_reducible apply State.dropInactive_good
    | with_reducible apply State.dispatchCard_good
    | with_reducible refine good_of_pair (by assumption) ?_
    | with_reducible apply State.takeJob_good
    | simp only
    | split

end Sys2Proof.Machine
end

