-- ==== Sys2Proof/Laws/KeepLoadStore.lean ====
section
/-! SUPPORT. What every operation of Machine/LoadStore.lean keeps (Laws/Good.lean). -/

namespace Sys2Proof.Machine

variable {k : Key} {s t : State}

@[simp ↓] theorem State.addrFault_good (h : Good k s) (a1 a2 a3 a4) : Good k (State.addrFault s a1 a2 a3 a4) := by
  unfold State.addrFault
  repeat' first
    | with_reducible assumption
    | with_reducible apply State.coreFault_good

@[simp ↓] theorem State.startOp_good (h : Good k s) (a1 a2 a3) : Good k (State.startOp s a1 a2 a3) := by
  unfold State.startOp
  repeat' first
    | with_reducible assumption
    | with_reducible apply State.modEng_good

@[simp ↓] theorem State.xferBegin_good (h : Good k s) (a1 a2 a3 a4 a5 a6 a7 a8 a9 a10) : Good k (State.xferBegin s a1 a2 a3 a4 a5 a6 a7 a8 a9 a10) := by
  unfold State.xferBegin
  repeat' first
    | with_reducible assumption
    | with_reducible apply State.addrFault_good
    | with_reducible apply State.startOp_good
    | split

theorem execLd_keeps (h : Good k s) (a0) : Keeps k (execLd a0 s) := by
  unfold execLd
  repeat' first
    | with_reducible assumption
    | with_reducible refine good_ite ?_ ?_
    | with_reducible refine keeps_next.2 ?_
    | with_reducible apply State.takeHead_good
    | with_reducible apply State.xferBegin_good
    | simp only
    | split

theorem execSt_keeps (h : Good k s) (a0) : Keeps k (execSt a0 s) := by
  unfold execSt
  repeat' first
    | with_reducible assumption
    | with_reducible refine keeps_next.2 ?_
    | with_reducible apply State.takeHead_good
    | with_reducible apply State.xferBegin_good
    | simp only
    | split

@[simp ↓] theorem State.stSignalLand_good (h : Good k s) (a1 a2) : Good k (State.stSignalLand s a1 a2) := by
  unfold State.stSignalLand
  repeat' first
    | with_reducible assumption
    | with_reducible apply State.signal_good
    | simp only
    | split

theorem execStSignal_keeps (h : Good k s) (a0) : Keeps k (execStSignal a0 s) := by
  unfold execStSignal
  repeat' first
    | with_reducible assumption
    | with_reducible refine good_ite ?_ ?_
    | with_reducible refine keeps_next.2 ?_
    | with_reducible apply State.takeHead_good
    | with_reducible apply State.stSignalLand_good
    | with_reducible apply State.modCore_good
    | simp only
    | split

theorem execStSignalDelivery_keeps (h : Good k s) (a0) : Keeps k (execStSignalDelivery a0 s) := by
  unfold execStSignalDelivery
  repeat' first
    | with_reducible assumption
    | with_reducible refine good_ite ?_ ?_
    | with_reducible refine keeps_next.2 ?_
    | with_reducible apply State.stSignalLand_good
    | with_reducible apply State.modCore_good
    | split

@[simp ↓] theorem State.mapWrite_good (h : Good k s) (a1 a2 a3 a4 a5) : Good k (State.mapWrite s a1 a2 a3 a4 a5) := by
  unfold State.mapWrite
  repeat' first
    | with_reducible assumption
    | with_reducible apply State.coreEvent_good
    | with_reducible apply State.spadScatter_good

@[simp ↓] theorem State.scasGo_good (h : Good k s) (a1 a2 a3 a4 a5 a6 a7 a8 a9) : Good k (State.scasGo s a1 a2 a3 a4 a5 a6 a7 a8 a9) := by
  unfold State.scasGo
  dsimp only
  simp +contextual (maxDischargeDepth := 100) only [h, ↓good_ite, ↓State.coreEvent_good, ↓State.spadWrite_good, ↓State.modEng_good]

theorem execScas_keeps (h : Good k s) (a0 a1) : Keeps k (execScas a0 a1 s) := by
  unfold execScas
  repeat' first
    | with_reducible assumption
    | with_reducible refine good_ite ?_ ?_
    | with_reducible refine keeps_next.2 ?_
    | with_reducible apply State.takeHead_good
    | with_reducible apply State.upset_good
    | with_reducible apply State.coreFault_good
    | with_reducible apply State.spadCheck_good
    | with_reducible apply State.scasGo_good
    | simp only
    | split

theorem execSmcnt_keeps (h : Good k s) (a0) : Keeps k (execSmcnt a0 s) := by
  unfold execSmcnt
  repeat' first
    | with_reducible assumption
    | with_reducible refine good_ite ?_ ?_
    | with_reducible refine keeps_next.2 ?_
    | with_reducible apply State.takeHead_good
    | with_reducible apply State.addrFault_good
    | with_reducible apply State.startOp_good
    | simp only
    | split

theorem execSmcas_keeps (h : Good k s) (a0) : Keeps k (execSmcas a0 s) := by
  unfold execSmcas
  repeat' first
    | with_reducible assumption
    | with_reducible refine good_ite ?_ ?_
    | with_reducible refine keeps_next.2 ?_
    | with_reducible apply State.takeHead_good
    | with_reducible apply State.coreFault_good
    | with_reducible apply State.startOp_good
    | simp only
    | split

@[simp ↓] theorem State.reqDone_good (h : Good k s) (a1 a2 a3 a4 a5) : Good k (State.reqDone s a1 a2 a3 a4 a5) := by
  unfold State.reqDone
  dsimp only
  simp +contextual (maxDischargeDepth := 100) only [h, ↓State.modEng_good]

@[simp ↓] theorem State.lostWord_good (h : Good k s) (a1 a2 a3) : Good k (State.lostWord s a1 a2 a3) := by
  unfold State.lostWord
  repeat' first
    | with_reducible assumption
    | with_reducible apply State.coreFault_good

@[simp ↓] theorem State.countResponse_good (h : Good k s) (a1 a2 a3 a4 a5 a6 a7 a8 a9) : Good k (State.countResponse s a1 a2 a3 a4 a5 a6 a7 a8 a9) := by
  unfold State.countResponse
  repeat' first
    | with_reducible assumption
    | with_reducible refine good_ite ?_ ?_
    | with_reducible apply State.coreEvent_good
    | with_reducible apply State.mapWrite_good
    | with_reducible apply State.modEng_good
    | with_reducible apply State.reqDone_good
    | simp only
    | split

@[simp ↓] theorem State.ldResponse_good (h : Good k s) (a1 a2 a3 a4) : Good k (State.ldResponse s a1 a2 a3 a4) := by
  unfold State.ldResponse
  repeat' first
    | with_reducible assumption
    | with_reducible refine good_ite ?_ ?_
    | with_reducible apply State.memRead_good
    | with_reducible apply State.account_good
    | with_reducible apply State.lostWord_good
    | with_reducible apply State.reqDone_good
    | with_reducible apply State.coreEvent_good
    | with_reducible apply State.spadWrite_good
    | with_reducible apply State.countResponse_good
    | with_reducible apply State.memWrite_good
    | with_reducible apply State.modEng_good
    | simp only
    | split

@[simp ↓] theorem State.stResponse_good (h : Good k s) (a1 a2 a3 a4) : Good k (State.stResponse s a1 a2 a3 a4) := by
  unfold State.stResponse
  repeat' first
    | with_reducible assumption
    | with_reducible refine good_ite ?_ ?_
    | with_reducible apply State.spadCheck_good
    | with_reducible apply State.coreFault_good
    | with_reducible apply State.coreEvent_good
    | with_reducible apply State.reqDone_good
    | with_reducible apply State.account_good
    | with_reducible apply State.memWrite_good
    | with_reducible apply State.setSlot_good
    | with_reducible apply State.pump_good
    | simp only
    | split

@[simp ↓] theorem State.showSigPend_good (h : Good k s) (a1 a2) : Good k (State.showSigPend s a1 a2) := by
  unfold State.showSigPend
  repeat' first
    | with_reducible assumption
    | with_reducible refine good_ite ?_ ?_
    | with_reducible apply State.setBit_good

@[simp ↓] theorem State.completeReq_good (h : Good k s) (a1 a2 a3 a4 a5) : Good k (State.completeReq s a1 a2 a3 a4 a5) := by
  unfold State.completeReq
  repeat' first
    | with_reducible assumption
    | with_reducible refine good_ite ?_ ?_
    | with_reducible apply State.modEng_good
    | with_reducible apply State.showSigPend_good
    | with_reducible apply State.setFld_good
    | with_reducible apply State.stResponse_good
    | with_reducible apply State.ldResponse_good
    | split

@[simp ↓] theorem State.completeFirst_good (h : Good k s) (a1 a2) : Good k (State.completeFirst s a1 a2) := by
  unfold State.completeFirst
  repeat' first
    | with_reducible assumption
    | with_reducible apply State.completeReq_good
    | simp only [↓good_upd]
    | split

@[simp ↓] theorem State.respond1_good (h : Good k s) (a1 a2 a3 a4 a5 a6) : Good k (State.respond1 s a1 a2 a3 a4 a5 a6) := by
  unfold State.respond1
  repeat' first
    | with_reducible assumption
    | with_reducible refine good_foldl ?_ (fun _ _ _ => ?_)
    | with_reducible apply State.completeReq_good
    | with_reducible apply State.completeFirst_good
    | split

theorem execStageMemoryResponse_keeps (h : Good k s) (a0 a1 a2 a3) : Keeps k (execStageMemoryResponse a0 a1 a2 a3 s) := by
  unfold execStageMemoryResponse
  repeat' first
    | with_reducible assumption
    | with_reducible refine keeps_next.2 ?_
    | with_reducible apply State.respond1_good
    | with_reducible apply State.memUpset_good
    | with_reducible apply State.upset_good
    | simp only [↓good_upd]
    | split

@[simp ↓] theorem State.scntReq_good (h : Good k s) (a1) : Good k (State.scntReq s a1) := by
  unfold State.scntReq
  repeat' first
    | with_reducible assumption
    | with_reducible apply State.noteWords_good
    | with_reducible apply State.coreFault_good
    | with_reducible apply State.countResponse_good
    | simp only [↓good_upd]
    | split

@[simp ↓] theorem State.scntRun_good (h : Good k s) (a1 a2) : Good k (State.scntRun s a1 a2) := by
  unfold State.scntRun
  repeat' first
    | with_reducible assumption
    | with_reducible refine good_ite ?_ ?_
    | with_reducible refine good_foldl ?_ (fun _ _ _ => ?_)
    | with_reducible apply State.scntReq_good

theorem execScnt_keeps (h : Good k s) (a0 a1) : Keeps k (execScnt a0 a1 s) := by
  unfold execScnt
  repeat' first
    | with_reducible assumption
    | with_reducible refine keeps_next.2 ?_
    | with_reducible apply State.addrFault_good
    | with_reducible apply State.scntRun_good
    | with_reducible apply State.takeHead_good
    | with_reducible apply State.upset_good
    | with_reducible apply State.startOp_good
    | simp only [↓good_upd]
    | split

theorem execEccWriteBack_keeps (h : Good k s) (a0 a1) : Keeps k (execEccWriteBack a0 a1 s) := by
  unfold execEccWriteBack
  repeat' first
    | with_reducible assumption
    | with_reducible refine good_ite ?_ ?_
    | with_reducible refine keeps_next.2 ?_
    | with_reducible apply State.setSpadHealth_good
    | simp only [↓good_upd]

end Sys2Proof.Machine
end

