-- ==== Sys2Proof/Laws/KeepMatrix.lean ====
section
/-! SUPPORT. What every operation of Machine/Matrix.lean keeps (Laws/Good.lean). -/

namespace Sys2Proof.Machine

variable {k : Key} {s t : State}

theorem good_ite_mx {c : Prop} [Decidable c] {a b : MxRun} (h : Good k a.s) (h2 : Good k b.s) :
    Good k (if c then a else b).s := by split <;> assumption

theorem good_ite_mx_fst {β : Type} {c : Prop} [Decidable c] {a b : MxRun × β} (h : Good k a.1.s) (h2 : Good k b.1.s) :
    Good k (if c then a else b).1.s := by split <;> assumption

theorem good_foldl_mx {α : Type} {f : MxRun → α → MxRun} {l : List α} {r : MxRun} (h : Good k r.s)
    (hf : ∀ r a, Good k r.s → Good k (f r a).s) : Good k (l.foldl f r).s := by
  induction l generalizing r with
  | nil => exact h
  | cons a l ih => exact ih (hf _ _ h)

theorem good_foldl_mx_fst {α β : Type} {f : MxRun × β → α → MxRun × β} {l : List α} {p : MxRun × β}
    (h : Good k p.1.s) (hf : ∀ p a, Good k p.1.s → Good k (f p a).1.s) : Good k (l.foldl f p).1.s := by
  induction l generalizing p with
  | nil => exact h
  | cons a l ih => exact ih (hf _ _ h)

theorem good_of_pair_mx {β : Type} {p : MxRun × β} {x : MxRun} {y : β} (e : p = (x, y)) (h : Good k p.1.s) :
    Good k x.s := by subst e; exact h

@[simp ↓] theorem State.modArr_good (h : Good k s) (a1 a2 a3) : Good k (State.modArr s a1 a2 a3) := by
  unfold State.modArr
  simp +contextual (maxDischargeDepth := 50) [h]

@[simp ↓] theorem MxRun.onArr_good {r : MxRun} (h : Good k r.s) (a1 a2 a3) : Good k (MxRun.onArr r a1 a2 a3).s := by
  unfold MxRun.onArr
  repeat' first
    | with_reducible assumption
    | with_reducible apply State.modArr_good

@[simp ↓] theorem State.mxFault_good (h : Good k s) (a1 a2 a3 a4) : Good k (State.mxFault s a1 a2 a3 a4) := by
  unfold State.mxFault
  repeat' first
    | with_reducible assumption
    | with_reducible apply State.numFault_good

@[simp ↓] theorem MxRun.numFault_good {r : MxRun} (h : Good k r.s) (a1 a2 a3 a4) : Good k (MxRun.numFault r a1 a2 a3 a4).s := by
  unfold MxRun.numFault
  repeat' first
    | with_reducible assumption
    | with_reducible apply State.mxFault_good
    | split

@[simp ↓] theorem State.cellOps_good (h : Good k s) (a1 a2) : Good k (State.cellOps s a1 a2) := by
  unfold State.cellOps
  repeat' first
    | with_reducible assumption
    | with_reducible refine good_foldl ?_ (fun _ _ _ => ?_)
    | with_reducible apply State.modArr_good

@[simp ↓] theorem MxRun.read_good {r : MxRun} (h : Good k r.s) (a1 a2 a3 a4 a5) : Good k (MxRun.read r a1 a2 a3 a4 a5).1.s := by
  unfold MxRun.read
  repeat' first
    | with_reducible assumption
    | with_reducible apply State.unitRead_good
    | with_reducible apply State.coreFault_good
    | with_reducible refine good_of_pair (by assumption) ?_
    | split

@[simp ↓] theorem MxRun.ev_good {r : MxRun} (h : Good k r.s) (a1 a2 a3 a4 a5) : Good k (MxRun.ev r a1 a2 a3 a4 a5).s := by
  unfold MxRun.ev
  dsimp only
  simp +contextual (maxDischargeDepth := 100) only [h, ↓State.coreEvent_good]

@[simp ↓] theorem MxRun.accumulate_good {r : MxRun} (h : Good k r.s) (a1 a2 a3 a4) : Good k (MxRun.accumulate r a1 a2 a3 a4).s := by
  unfold MxRun.accumulate
  repeat' first
    | with_reducible refine good_ite_mx ?_ ?_
    | with_reducible refine good_foldl_mx_fst ?_ (fun _ _ _ => ?_)
    | with_reducible assumption
    | with_reducible apply State.cellOps_good
    | with_reducible apply MxRun.numFault_good
    | with_reducible apply State.numEvents_good

@[simp ↓] theorem MxRun.loadSet_good {r : MxRun} (h : Good k r.s) (a1 a2 a3 a4) : Good k (MxRun.loadSet r a1 a2 a3 a4).1.s := by
  unfold MxRun.loadSet
  repeat' first
    | with_reducible refine good_ite_mx_fst ?_ ?_
    | with_reducible refine good_foldl_mx_fst ?_ (fun _ _ _ => ?_)
    | with_reducible assumption
    | with_reducible apply MxRun.read_good
    | with_reducible apply MxRun.numFault_good

@[simp ↓] theorem MxRun.loadTile_good {r : MxRun} (h : Good k r.s) (a1 a2 a3) : Good k (MxRun.loadTile r a1 a2 a3).s := by
  unfold MxRun.loadTile
  repeat' first
    | with_reducible refine good_ite_mx ?_ ?_
    | with_reducible refine good_foldl_mx ?_ (fun _ _ _ => ?_)
    | with_reducible assumption
    | with_reducible apply MxRun.ev_good
    | with_reducible apply MxRun.loadSet_good

@[simp ↓] theorem MxRun.tileBegin_good {r : MxRun} (h : Good k r.s) (a1 a2) : Good k (MxRun.tileBegin r a1 a2).s := by
  unfold MxRun.tileBegin
  repeat' first
    | with_reducible assumption
    | with_reducible refine good_foldl ?_ (fun _ _ _ => ?_)
    | with_reducible apply State.modArr_good
    | with_reducible apply MxRun.numFault_good
    | with_reducible apply State.numEvents_good

@[simp ↓] theorem MxRun.loadB_good {r : MxRun} (h : Good k r.s) (a1 a2 a3) : Good k (MxRun.loadB r a1 a2 a3).s := by
  unfold MxRun.loadB
  repeat' first
    | with_reducible refine good_ite_mx_fst ?_ ?_
    | with_reducible refine good_foldl_mx_fst ?_ (fun _ _ _ => ?_)
    | with_reducible assumption
    | with_reducible apply MxRun.read_good
    | with_reducible apply State.modCore_good
    | with_reducible apply MxRun.ev_good

@[simp ↓] theorem MxRun.sparseGroup_good {r : MxRun} (h : Good k r.s) (a1 a2 a3) : Good k (MxRun.sparseGroup r a1 a2 a3).s := by
  unfold MxRun.sparseGroup
  repeat' first
    | with_reducible refine good_ite_mx ?_ ?_
    | with_reducible refine good_ite_mx_fst ?_ ?_
    | with_reducible refine good_foldl_mx_fst ?_ (fun _ _ _ => ?_)
    | with_reducible assumption
    | with_reducible apply MxRun.accumulate_good
    | with_reducible apply MxRun.read_good
    | with_reducible apply MxRun.ev_good

@[simp ↓] theorem MxRun.denseGroup_good {r : MxRun} (h : Good k r.s) (a1 a2 a3) : Good k (MxRun.denseGroup r a1 a2 a3).s := by
  unfold MxRun.denseGroup
  repeat' first
    | with_reducible refine good_ite_mx ?_ ?_
    | with_reducible refine good_foldl_mx_fst ?_ (fun _ _ _ => ?_)
    | with_reducible assumption
    | with_reducible apply MxRun.accumulate_good
    | with_reducible apply MxRun.read_good
    | with_reducible apply MxRun.ev_good

@[simp ↓] theorem MxRun.loadHeld_good {r : MxRun} (h : Good k r.s) (a1 a2 a3) : Good k (MxRun.loadHeld r a1 a2 a3).s := by
  unfold MxRun.loadHeld
  repeat' first
    | with_reducible refine good_ite_mx ?_ ?_
    | with_reducible refine good_ite_mx_fst ?_ ?_
    | with_reducible refine good_foldl_mx_fst ?_ (fun _ _ _ => ?_)
    | with_reducible assumption
    | with_reducible refine good_foldl ?_ (fun _ _ _ => ?_)
    | with_reducible apply MxRun.read_good
    | with_reducible apply State.modArr_good
    | with_reducible apply MxRun.ev_good

@[simp ↓] theorem MxRun.wsToken_good {r : MxRun} (h : Good k r.s) (a1 a2 a3 a4 a5) : Good k (MxRun.wsToken r a1 a2 a3 a4 a5).s := by
  unfold MxRun.wsToken
  repeat' first
    | with_reducible refine good_ite_mx ?_ ?_
    | with_reducible refine good_ite_mx_fst ?_ ?_
    | with_reducible refine good_foldl_mx_fst ?_ (fun _ _ _ => ?_)
    | with_reducible assumption
    | with_reducible apply MxRun.accumulate_good
    | with_reducible apply MxRun.read_good
    | with_reducible apply MxRun.ev_good

@[simp ↓] theorem MxRun.wtToken_good {r : MxRun} (h : Good k r.s) (a1 a2 a3 a4 a5) : Good k (MxRun.wtToken r a1 a2 a3 a4 a5).s := by
  unfold MxRun.wtToken
  repeat' first
    | with_reducible refine good_ite_mx ?_ ?_
    | with_reducible refine good_ite_mx_fst ?_ ?_
    | with_reducible refine good_foldl_mx_fst ?_ (fun _ _ _ => ?_)
    | with_reducible assumption
    | with_reducible apply MxRun.accumulate_good
    | with_reducible apply MxRun.read_good
    | with_reducible apply MxRun.ev_good

@[simp ↓] theorem State.drainRow_good {p : MxRun × List DrainRow} (h : Good k p.1.s) (a0 a1 a2 a3 a5) :
    Good k (State.drainRow a0 a1 a2 a3 p a5).1.s := by
  unfold State.drainRow
  split
  · exact h
  · exact MxRun.numFault_good (good_foldl h fun _ _ hs => State.numEvents_good hs _ _) _ _ _ _

@[simp ↓] theorem State.drain_good (h : Good k s) (a1 a2) : Good k (State.drain s a1 a2) := by
  unfold State.drain
  repeat' first
    | with_reducible assumption
    | with_reducible refine good_ite ?_ ?_
    | with_reducible refine good_foldl ?_ (fun _ _ _ => ?_)
    | with_reducible refine good_foldl_mx_fst ?_ (fun _ _ _ => ?_)
    | with_reducible apply State.drainRow_good
    | with_reducible apply State.spadScatter_good
    | with_reducible apply State.coreEvent_good
    | with_reducible apply State.modEng_good
    | with_reducible apply State.outputDone_good
    | split

@[simp ↓] theorem State.flushDrains_good (h : Good k s) (a1 a2) : Good k (State.flushDrains s a1 a2) := by
  unfold State.flushDrains
  repeat' first
    | with_reducible assumption
    | with_reducible refine good_ite ?_ ?_
    | with_reducible refine good_foldl ?_ (fun _ _ _ => ?_)
    | with_reducible apply State.modCore_good
    | with_reducible apply State.drain_good

@[simp ↓] theorem State.noteParity_good (h : Good k s) (a1 a2) : Good k (State.noteParity s a1 a2) := by
  unfold State.noteParity
  repeat' first
    | with_reducible assumption
    | with_reducible apply State.observe_good
    | split

@[simp ↓] theorem MxRun.settle_good (r : MxRun) (h : Good k s) (a1) : Good k (MxRun.settle r a1 s).s := h

@[simp ↓] theorem MxRun.overlap_good {r : MxRun} (h : Good k r.s) (a1 a2) : Good k (MxRun.overlap r a1 a2).s := by
  unfold MxRun.overlap
  repeat' first
    | with_reducible refine good_ite_mx ?_ ?_
    | with_reducible assumption
    | with_reducible apply MxRun.settle_good
    | with_reducible apply MxRun.loadTile_good
    | with_reducible apply State.flushDrains_good

@[simp ↓] theorem MxRun.pass_good {r : MxRun} (h : Good k r.s) (a1 a2) : Good k (MxRun.pass r a1 a2).s := by
  unfold MxRun.pass
  repeat' first
    | with_reducible refine good_foldl_mx ?_ (fun _ _ _ => ?_)
    | with_reducible assumption
    | with_reducible apply MxRun.denseGroup_good
    | with_reducible apply MxRun.loadHeld_good
    | with_reducible apply MxRun.wsToken_good
    | with_reducible apply MxRun.wtToken_good
    | with_reducible apply MxRun.sparseGroup_good
    | split

@[simp ↓] theorem MxRun.tileEnd_good {r : MxRun} (h : Good k r.s) (a1 a2 a3) : Good k (MxRun.tileEnd r a1 a2 a3).s := by
  unfold MxRun.tileEnd
  repeat' first
    | with_reducible refine good_ite_mx ?_ ?_
    | with_reducible assumption
    | with_reducible refine good_ite ?_ ?_
    | with_reducible refine good_foldl ?_ (fun _ _ _ => ?_)
    | with_reducible apply State.modEng_good
    | with_reducible apply State.modArr_good
    | with_reducible apply State.modCore_good
    | with_reducible apply State.noteParity_good
    | with_reducible apply State.coreFault_good

@[simp ↓] theorem MxRun.stretch_good {r : MxRun} (h : Good k r.s) (a1 a2 a3) : Good k (MxRun.stretch r a1 a2 a3).s := by
  unfold MxRun.stretch
  repeat' first
    | with_reducible refine good_ite_mx ?_ ?_
    | with_reducible assumption
    | with_reducible apply MxRun.overlap_good
    | with_reducible apply MxRun.loadB_good
    | with_reducible apply MxRun.settle_good
    | with_reducible apply MxRun.tileEnd_good
    | with_reducible apply State.flushDrains_good
    | with_reducible apply MxRun.pass_good
    | with_reducible apply MxRun.tileBegin_good

@[simp ↓] theorem MxRun.ewBeat_good {r : MxRun} (h : Good k r.s) (a1 a2 a3) : Good k (MxRun.ewBeat r a1 a2 a3).s := by
  unfold MxRun.ewBeat
  repeat' first
    | with_reducible assumption
    | with_reducible apply MxRun.read_good
    | with_reducible apply State.cellOps_good
    | with_reducible apply State.spadScatter_good
    | with_reducible apply State.coreEvent_good
    | with_reducible apply MxRun.numFault_good
    | with_reducible apply State.numEvents_good
    | simp only [↓good_upd]
    | split

@[simp ↓] theorem MxRun.ewStretch_good {r : MxRun} (h : Good k r.s) (a1 a2) : Good k (MxRun.ewStretch r a1 a2).s := by
  unfold MxRun.ewStretch
  repeat' first
    | with_reducible refine good_foldl_mx ?_ (fun _ _ _ => ?_)
    | with_reducible assumption
    | with_reducible apply MxRun.ewBeat_good

@[simp ↓] theorem State.accDrain_good (h : Good k s) (a1 a2 a3 a4) : Good k (State.accDrain s a1 a2 a3 a4) := by
  unfold State.accDrain
  dsimp only
  simp +contextual (maxDischargeDepth := 100) only [h, ↓good_ite, ↓good_foldl, implies_true, ↓State.coreFault_good, ↓State.noteParity_good, ↓State.drain_good, ↓State.modArr_good]

@[simp ↓] theorem MxRun.stretches_good {r : MxRun} (h : Good k r.s) (a0 a1 a2 a3) :
    Good k (MxRun.stretches a0 a1 a2 a3 r).s := by
  induction a3 generalizing r with
  | zero => exact h
  | succ n ih =>
    unfold MxRun.stretches
    refine good_ite_mx h (ih (good_ite_mx ?_ ?_))
    · exact MxRun.ewStretch_good h _ _
    · exact MxRun.stretch_good h _ _ _

@[simp ↓] theorem State.mxEnd_good (h : Good k s) (a1 a2) : Good k (State.mxEnd s a1 a2) := by
  unfold State.mxEnd
  repeat' first
    | with_reducible assumption
    | with_reducible refine good_ite ?_ ?_
    | with_reducible refine good_foldl ?_ (fun _ _ _ => ?_)
    | with_reducible apply State.modEng_good
    | with_reducible apply State.modArr_good
    | with_reducible apply State.modCore_good

@[simp ↓] theorem MxRun.go_good {r : MxRun} (h : Good k r.s) (a1 a2 a3 a4) : Good k (MxRun.go r a1 a2 a3 a4) := by
  unfold MxRun.go
  repeat' first
    | with_reducible assumption
    | with_reducible refine good_ite ?_ ?_
    | with_reducible apply State.modCore_good
    | with_reducible apply MxRun.stretches_good
    | with_reducible apply State.mxEnd_good

@[simp ↓] theorem State.mxStart_good (h : Good k s) (a1 a2 a3) : Good k (State.mxStart s a1 a2 a3).s := by
  unfold State.mxStart
  repeat' first
    | with_reducible refine good_ite_mx ?_ ?_
    | with_reducible assumption
    | with_reducible apply State.modCore_good
    | with_reducible apply MxRun.loadTile_good

@[simp ↓] theorem State.mxBegin_good (h : Good k s) (a1 a2 a3 a4) (ha4 : ∀ st, Good k st → Good k (a4 st)) : Good k (State.mxBegin s a1 a2 a3 a4) := by
  unfold State.mxBegin
  repeat' first
    | with_reducible assumption
    | with_reducible apply ha4
    | with_reducible apply State.flushDrains_good
    | with_reducible apply State.takeHead_good
    | with_reducible apply State.coreFault_good
    | simp only
    | split

@[simp ↓] theorem State.mxOp_good (h : Good k s) (a1 a2 a3 a4 a5) : Good k (State.mxOp s a1 a2 a3 a4 a5) := by
  unfold State.mxOp
  repeat' first
    | with_reducible assumption
    | with_reducible refine good_ite ?_ ?_
    | with_reducible apply State.mxStart_good
    | with_reducible apply State.upset_good
    | with_reducible apply MxRun.go_good
    | with_reducible apply State.accDrain_good
    | with_reducible apply State.mxBegin_good
    | split
    | with_reducible intro _

theorem execMmaOs_keeps (h : Good k s) (a0 a1 a2) : Keeps k (execMmaOs a0 a1 a2 s) := by
  unfold execMmaOs
  repeat' first
    | with_reducible assumption
    | with_reducible refine keeps_next.2 ?_
    | with_reducible apply State.mxOp_good

theorem execMmaWs_keeps (h : Good k s) (a0 a1 a2) : Keeps k (execMmaWs a0 a1 a2 s) := by
  unfold execMmaWs
  repeat' first
    | with_reducible assumption
    | with_reducible refine keeps_next.2 ?_
    | with_reducible apply State.mxOp_good

theorem execMmaWt_keeps (h : Good k s) (a0 a1 a2) : Keeps k (execMmaWt a0 a1 a2 s) := by
  unfold execMmaWt
  repeat' first
    | with_reducible assumption
    | with_reducible refine keeps_next.2 ?_
    | with_reducible apply State.mxOp_good

theorem execEwmul_keeps (h : Good k s) (a0 a1) : Keeps k (execEwmul a0 a1 s) := by
  unfold execEwmul
  repeat' first
    | with_reducible assumption
    | with_reducible refine keeps_next.2 ?_
    | with_reducible apply State.mxOp_good

theorem execAccDrain_keeps (h : Good k s) (a0 a1 a2) : Keeps k (execAccDrain a0 a1 a2 s) := by
  unfold execAccDrain
  repeat' first
    | with_reducible assumption
    | with_reducible refine keeps_next.2 ?_
    | with_reducible apply State.mxOp_good

theorem execTileDrain_keeps (h : Good k s) (a0) : Keeps k (execTileDrain a0 s) := by
  unfold execTileDrain
  repeat' first
    | with_reducible assumption
    | with_reducible refine good_ite ?_ ?_
    | with_reducible refine keeps_next.2 ?_
    | with_reducible apply State.drain_good
    | with_reducible apply State.modCore_good
    | split

end Sys2Proof.Machine
end

