-- ==== Sys2Proof/Laws/Regs.lean ====
section
/-! SUPPORT. Fields of registers: reading a field after a field or a bit is written. -/

namespace Sys2Proof

/-- The number of a word with a field replaced: what lies above, the new field, what lies below. -/
theorem setBits_toNat {w : Nat} {v : BitVec w} {hi lo x : Nat} (hw : hi < w) (hl : lo ≤ hi) :
    (setBits v hi lo x).toNat =
      v.toNat / 2 ^ (hi + 1) * 2 ^ (hi + 1) + x % 2 ^ (hi + 1 - lo) * 2 ^ lo + v.toNat % 2 ^ lo := by
  have hk : 2 ^ (hi + 1) = 2 ^ lo * 2 ^ (hi + 1 - lo) := by rw [← Nat.pow_add]; congr 1; omega
  have hn : v.toNat < 2 ^ w := v.isLt
  have hx : x % 2 ^ (hi + 1 - lo) < 2 ^ (hi + 1 - lo) := Nat.mod_lt _ (Nat.two_pow_pos _)
  have hr : v.toNat % 2 ^ lo < 2 ^ lo := Nat.mod_lt _ (Nat.two_pow_pos _)
  have hww : 2 ^ w = 2 ^ (w - (hi + 1)) * 2 ^ (hi + 1) := by rw [← Nat.pow_add]; congr 1; omega
  have hq : v.toNat / 2 ^ (hi + 1) < 2 ^ (w - (hi + 1)) := Nat.div_lt_of_lt_mul (by rw [Nat.mul_comm, ← hww]; exact hn)
  unfold setBits
  simp only [BitVec.toNat_ofNat]
  generalize 2 ^ (hi + 1 - lo) = m at *
  have hdd : v.toNat / 2 ^ (hi + 1) = v.toNat / 2 ^ lo / m := by rw [hk, Nat.div_div_eq_div_mul]
  have h1 := Nat.div_add_mod v.toNat (2 ^ lo)
  have h2 := Nat.div_add_mod (v.toNat / 2 ^ lo) m
  have he : v.toNat - v.toNat / 2 ^ lo % m * 2 ^ lo + x % m * 2 ^ lo =
      v.toNat / 2 ^ (hi + 1) * 2 ^ (hi + 1) + x % m * 2 ^ lo + v.toNat % 2 ^ lo := by
    rw [hdd, hk]
    have h3 : v.toNat / 2 ^ lo * 2 ^ lo = v.toNat / 2 ^ lo / m * (2 ^ lo * m) + v.toNat / 2 ^ lo % m * 2 ^ lo := by
      have h7 : (m * (v.toNat / 2 ^ lo / m) + v.toNat / 2 ^ lo % m) * 2 ^ lo = v.toNat / 2 ^ lo * 2 ^ lo := by rw [h2]
      rw [← h7, Nat.add_mul, Nat.mul_comm m, Nat.mul_assoc, Nat.mul_comm m]
    have h4 : v.toNat = v.toNat / 2 ^ lo * 2 ^ lo + v.toNat % 2 ^ lo := by rw [Nat.mul_comm]; exact h1.symm
    omega
  rw [he, Nat.mod_eq_of_lt]
  have h5 : v.toNat / 2 ^ (hi + 1) * 2 ^ (hi + 1) + 2 ^ (hi + 1) ≤ 2 ^ w := by
    rw [hww, ← Nat.succ_mul]; exact Nat.mul_le_mul_right _ hq
  have h6 : x % m * 2 ^ lo + 2 ^ lo ≤ 2 ^ (hi + 1) := by
    rw [hk, ← Nat.succ_mul, Nat.mul_comm (2 ^ lo)]; exact Nat.mul_le_mul_right _ hx
  omega

/-- A field reads as it was written. -/
theorem bits_setBits {w : Nat} {v : BitVec w} {hi lo x : Nat} (hw : hi < w) (hl : lo ≤ hi) :
    bits (setBits v hi lo x) hi lo = x % 2 ^ (hi + 1 - lo) := by
  have hk : 2 ^ (hi + 1) = 2 ^ (hi + 1 - lo) * 2 ^ lo := by rw [← Nat.pow_add]; congr 1; omega
  unfold bits
  rw [setBits_toNat hw hl, hk, ← Nat.mul_assoc, ← Nat.add_mul, Nat.mul_comm _ (2 ^ lo),
    Nat.mul_add_div (Nat.two_pow_pos _), Nat.div_eq_of_lt (Nat.mod_lt _ (Nat.two_pow_pos _)), Nat.add_zero,
    Nat.mul_add_mod_self_right, Nat.mod_mod]

/-- A field above one that is written keeps its value. -/
theorem bits_setBits_above {w : Nat} {v : BitVec w} {hi lo a b x : Nat} (hw : hi < w) (hl : lo ≤ hi) (h : hi < b) :
    bits (setBits v hi lo x) a b = bits v a b := by
  have hk : 2 ^ (hi + 1) = 2 ^ (hi + 1 - lo) * 2 ^ lo := by rw [← Nat.pow_add]; congr 1; omega
  have hb : 2 ^ b = 2 ^ (hi + 1) * 2 ^ (b - (hi + 1)) := by rw [← Nat.pow_add]; congr 1; omega
  have hx : x % 2 ^ (hi + 1 - lo) < 2 ^ (hi + 1 - lo) := Nat.mod_lt _ (Nat.two_pow_pos _)
  have hr : v.toNat % 2 ^ lo < 2 ^ lo := Nat.mod_lt _ (Nat.two_pow_pos _)
  have h6 : x % 2 ^ (hi + 1 - lo) * 2 ^ lo + 2 ^ lo ≤ 2 ^ (hi + 1) := by
    rw [hk, ← Nat.succ_mul]; exact Nat.mul_le_mul_right _ hx
  have h8 : x % 2 ^ (hi + 1 - lo) * 2 ^ lo + v.toNat % 2 ^ lo < 2 ^ (hi + 1) := by omega
  unfold bits
  rw [setBits_toNat hw hl, hb, ← Nat.div_div_eq_div_mul, ← Nat.div_div_eq_div_mul, Nat.add_assoc,
    Nat.mul_comm (v.toNat / 2 ^ (hi + 1)), Nat.mul_add_div (Nat.two_pow_pos _), Nat.div_eq_of_lt h8, Nat.add_zero]

/-- A field below one that is written keeps its value. -/
theorem bits_setBits_below {w : Nat} {v : BitVec w} {hi lo a b x : Nat} (hw : hi < w) (hl : lo ≤ hi) (hb : b ≤ a)
    (h : a < lo) : bits (setBits v hi lo x) a b = bits v a b := by
  have key : (setBits v hi lo x).toNat % 2 ^ (a + 1) = v.toNat % 2 ^ (a + 1) := by
    have e1 : 2 ^ (hi + 1) = 2 ^ (hi - a) * 2 ^ (a + 1) := by rw [← Nat.pow_add]; congr 1; omega
    have e2 : 2 ^ lo = 2 ^ (lo - (a + 1)) * 2 ^ (a + 1) := by rw [← Nat.pow_add]; congr 1; omega
    rw [setBits_toNat hw hl, e1, e2, ← Nat.mul_assoc, ← Nat.mul_assoc, ← Nat.add_mul, Nat.mul_add_mod_self_right,
      ← e2, Nat.mod_mod_of_dvd _ (Nat.pow_dvd_pow 2 (by omega : a + 1 ≤ lo))]
  have cut (n : Nat) : n / 2 ^ b % 2 ^ (a + 1 - b) = n % 2 ^ (a + 1) / 2 ^ b := by
    have e : 2 ^ (a + 1) = 2 ^ b * 2 ^ (a + 1 - b) := by rw [← Nat.pow_add]; congr 1; omega
    rw [e, Nat.mod_mul_right_div_self]
  unfold bits
  rw [cut, cut, key]

namespace Machine

variable {s : State} {k j hi lo a b x : Nat}

/-- A field of a register reads as it was written. -/
theorem fld_setFld (h : regsWf s.regs = true) (hw : hi < 64) (hl : lo ≤ hi) :
    (s.setFld k hi lo x).fld k hi lo = x % 2 ^ (hi + 1 - lo) := by
  unfold State.fld State.setFld
  rw [rd_wr_self h, bits_setBits hw hl]

/-- A write of a field leaves the register's other fields alone. -/
theorem fld_setFld_other (h : regsWf s.regs = true) (hw : hi < 64) (hl : lo ≤ hi) (hb : b ≤ a)
    (hd : hi < b ∨ a < lo) : (s.setFld k hi lo x).fld k a b = s.fld k a b := by
  unfold State.fld State.setFld
  rw [rd_wr_self h]
  rcases hd with hd | hd
  · exact bits_setBits_above hw hl hd
  · exact bits_setBits_below hw hl hb hd

/-- A write of a field leaves every other register alone. -/
theorem rd_setFld_ne (h : regsWf s.regs = true) (hj : j ≠ k) : (s.setFld k hi lo x).rd j = s.rd j :=
  rd_wr_ne h hj _

theorem fld_setFld_ne (h : regsWf s.regs = true) (hj : j ≠ k) : (s.setFld k hi lo x).fld j a b = s.fld j a b := by
  unfold State.fld
  rw [rd_setFld_ne h hj]

/-- A bit reads as it was written. -/
theorem bit_setBit (h : regsWf s.regs = true) {i : Nat} (hi : i < 64) (v : Bool) : (s.setBit k i v).bit k i = v := by
  unfold State.bit State.setBit
  rw [fld_setFld h hi (Nat.le_refl i), show i + 1 - i = 1 by omega]
  cases v <;> rfl

theorem bit_setBit_other (h : regsWf s.regs = true) {i n : Nat} (hi : i < 64) (hn : n ≠ i) (v : Bool) :
    (s.setBit k i v).bit k n = s.bit k n := by
  unfold State.bit State.setBit
  rw [fld_setFld_other h hi (Nat.le_refl i) (Nat.le_refl n) (by omega)]

theorem bit_setBit_ne (h : regsWf s.regs = true) (hj : j ≠ k) {i n : Nat} (v : Bool) :
    (s.setBit k i v).bit j n = s.bit j n := by
  unfold State.bit State.setBit
  rw [fld_setFld_ne h hj]

theorem rd_setBit_ne (h : regsWf s.regs = true) (hj : j ≠ k) {i : Nat} (v : Bool) : (s.setBit k i v).rd j = s.rd j :=
  rd_wr_ne h hj _

end Machine

end Sys2Proof
end

