-- ==== Sys2Proof/Laws/State.lean ====
section
/-! SUPPORT. The plain updates of State, field by field: what each changes and what it leaves. -/

namespace Sys2Proof.Machine

variable (s : State)

/-! ### State.wr -/

@[simp] theorem State.wr_pending (k v) : (s.wr k v).pending = s.pending := rfl
@[simp] theorem State.wr_freeCtr (k v) : (s.wr k v).freeCtr = s.freeCtr := rfl
@[simp] theorem State.wr_regs (k v) : (s.wr k v).regs = s.regs.set (regReset k) k v := rfl
@[simp] theorem State.wr_mem (k v) : (s.wr k v).mem = s.mem := rfl
@[simp] theorem State.wr_spad (k v) : (s.wr k v).spad = s.spad := rfl
@[simp] theorem State.wr_spadEcc (k v) : (s.wr k v).spadEcc = s.spadEcc := rfl
@[simp] theorem State.wr_spadOwed (k v) : (s.wr k v).spadOwed = s.spadOwed := rfl
@[simp] theorem State.wr_cores (k v) : (s.wr k v).cores = s.cores := rfl
@[simp] theorem State.wr_jobs (k v) : (s.wr k v).jobs = s.jobs := rfl
@[simp] theorem State.wr_progs (k v) : (s.wr k v).progs = s.progs := rfl
@[simp] theorem State.wr_flog (k v) : (s.wr k v).flog = s.flog := rfl
@[simp] theorem State.wr_smem (k v) : (s.wr k v).smem = s.smem := rfl
@[simp] theorem State.wr_qm (k v) : (s.wr k v).qm = s.qm := rfl
@[simp] theorem State.wr_seqs (k v) : (s.wr k v).seqs = s.seqs := rfl
@[simp] theorem State.wr_wintab (k v) : (s.wr k v).wintab = s.wintab := rfl
@[simp] theorem State.wr_fab (k v) : (s.wr k v).fab = s.fab := rfl
@[simp] theorem State.wr_ports (k v) : (s.wr k v).ports = s.ports := rfl
@[simp] theorem State.wr_carts (k v) : (s.wr k v).carts = s.carts := rfl
@[simp] theorem State.wr_recov (k v) : (s.wr k v).recov = s.recov := rfl
@[simp] theorem State.wr_obs (k v) : (s.wr k v).obs = s.obs := rfl
@[simp] theorem State.wr_power (k v) : (s.wr k v).power = s.power := rfl
@[simp] theorem State.wr_host (k v) : (s.wr k v).host = s.host := rfl
@[simp] theorem State.wr_trust (k v) : (s.wr k v).trust = s.trust := rfl
@[simp] theorem State.wr_start (k v) : (s.wr k v).start = s.start := rfl
@[simp] theorem State.wr_latches (k v) : (s.wr k v).latches = s.latches := rfl
@[simp] theorem State.wr_limitCtx (k v) : (s.wr k v).limitCtx = s.limitCtx := rfl

/-! ### State.setFld -/

@[simp] theorem State.setFld_pending (k hi lo v) : (s.setFld k hi lo v).pending = s.pending := rfl
@[simp] theorem State.setFld_freeCtr (k hi lo v) : (s.setFld k hi lo v).freeCtr = s.freeCtr := rfl
@[simp] theorem State.setFld_mem (k hi lo v) : (s.setFld k hi lo v).mem = s.mem := rfl
@[simp] theorem State.setFld_spad (k hi lo v) : (s.setFld k hi lo v).spad = s.spad := rfl
@[simp] theorem State.setFld_spadEcc (k hi lo v) : (s.setFld k hi lo v).spadEcc = s.spadEcc := rfl
@[simp] theorem State.setFld_spadOwed (k hi lo v) : (s.setFld k hi lo v).spadOwed = s.spadOwed := rfl
@[simp] theorem State.setFld_cores (k hi lo v) : (s.setFld k hi lo v).cores = s.cores := rfl
@[simp] theorem State.setFld_jobs (k hi lo v) : (s.setFld k hi lo v).jobs = s.jobs := rfl
@[simp] theorem State.setFld_progs (k hi lo v) : (s.setFld k hi lo v).progs = s.progs := rfl
@[simp] theorem State.setFld_flog (k hi lo v) : (s.setFld k hi lo v).flog = s.flog := rfl
@[simp] theorem State.setFld_smem (k hi lo v) : (s.setFld k hi lo v).smem = s.smem := rfl
@[simp] theorem State.setFld_qm (k hi lo v) : (s.setFld k hi lo v).qm = s.qm := rfl
@[simp] theorem State.setFld_seqs (k hi lo v) : (s.setFld k hi lo v).seqs = s.seqs := rfl
@[simp] theorem State.setFld_wintab (k hi lo v) : (s.setFld k hi lo v).wintab = s.wintab := rfl
@[simp] theorem State.setFld_fab (k hi lo v) : (s.setFld k hi lo v).fab = s.fab := rfl
@[simp] theorem State.setFld_ports (k hi lo v) : (s.setFld k hi lo v).ports = s.ports := rfl
@[simp] theorem State.setFld_carts (k hi lo v) : (s.setFld k hi lo v).carts = s.carts := rfl
@[simp] theorem State.setFld_recov (k hi lo v) : (s.setFld k hi lo v).recov = s.recov := rfl
@[simp] theorem State.setFld_obs (k hi lo v) : (s.setFld k hi lo v).obs = s.obs := rfl
@[simp] theorem State.setFld_power (k hi lo v) : (s.setFld k hi lo v).power = s.power := rfl
@[simp] theorem State.setFld_host (k hi lo v) : (s.setFld k hi lo v).host = s.host := rfl
@[simp] theorem State.setFld_trust (k hi lo v) : (s.setFld k hi lo v).trust = s.trust := rfl
@[simp] theorem State.setFld_start (k hi lo v) : (s.setFld k hi lo v).start = s.start := rfl
@[simp] theorem State.setFld_latches (k hi lo v) : (s.setFld k hi lo v).latches = s.latches := rfl
@[simp] theorem State.setFld_limitCtx (k hi lo v) : (s.setFld k hi lo v).limitCtx = s.limitCtx := rfl

/-! ### State.setBit -/

@[simp] theorem State.setBit_pending (k i b) : (s.setBit k i b).pending = s.pending := rfl
@[simp] theorem State.setBit_freeCtr (k i b) : (s.setBit k i b).freeCtr = s.freeCtr := rfl
@[simp] theorem State.setBit_mem (k i b) : (s.setBit k i b).mem = s.mem := rfl
@[simp] theorem State.setBit_spad (k i b) : (s.setBit k i b).spad = s.spad := rfl
@[simp] theorem State.setBit_spadEcc (k i b) : (s.setBit k i b).spadEcc = s.spadEcc := rfl
@[simp] theorem State.setBit_spadOwed (k i b) : (s.setBit k i b).spadOwed = s.spadOwed := rfl
@[simp] theorem State.setBit_cores (k i b) : (s.setBit k i b).cores = s.cores := rfl
@[simp] theorem State.setBit_jobs (k i b) : (s.setBit k i b).jobs = s.jobs := rfl
@[simp] theorem State.setBit_progs (k i b) : (s.setBit k i b).progs = s.progs := rfl
@[simp] theorem State.setBit_flog (k i b) : (s.setBit k i b).flog = s.flog := rfl
@[simp] theorem State.setBit_smem (k i b) : (s.setBit k i b).smem = s.smem := rfl
@[simp] theorem State.setBit_qm (k i b) : (s.setBit k i b).qm = s.qm := rfl
@[simp] theorem State.setBit_seqs (k i b) : (s.setBit k i b).seqs = s.seqs := rfl
@[simp] theorem State.setBit_wintab (k i b) : (s.setBit k i b).wintab = s.wintab := rfl
@[simp] theorem State.setBit_fab (k i b) : (s.setBit k i b).fab = s.fab := rfl
@[simp] theorem State.setBit_ports (k i b) : (s.setBit k i b).ports = s.ports := rfl
@[simp] theorem State.setBit_carts (k i b) : (s.setBit k i b).carts = s.carts := rfl
@[simp] theorem State.setBit_recov (k i b) : (s.setBit k i b).recov = s.recov := rfl
@[simp] theorem State.setBit_obs (k i b) : (s.setBit k i b).obs = s.obs := rfl
@[simp] theorem State.setBit_power (k i b) : (s.setBit k i b).power = s.power := rfl
@[simp] theorem State.setBit_host (k i b) : (s.setBit k i b).host = s.host := rfl
@[simp] theorem State.setBit_trust (k i b) : (s.setBit k i b).trust = s.trust := rfl
@[simp] theorem State.setBit_start (k i b) : (s.setBit k i b).start = s.start := rfl
@[simp] theorem State.setBit_latches (k i b) : (s.setBit k i b).latches = s.latches := rfl
@[simp] theorem State.setBit_limitCtx (k i b) : (s.setBit k i b).limitCtx = s.limitCtx := rfl

/-! ### State.count -/

@[simp] theorem State.count_pending (k n) : (s.count k n).pending = s.pending := rfl
@[simp] theorem State.count_freeCtr (k n) : (s.count k n).freeCtr = s.freeCtr := rfl
@[simp] theorem State.count_mem (k n) : (s.count k n).mem = s.mem := rfl
@[simp] theorem State.count_spad (k n) : (s.count k n).spad = s.spad := rfl
@[simp] theorem State.count_spadEcc (k n) : (s.count k n).spadEcc = s.spadEcc := rfl
@[simp] theorem State.count_spadOwed (k n) : (s.count k n).spadOwed = s.spadOwed := rfl
@[simp] theorem State.count_cores (k n) : (s.count k n).cores = s.cores := rfl
@[simp] theorem State.count_jobs (k n) : (s.count k n).jobs = s.jobs := rfl
@[simp] theorem State.count_progs (k n) : (s.count k n).progs = s.progs := rfl
@[simp] theorem State.count_flog (k n) : (s.count k n).flog = s.flog := rfl
@[simp] theorem State.count_smem (k n) : (s.count k n).smem = s.smem := rfl
@[simp] theorem State.count_qm (k n) : (s.count k n).qm = s.qm := rfl
@[simp] theorem State.count_seqs (k n) : (s.count k n).seqs = s.seqs := rfl
@[simp] theorem State.count_wintab (k n) : (s.count k n).wintab = s.wintab := rfl
@[simp] theorem State.count_fab (k n) : (s.count k n).fab = s.fab := rfl
@[simp] theorem State.count_ports (k n) : (s.count k n).ports = s.ports := rfl
@[simp] theorem State.count_carts (k n) : (s.count k n).carts = s.carts := rfl
@[simp] theorem State.count_recov (k n) : (s.count k n).recov = s.recov := rfl
@[simp] theorem State.count_obs (k n) : (s.count k n).obs = s.obs := rfl
@[simp] theorem State.count_power (k n) : (s.count k n).power = s.power := rfl
@[simp] theorem State.count_host (k n) : (s.count k n).host = s.host := rfl
@[simp] theorem State.count_trust (k n) : (s.count k n).trust = s.trust := rfl
@[simp] theorem State.count_start (k n) : (s.count k n).start = s.start := rfl
@[simp] theorem State.count_latches (k n) : (s.count k n).latches = s.latches := rfl
@[simp] theorem State.count_limitCtx (k n) : (s.count k n).limitCtx = s.limitCtx := rfl

/-! ### State.count64 -/

@[simp] theorem State.count64_pending (k n) : (s.count64 k n).pending = s.pending := rfl
@[simp] theorem State.count64_freeCtr (k n) : (s.count64 k n).freeCtr = s.freeCtr := rfl
@[simp] theorem State.count64_mem (k n) : (s.count64 k n).mem = s.mem := rfl
@[simp] theorem State.count64_spad (k n) : (s.count64 k n).spad = s.spad := rfl
@[simp] theorem State.count64_spadEcc (k n) : (s.count64 k n).spadEcc = s.spadEcc := rfl
@[simp] theorem State.count64_spadOwed (k n) : (s.count64 k n).spadOwed = s.spadOwed := rfl
@[simp] theorem State.count64_cores (k n) : (s.count64 k n).cores = s.cores := rfl
@[simp] theorem State.count64_jobs (k n) : (s.count64 k n).jobs = s.jobs := rfl
@[simp] theorem State.count64_progs (k n) : (s.count64 k n).progs = s.progs := rfl
@[simp] theorem State.count64_flog (k n) : (s.count64 k n).flog = s.flog := rfl
@[simp] theorem State.count64_smem (k n) : (s.count64 k n).smem = s.smem := rfl
@[simp] theorem State.count64_qm (k n) : (s.count64 k n).qm = s.qm := rfl
@[simp] theorem State.count64_seqs (k n) : (s.count64 k n).seqs = s.seqs := rfl
@[simp] theorem State.count64_wintab (k n) : (s.count64 k n).wintab = s.wintab := rfl
@[simp] theorem State.count64_fab (k n) : (s.count64 k n).fab = s.fab := rfl
@[simp] theorem State.count64_ports (k n) : (s.count64 k n).ports = s.ports := rfl
@[simp] theorem State.count64_carts (k n) : (s.count64 k n).carts = s.carts := rfl
@[simp] theorem State.count64_recov (k n) : (s.count64 k n).recov = s.recov := rfl
@[simp] theorem State.count64_obs (k n) : (s.count64 k n).obs = s.obs := rfl
@[simp] theorem State.count64_power (k n) : (s.count64 k n).power = s.power := rfl
@[simp] theorem State.count64_host (k n) : (s.count64 k n).host = s.host := rfl
@[simp] theorem State.count64_trust (k n) : (s.count64 k n).trust = s.trust := rfl
@[simp] theorem State.count64_start (k n) : (s.count64 k n).start = s.start := rfl
@[simp] theorem State.count64_latches (k n) : (s.count64 k n).latches = s.latches := rfl
@[simp] theorem State.count64_limitCtx (k n) : (s.count64 k n).limitCtx = s.limitCtx := rfl

/-! ### State.add64 -/

@[simp] theorem State.add64_pending (k n) : (s.add64 k n).pending = s.pending := rfl
@[simp] theorem State.add64_freeCtr (k n) : (s.add64 k n).freeCtr = s.freeCtr := rfl
@[simp] theorem State.add64_mem (k n) : (s.add64 k n).mem = s.mem := rfl
@[simp] theorem State.add64_spad (k n) : (s.add64 k n).spad = s.spad := rfl
@[simp] theorem State.add64_spadEcc (k n) : (s.add64 k n).spadEcc = s.spadEcc := rfl
@[simp] theorem State.add64_spadOwed (k n) : (s.add64 k n).spadOwed = s.spadOwed := rfl
@[simp] theorem State.add64_cores (k n) : (s.add64 k n).cores = s.cores := rfl
@[simp] theorem State.add64_jobs (k n) : (s.add64 k n).jobs = s.jobs := rfl
@[simp] theorem State.add64_progs (k n) : (s.add64 k n).progs = s.progs := rfl
@[simp] theorem State.add64_flog (k n) : (s.add64 k n).flog = s.flog := rfl
@[simp] theorem State.add64_smem (k n) : (s.add64 k n).smem = s.smem := rfl
@[simp] theorem State.add64_qm (k n) : (s.add64 k n).qm = s.qm := rfl
@[simp] theorem State.add64_seqs (k n) : (s.add64 k n).seqs = s.seqs := rfl
@[simp] theorem State.add64_wintab (k n) : (s.add64 k n).wintab = s.wintab := rfl
@[simp] theorem State.add64_fab (k n) : (s.add64 k n).fab = s.fab := rfl
@[simp] theorem State.add64_ports (k n) : (s.add64 k n).ports = s.ports := rfl
@[simp] theorem State.add64_carts (k n) : (s.add64 k n).carts = s.carts := rfl
@[simp] theorem State.add64_recov (k n) : (s.add64 k n).recov = s.recov := rfl
@[simp] theorem State.add64_obs (k n) : (s.add64 k n).obs = s.obs := rfl
@[simp] theorem State.add64_power (k n) : (s.add64 k n).power = s.power := rfl
@[simp] theorem State.add64_host (k n) : (s.add64 k n).host = s.host := rfl
@[simp] theorem State.add64_trust (k n) : (s.add64 k n).trust = s.trust := rfl
@[simp] theorem State.add64_start (k n) : (s.add64 k n).start = s.start := rfl
@[simp] theorem State.add64_latches (k n) : (s.add64 k n).latches = s.latches := rfl
@[simp] theorem State.add64_limitCtx (k n) : (s.add64 k n).limitCtx = s.limitCtx := rfl

/-! ### State.setCore -/

@[simp] theorem State.setCore_pending (c x) : (s.setCore c x).pending = s.pending := rfl
@[simp] theorem State.setCore_freeCtr (c x) : (s.setCore c x).freeCtr = s.freeCtr := rfl
@[simp] theorem State.setCore_regs (c x) : (s.setCore c x).regs = s.regs := rfl
@[simp] theorem State.setCore_mem (c x) : (s.setCore c x).mem = s.mem := rfl
@[simp] theorem State.setCore_spad (c x) : (s.setCore c x).spad = s.spad := rfl
@[simp] theorem State.setCore_spadEcc (c x) : (s.setCore c x).spadEcc = s.spadEcc := rfl
@[simp] theorem State.setCore_spadOwed (c x) : (s.setCore c x).spadOwed = s.spadOwed := rfl
@[simp] theorem State.setCore_cores (c x) : (s.setCore c x).cores = s.cores.set {} c x := rfl
@[simp] theorem State.setCore_jobs (c x) : (s.setCore c x).jobs = s.jobs := rfl
@[simp] theorem State.setCore_progs (c x) : (s.setCore c x).progs = s.progs := rfl
@[simp] theorem State.setCore_flog (c x) : (s.setCore c x).flog = s.flog := rfl
@[simp] theorem State.setCore_smem (c x) : (s.setCore c x).smem = s.smem := rfl
@[simp] theorem State.setCore_qm (c x) : (s.setCore c x).qm = s.qm := rfl
@[simp] theorem State.setCore_seqs (c x) : (s.setCore c x).seqs = s.seqs := rfl
@[simp] theorem State.setCore_wintab (c x) : (s.setCore c x).wintab = s.wintab := rfl
@[simp] theorem State.setCore_fab (c x) : (s.setCore c x).fab = s.fab := rfl
@[simp] theorem State.setCore_ports (c x) : (s.setCore c x).ports = s.ports := rfl
@[simp] theorem State.setCore_carts (c x) : (s.setCore c x).carts = s.carts := rfl
@[simp] theorem State.setCore_recov (c x) : (s.setCore c x).recov = s.recov := rfl
@[simp] theorem State.setCore_obs (c x) : (s.setCore c x).obs = s.obs := rfl
@[simp] theorem State.setCore_power (c x) : (s.setCore c x).power = s.power := rfl
@[simp] theorem State.setCore_host (c x) : (s.setCore c x).host = s.host := rfl
@[simp] theorem State.setCore_trust (c x) : (s.setCore c x).trust = s.trust := rfl
@[simp] theorem State.setCore_start (c x) : (s.setCore c x).start = s.start := rfl
@[simp] theorem State.setCore_latches (c x) : (s.setCore c x).latches = s.latches := rfl
@[simp] theorem State.setCore_limitCtx (c x) : (s.setCore c x).limitCtx = s.limitCtx := rfl
@[simp] theorem State.setCore_rd (c x n) : (s.setCore c x).rd n = s.rd n := rfl

/-! ### State.modCore -/

@[simp] theorem State.modCore_pending (c f) : (s.modCore c f).pending = s.pending := rfl
@[simp] theorem State.modCore_freeCtr (c f) : (s.modCore c f).freeCtr = s.freeCtr := rfl
@[simp] theorem State.modCore_regs (c f) : (s.modCore c f).regs = s.regs := rfl
@[simp] theorem State.modCore_mem (c f) : (s.modCore c f).mem = s.mem := rfl
@[simp] theorem State.modCore_spad (c f) : (s.modCore c f).spad = s.spad := rfl
@[simp] theorem State.modCore_spadEcc (c f) : (s.modCore c f).spadEcc = s.spadEcc := rfl
@[simp] theorem State.modCore_spadOwed (c f) : (s.modCore c f).spadOwed = s.spadOwed := rfl
@[simp] theorem State.modCore_cores (c f) : (s.modCore c f).cores = s.cores.set {} c (f (s.core c)) := rfl
@[simp] theorem State.modCore_jobs (c f) : (s.modCore c f).jobs = s.jobs := rfl
@[simp] theorem State.modCore_progs (c f) : (s.modCore c f).progs = s.progs := rfl
@[simp] theorem State.modCore_flog (c f) : (s.modCore c f).flog = s.flog := rfl
@[simp] theorem State.modCore_smem (c f) : (s.modCore c f).smem = s.smem := rfl
@[simp] theorem State.modCore_qm (c f) : (s.modCore c f).qm = s.qm := rfl
@[simp] theorem State.modCore_seqs (c f) : (s.modCore c f).seqs = s.seqs := rfl
@[simp] theorem State.modCore_wintab (c f) : (s.modCore c f).wintab = s.wintab := rfl
@[simp] theorem State.modCore_fab (c f) : (s.modCore c f).fab = s.fab := rfl
@[simp] theorem State.modCore_ports (c f) : (s.modCore c f).ports = s.ports := rfl
@[simp] theorem State.modCore_carts (c f) : (s.modCore c f).carts = s.carts := rfl
@[simp] theorem State.modCore_recov (c f) : (s.modCore c f).recov = s.recov := rfl
@[simp] theorem State.modCore_obs (c f) : (s.modCore c f).obs = s.obs := rfl
@[simp] theorem State.modCore_power (c f) : (s.modCore c f).power = s.power := rfl
@[simp] theorem State.modCore_host (c f) : (s.modCore c f).host = s.host := rfl
@[simp] theorem State.modCore_trust (c f) : (s.modCore c f).trust = s.trust := rfl
@[simp] theorem State.modCore_start (c f) : (s.modCore c f).start = s.start := rfl
@[simp] theorem State.modCore_latches (c f) : (s.modCore c f).latches = s.latches := rfl
@[simp] theorem State.modCore_limitCtx (c f) : (s.modCore c f).limitCtx = s.limitCtx := rfl
@[simp] theorem State.modCore_rd (c f n) : (s.modCore c f).rd n = s.rd n := rfl

/-! ### State.modEng -/

@[simp] theorem State.modEng_pending (c e f) : (s.modEng c e f).pending = s.pending := rfl
@[simp] theorem State.modEng_freeCtr (c e f) : (s.modEng c e f).freeCtr = s.freeCtr := rfl
@[simp] theorem State.modEng_regs (c e f) : (s.modEng c e f).regs = s.regs := rfl
@[simp] theorem State.modEng_mem (c e f) : (s.modEng c e f).mem = s.mem := rfl
@[simp] theorem State.modEng_spad (c e f) : (s.modEng c e f).spad = s.spad := rfl
@[simp] theorem State.modEng_spadEcc (c e f) : (s.modEng c e f).spadEcc = s.spadEcc := rfl
@[simp] theorem State.modEng_spadOwed (c e f) : (s.modEng c e f).spadOwed = s.spadOwed := rfl
@[simp] theorem State.modEng_jobs (c e f) : (s.modEng c e f).jobs = s.jobs := rfl
@[simp] theorem State.modEng_progs (c e f) : (s.modEng c e f).progs = s.progs := rfl
@[simp] theorem State.modEng_flog (c e f) : (s.modEng c e f).flog = s.flog := rfl
@[simp] theorem State.modEng_smem (c e f) : (s.modEng c e f).smem = s.smem := rfl
@[simp] theorem State.modEng_qm (c e f) : (s.modEng c e f).qm = s.qm := rfl
@[simp] theorem State.modEng_seqs (c e f) : (s.modEng c e f).seqs = s.seqs := rfl
@[simp] theorem State.modEng_wintab (c e f) : (s.modEng c e f).wintab = s.wintab := rfl
@[simp] theorem State.modEng_fab (c e f) : (s.modEng c e f).fab = s.fab := rfl
@[simp] theorem State.modEng_ports (c e f) : (s.modEng c e f).ports = s.ports := rfl
@[simp] theorem State.modEng_carts (c e f) : (s.modEng c e f).carts = s.carts := rfl
@[simp] theorem State.modEng_recov (c e f) : (s.modEng c e f).recov = s.recov := rfl
@[simp] theorem State.modEng_obs (c e f) : (s.modEng c e f).obs = s.obs := rfl
@[simp] theorem State.modEng_power (c e f) : (s.modEng c e f).power = s.power := rfl
@[simp] theorem State.modEng_host (c e f) : (s.modEng c e f).host = s.host := rfl
@[simp] theorem State.modEng_trust (c e f) : (s.modEng c e f).trust = s.trust := rfl
@[simp] theorem State.modEng_start (c e f) : (s.modEng c e f).start = s.start := rfl
@[simp] theorem State.modEng_latches (c e f) : (s.modEng c e f).latches = s.latches := rfl
@[simp] theorem State.modEng_limitCtx (c e f) : (s.modEng c e f).limitCtx = s.limitCtx := rfl
@[simp] theorem State.modEng_rd (c e f n) : (s.modEng c e f).rd n = s.rd n := rfl

/-! ### State.setJob -/

@[simp] theorem State.setJob_pending (u j) : (s.setJob u j).pending = s.pending := rfl
@[simp] theorem State.setJob_freeCtr (u j) : (s.setJob u j).freeCtr = s.freeCtr := rfl
@[simp] theorem State.setJob_regs (u j) : (s.setJob u j).regs = s.regs := rfl
@[simp] theorem State.setJob_mem (u j) : (s.setJob u j).mem = s.mem := rfl
@[simp] theorem State.setJob_spad (u j) : (s.setJob u j).spad = s.spad := rfl
@[simp] theorem State.setJob_spadEcc (u j) : (s.setJob u j).spadEcc = s.spadEcc := rfl
@[simp] theorem State.setJob_spadOwed (u j) : (s.setJob u j).spadOwed = s.spadOwed := rfl
@[simp] theorem State.setJob_cores (u j) : (s.setJob u j).cores = s.cores := rfl
@[simp] theorem State.setJob_jobs (u j) : (s.setJob u j).jobs = s.jobs.set {} u j := rfl
@[simp] theorem State.setJob_progs (u j) : (s.setJob u j).progs = s.progs := rfl
@[simp] theorem State.setJob_flog (u j) : (s.setJob u j).flog = s.flog := rfl
@[simp] theorem State.setJob_smem (u j) : (s.setJob u j).smem = s.smem := rfl
@[simp] theorem State.setJob_qm (u j) : (s.setJob u j).qm = s.qm := rfl
@[simp] theorem State.setJob_seqs (u j) : (s.setJob u j).seqs = s.seqs := rfl
@[simp] theorem State.setJob_wintab (u j) : (s.setJob u j).wintab = s.wintab := rfl
@[simp] theorem State.setJob_fab (u j) : (s.setJob u j).fab = s.fab := rfl
@[simp] theorem State.setJob_ports (u j) : (s.setJob u j).ports = s.ports := rfl
@[simp] theorem State.setJob_carts (u j) : (s.setJob u j).carts = s.carts := rfl
@[simp] theorem State.setJob_recov (u j) : (s.setJob u j).recov = s.recov := rfl
@[simp] theorem State.setJob_obs (u j) : (s.setJob u j).obs = s.obs := rfl
@[simp] theorem State.setJob_power (u j) : (s.setJob u j).power = s.power := rfl
@[simp] theorem State.setJob_host (u j) : (s.setJob u j).host = s.host := rfl
@[simp] theorem State.setJob_trust (u j) : (s.setJob u j).trust = s.trust := rfl
@[simp] theorem State.setJob_start (u j) : (s.setJob u j).start = s.start := rfl
@[simp] theorem State.setJob_latches (u j) : (s.setJob u j).latches = s.latches := rfl
@[simp] theorem State.setJob_limitCtx (u j) : (s.setJob u j).limitCtx = s.limitCtx := rfl
@[simp] theorem State.setJob_rd (u j n) : (s.setJob u j).rd n = s.rd n := rfl

/-! ### State.setSpadHealth -/

@[simp] theorem State.setSpadHealth_pending (c a h) : (s.setSpadHealth c a h).pending = s.pending := rfl
@[simp] theorem State.setSpadHealth_freeCtr (c a h) : (s.setSpadHealth c a h).freeCtr = s.freeCtr := rfl
@[simp] theorem State.setSpadHealth_regs (c a h) : (s.setSpadHealth c a h).regs = s.regs := rfl
@[simp] theorem State.setSpadHealth_mem (c a h) : (s.setSpadHealth c a h).mem = s.mem := rfl
@[simp] theorem State.setSpadHealth_spad (c a h) : (s.setSpadHealth c a h).spad = s.spad := rfl
@[simp] theorem State.setSpadHealth_spadOwed (c a h) : (s.setSpadHealth c a h).spadOwed = s.spadOwed := rfl
@[simp] theorem State.setSpadHealth_cores (c a h) : (s.setSpadHealth c a h).cores = s.cores := rfl
@[simp] theorem State.setSpadHealth_jobs (c a h) : (s.setSpadHealth c a h).jobs = s.jobs := rfl
@[simp] theorem State.setSpadHealth_progs (c a h) : (s.setSpadHealth c a h).progs = s.progs := rfl
@[simp] theorem State.setSpadHealth_flog (c a h) : (s.setSpadHealth c a h).flog = s.flog := rfl
@[simp] theorem State.setSpadHealth_smem (c a h) : (s.setSpadHealth c a h).smem = s.smem := rfl
@[simp] theorem State.setSpadHealth_qm (c a h) : (s.setSpadHealth c a h).qm = s.qm := rfl
@[simp] theorem State.setSpadHealth_seqs (c a h) : (s.setSpadHealth c a h).seqs = s.seqs := rfl
@[simp] theorem State.setSpadHealth_wintab (c a h) : (s.setSpadHealth c a h).wintab = s.wintab := rfl
@[simp] theorem State.setSpadHealth_fab (c a h) : (s.setSpadHealth c a h).fab = s.fab := rfl
@[simp] theorem State.setSpadHealth_ports (c a h) : (s.setSpadHealth c a h).ports = s.ports := rfl
@[simp] theorem State.setSpadHealth_carts (c a h) : (s.setSpadHealth c a h).carts = s.carts := rfl
@[simp] theorem State.setSpadHealth_recov (c a h) : (s.setSpadHealth c a h).recov = s.recov := rfl
@[simp] theorem State.setSpadHealth_obs (c a h) : (s.setSpadHealth c a h).obs = s.obs := rfl
@[simp] theorem State.setSpadHealth_power (c a h) : (s.setSpadHealth c a h).power = s.power := rfl
@[simp] theorem State.setSpadHealth_host (c a h) : (s.setSpadHealth c a h).host = s.host := rfl
@[simp] theorem State.setSpadHealth_trust (c a h) : (s.setSpadHealth c a h).trust = s.trust := rfl
@[simp] theorem State.setSpadHealth_start (c a h) : (s.setSpadHealth c a h).start = s.start := rfl
@[simp] theorem State.setSpadHealth_latches (c a h) : (s.setSpadHealth c a h).latches = s.latches := rfl
@[simp] theorem State.setSpadHealth_limitCtx (c a h) : (s.setSpadHealth c a h).limitCtx = s.limitCtx := rfl
@[simp] theorem State.setSpadHealth_rd (c a h n) : (s.setSpadHealth c a h).rd n = s.rd n := rfl

/-! ### State.setMemHealth -/

@[simp] theorem State.setMemHealth_pending (a h) : (s.setMemHealth a h).pending = s.pending := rfl
@[simp] theorem State.setMemHealth_freeCtr (a h) : (s.setMemHealth a h).freeCtr = s.freeCtr := rfl
@[simp] theorem State.setMemHealth_regs (a h) : (s.setMemHealth a h).regs = s.regs := rfl
@[simp] theorem State.setMemHealth_mem (a h) : (s.setMemHealth a h).mem = s.mem := rfl
@[simp] theorem State.setMemHealth_spad (a h) : (s.setMemHealth a h).spad = s.spad := rfl
@[simp] theorem State.setMemHealth_spadEcc (a h) : (s.setMemHealth a h).spadEcc = s.spadEcc := rfl
@[simp] theorem State.setMemHealth_spadOwed (a h) : (s.setMemHealth a h).spadOwed = s.spadOwed := rfl
@[simp] theorem State.setMemHealth_cores (a h) : (s.setMemHealth a h).cores = s.cores := rfl
@[simp] theorem State.setMemHealth_jobs (a h) : (s.setMemHealth a h).jobs = s.jobs := rfl
@[simp] theorem State.setMemHealth_progs (a h) : (s.setMemHealth a h).progs = s.progs := rfl
@[simp] theorem State.setMemHealth_flog (a h) : (s.setMemHealth a h).flog = s.flog := rfl
@[simp] theorem State.setMemHealth_qm (a h) : (s.setMemHealth a h).qm = s.qm := rfl
@[simp] theorem State.setMemHealth_seqs (a h) : (s.setMemHealth a h).seqs = s.seqs := rfl
@[simp] theorem State.setMemHealth_wintab (a h) : (s.setMemHealth a h).wintab = s.wintab := rfl
@[simp] theorem State.setMemHealth_fab (a h) : (s.setMemHealth a h).fab = s.fab := rfl
@[simp] theorem State.setMemHealth_ports (a h) : (s.setMemHealth a h).ports = s.ports := rfl
@[simp] theorem State.setMemHealth_carts (a h) : (s.setMemHealth a h).carts = s.carts := rfl
@[simp] theorem State.setMemHealth_recov (a h) : (s.setMemHealth a h).recov = s.recov := rfl
@[simp] theorem State.setMemHealth_obs (a h) : (s.setMemHealth a h).obs = s.obs := rfl
@[simp] theorem State.setMemHealth_power (a h) : (s.setMemHealth a h).power = s.power := rfl
@[simp] theorem State.setMemHealth_host (a h) : (s.setMemHealth a h).host = s.host := rfl
@[simp] theorem State.setMemHealth_trust (a h) : (s.setMemHealth a h).trust = s.trust := rfl
@[simp] theorem State.setMemHealth_start (a h) : (s.setMemHealth a h).start = s.start := rfl
@[simp] theorem State.setMemHealth_latches (a h) : (s.setMemHealth a h).latches = s.latches := rfl
@[simp] theorem State.setMemHealth_limitCtx (a h) : (s.setMemHealth a h).limitCtx = s.limitCtx := rfl
@[simp] theorem State.setMemHealth_rd (a h n) : (s.setMemHealth a h).rd n = s.rd n := rfl

/-! ### State.setPort -/

@[simp] theorem State.setPort_pending (p x) : (s.setPort p x).pending = s.pending := rfl
@[simp] theorem State.setPort_freeCtr (p x) : (s.setPort p x).freeCtr = s.freeCtr := rfl
@[simp] theorem State.setPort_regs (p x) : (s.setPort p x).regs = s.regs := rfl
@[simp] theorem State.setPort_mem (p x) : (s.setPort p x).mem = s.mem := rfl
@[simp] theorem State.setPort_spad (p x) : (s.setPort p x).spad = s.spad := rfl
@[simp] theorem State.setPort_spadEcc (p x) : (s.setPort p x).spadEcc = s.spadEcc := rfl
@[simp] theorem State.setPort_spadOwed (p x) : (s.setPort p x).spadOwed = s.spadOwed := rfl
@[simp] theorem State.setPort_cores (p x) : (s.setPort p x).cores = s.cores := rfl
@[simp] theorem State.setPort_jobs (p x) : (s.setPort p x).jobs = s.jobs := rfl
@[simp] theorem State.setPort_progs (p x) : (s.setPort p x).progs = s.progs := rfl
@[simp] theorem State.setPort_flog (p x) : (s.setPort p x).flog = s.flog := rfl
@[simp] theorem State.setPort_smem (p x) : (s.setPort p x).smem = s.smem := rfl
@[simp] theorem State.setPort_qm (p x) : (s.setPort p x).qm = s.qm := rfl
@[simp] theorem State.setPort_seqs (p x) : (s.setPort p x).seqs = s.seqs := rfl
@[simp] theorem State.setPort_wintab (p x) : (s.setPort p x).wintab = s.wintab := rfl
@[simp] theorem State.setPort_fab (p x) : (s.setPort p x).fab = s.fab := rfl
@[simp] theorem State.setPort_ports (p x) : (s.setPort p x).ports = s.ports.set {} p x := rfl
@[simp] theorem State.setPort_carts (p x) : (s.setPort p x).carts = s.carts := rfl
@[simp] theorem State.setPort_recov (p x) : (s.setPort p x).recov = s.recov := rfl
@[simp] theorem State.setPort_obs (p x) : (s.setPort p x).obs = s.obs := rfl
@[simp] theorem State.setPort_power (p x) : (s.setPort p x).power = s.power := rfl
@[simp] theorem State.setPort_host (p x) : (s.setPort p x).host = s.host := rfl
@[simp] theorem State.setPort_trust (p x) : (s.setPort p x).trust = s.trust := rfl
@[simp] theorem State.setPort_start (p x) : (s.setPort p x).start = s.start := rfl
@[simp] theorem State.setPort_latches (p x) : (s.setPort p x).latches = s.latches := rfl
@[simp] theorem State.setPort_limitCtx (p x) : (s.setPort p x).limitCtx = s.limitCtx := rfl
@[simp] theorem State.setPort_rd (p x n) : (s.setPort p x).rd n = s.rd n := rfl

/-! ### State.modPort -/

@[simp] theorem State.modPort_pending (p f) : (s.modPort p f).pending = s.pending := rfl
@[simp] theorem State.modPort_freeCtr (p f) : (s.modPort p f).freeCtr = s.freeCtr := rfl
@[simp] theorem State.modPort_regs (p f) : (s.modPort p f).regs = s.regs := rfl
@[simp] theorem State.modPort_mem (p f) : (s.modPort p f).mem = s.mem := rfl
@[simp] theorem State.modPort_spad (p f) : (s.modPort p f).spad = s.spad := rfl
@[simp] theorem State.modPort_spadEcc (p f) : (s.modPort p f).spadEcc = s.spadEcc := rfl
@[simp] theorem State.modPort_spadOwed (p f) : (s.modPort p f).spadOwed = s.spadOwed := rfl
@[simp] theorem State.modPort_cores (p f) : (s.modPort p f).cores = s.cores := rfl
@[simp] theorem State.modPort_jobs (p f) : (s.modPort p f).jobs = s.jobs := rfl
@[simp] theorem State.modPort_progs (p f) : (s.modPort p f).progs = s.progs := rfl
@[simp] theorem State.modPort_flog (p f) : (s.modPort p f).flog = s.flog := rfl
@[simp] theorem State.modPort_smem (p f) : (s.modPort p f).smem = s.smem := rfl
@[simp] theorem State.modPort_qm (p f) : (s.modPort p f).qm = s.qm := rfl
@[simp] theorem State.modPort_seqs (p f) : (s.modPort p f).seqs = s.seqs := rfl
@[simp] theorem State.modPort_wintab (p f) : (s.modPort p f).wintab = s.wintab := rfl
@[simp] theorem State.modPort_fab (p f) : (s.modPort p f).fab = s.fab := rfl
@[simp] theorem State.modPort_ports (p f) : (s.modPort p f).ports = s.ports.set {} p (f (s.port p)) := rfl
@[simp] theorem State.modPort_carts (p f) : (s.modPort p f).carts = s.carts := rfl
@[simp] theorem State.modPort_recov (p f) : (s.modPort p f).recov = s.recov := rfl
@[simp] theorem State.modPort_obs (p f) : (s.modPort p f).obs = s.obs := rfl
@[simp] theorem State.modPort_power (p f) : (s.modPort p f).power = s.power := rfl
@[simp] theorem State.modPort_host (p f) : (s.modPort p f).host = s.host := rfl
@[simp] theorem State.modPort_trust (p f) : (s.modPort p f).trust = s.trust := rfl
@[simp] theorem State.modPort_start (p f) : (s.modPort p f).start = s.start := rfl
@[simp] theorem State.modPort_latches (p f) : (s.modPort p f).latches = s.latches := rfl
@[simp] theorem State.modPort_limitCtx (p f) : (s.modPort p f).limitCtx = s.limitCtx := rfl
@[simp] theorem State.modPort_rd (p f n) : (s.modPort p f).rd n = s.rd n := rfl

/-! ### State.modFab -/

@[simp] theorem State.modFab_pending (f) : (s.modFab f).pending = s.pending := rfl
@[simp] theorem State.modFab_freeCtr (f) : (s.modFab f).freeCtr = s.freeCtr := rfl
@[simp] theorem State.modFab_regs (f) : (s.modFab f).regs = s.regs := rfl
@[simp] theorem State.modFab_mem (f) : (s.modFab f).mem = s.mem := rfl
@[simp] theorem State.modFab_spad (f) : (s.modFab f).spad = s.spad := rfl
@[simp] theorem State.modFab_spadEcc (f) : (s.modFab f).spadEcc = s.spadEcc := rfl
@[simp] theorem State.modFab_spadOwed (f) : (s.modFab f).spadOwed = s.spadOwed := rfl
@[simp] theorem State.modFab_cores (f) : (s.modFab f).cores = s.cores := rfl
@[simp] theorem State.modFab_jobs (f) : (s.modFab f).jobs = s.jobs := rfl
@[simp] theorem State.modFab_progs (f) : (s.modFab f).progs = s.progs := rfl
@[simp] theorem State.modFab_flog (f) : (s.modFab f).flog = s.flog := rfl
@[simp] theorem State.modFab_smem (f) : (s.modFab f).smem = s.smem := rfl
@[simp] theorem State.modFab_qm (f) : (s.modFab f).qm = s.qm := rfl
@[simp] theorem State.modFab_seqs (f) : (s.modFab f).seqs = s.seqs := rfl
@[simp] theorem State.modFab_wintab (f) : (s.modFab f).wintab = s.wintab := rfl
@[simp] theorem State.modFab_fab (f) : (s.modFab f).fab = f s.fab := rfl
@[simp] theorem State.modFab_ports (f) : (s.modFab f).ports = s.ports := rfl
@[simp] theorem State.modFab_carts (f) : (s.modFab f).carts = s.carts := rfl
@[simp] theorem State.modFab_recov (f) : (s.modFab f).recov = s.recov := rfl
@[simp] theorem State.modFab_obs (f) : (s.modFab f).obs = s.obs := rfl
@[simp] theorem State.modFab_power (f) : (s.modFab f).power = s.power := rfl
@[simp] theorem State.modFab_host (f) : (s.modFab f).host = s.host := rfl
@[simp] theorem State.modFab_trust (f) : (s.modFab f).trust = s.trust := rfl
@[simp] theorem State.modFab_start (f) : (s.modFab f).start = s.start := rfl
@[simp] theorem State.modFab_latches (f) : (s.modFab f).latches = s.latches := rfl
@[simp] theorem State.modFab_limitCtx (f) : (s.modFab f).limitCtx = s.limitCtx := rfl
@[simp] theorem State.modFab_rd (f n) : (s.modFab f).rd n = s.rd n := rfl

/-! ### State.modHost -/

@[simp] theorem State.modHost_pending (f) : (s.modHost f).pending = s.pending := rfl
@[simp] theorem State.modHost_freeCtr (f) : (s.modHost f).freeCtr = s.freeCtr := rfl
@[simp] theorem State.modHost_regs (f) : (s.modHost f).regs = s.regs := rfl
@[simp] theorem State.modHost_mem (f) : (s.modHost f).mem = s.mem := rfl
@[simp] theorem State.modHost_spad (f) : (s.modHost f).spad = s.spad := rfl
@[simp] theorem State.modHost_spadEcc (f) : (s.modHost f).spadEcc = s.spadEcc := rfl
@[simp] theorem State.modHost_spadOwed (f) : (s.modHost f).spadOwed = s.spadOwed := rfl
@[simp] theorem State.modHost_cores (f) : (s.modHost f).cores = s.cores := rfl
@[simp] theorem State.modHost_jobs (f) : (s.modHost f).jobs = s.jobs := rfl
@[simp] theorem State.modHost_progs (f) : (s.modHost f).progs = s.progs := rfl
@[simp] theorem State.modHost_flog (f) : (s.modHost f).flog = s.flog := rfl
@[simp] theorem State.modHost_smem (f) : (s.modHost f).smem = s.smem := rfl
@[simp] theorem State.modHost_qm (f) : (s.modHost f).qm = s.qm := rfl
@[simp] theorem State.modHost_seqs (f) : (s.modHost f).seqs = s.seqs := rfl
@[simp] theorem State.modHost_wintab (f) : (s.modHost f).wintab = s.wintab := rfl
@[simp] theorem State.modHost_fab (f) : (s.modHost f).fab = s.fab := rfl
@[simp] theorem State.modHost_ports (f) : (s.modHost f).ports = s.ports := rfl
@[simp] theorem State.modHost_carts (f) : (s.modHost f).carts = s.carts := rfl
@[simp] theorem State.modHost_recov (f) : (s.modHost f).recov = s.recov := rfl
@[simp] theorem State.modHost_obs (f) : (s.modHost f).obs = s.obs := rfl
@[simp] theorem State.modHost_power (f) : (s.modHost f).power = s.power := rfl
@[simp] theorem State.modHost_host (f) : (s.modHost f).host = f s.host := rfl
@[simp] theorem State.modHost_trust (f) : (s.modHost f).trust = s.trust := rfl
@[simp] theorem State.modHost_start (f) : (s.modHost f).start = s.start := rfl
@[simp] theorem State.modHost_latches (f) : (s.modHost f).latches = s.latches := rfl
@[simp] theorem State.modHost_limitCtx (f) : (s.modHost f).limitCtx = s.limitCtx := rfl
@[simp] theorem State.modHost_rd (f n) : (s.modHost f).rd n = s.rd n := rfl

/-! ### State.modTrust -/

@[simp] theorem State.modTrust_pending (f) : (s.modTrust f).pending = s.pending := rfl
@[simp] theorem State.modTrust_freeCtr (f) : (s.modTrust f).freeCtr = s.freeCtr := rfl
@[simp] theorem State.modTrust_regs (f) : (s.modTrust f).regs = s.regs := rfl
@[simp] theorem State.modTrust_mem (f) : (s.modTrust f).mem = s.mem := rfl
@[simp] theorem State.modTrust_spad (f) : (s.modTrust f).spad = s.spad := rfl
@[simp] theorem State.modTrust_spadEcc (f) : (s.modTrust f).spadEcc = s.spadEcc := rfl
@[simp] theorem State.modTrust_spadOwed (f) : (s.modTrust f).spadOwed = s.spadOwed := rfl
@[simp] theorem State.modTrust_cores (f) : (s.modTrust f).cores = s.cores := rfl
@[simp] theorem State.modTrust_jobs (f) : (s.modTrust f).jobs = s.jobs := rfl
@[simp] theorem State.modTrust_progs (f) : (s.modTrust f).progs = s.progs := rfl
@[simp] theorem State.modTrust_flog (f) : (s.modTrust f).flog = s.flog := rfl
@[simp] theorem State.modTrust_smem (f) : (s.modTrust f).smem = s.smem := rfl
@[simp] theorem State.modTrust_qm (f) : (s.modTrust f).qm = s.qm := rfl
@[simp] theorem State.modTrust_seqs (f) : (s.modTrust f).seqs = s.seqs := rfl
@[simp] theorem State.modTrust_wintab (f) : (s.modTrust f).wintab = s.wintab := rfl
@[simp] theorem State.modTrust_fab (f) : (s.modTrust f).fab = s.fab := rfl
@[simp] theorem State.modTrust_ports (f) : (s.modTrust f).ports = s.ports := rfl
@[simp] theorem State.modTrust_carts (f) : (s.modTrust f).carts = s.carts := rfl
@[simp] theorem State.modTrust_recov (f) : (s.modTrust f).recov = s.recov := rfl
@[simp] theorem State.modTrust_obs (f) : (s.modTrust f).obs = s.obs := rfl
@[simp] theorem State.modTrust_power (f) : (s.modTrust f).power = s.power := rfl
@[simp] theorem State.modTrust_host (f) : (s.modTrust f).host = s.host := rfl
@[simp] theorem State.modTrust_trust (f) : (s.modTrust f).trust = f s.trust := rfl
@[simp] theorem State.modTrust_start (f) : (s.modTrust f).start = s.start := rfl
@[simp] theorem State.modTrust_latches (f) : (s.modTrust f).latches = s.latches := rfl
@[simp] theorem State.modTrust_limitCtx (f) : (s.modTrust f).limitCtx = s.limitCtx := rfl
@[simp] theorem State.modTrust_rd (f n) : (s.modTrust f).rd n = s.rd n := rfl

/-! ### State.modPower -/

@[simp] theorem State.modPower_pending (f) : (s.modPower f).pending = s.pending := rfl
@[simp] theorem State.modPower_freeCtr (f) : (s.modPower f).freeCtr = s.freeCtr := rfl
@[simp] theorem State.modPower_regs (f) : (s.modPower f).regs = s.regs := rfl
@[simp] theorem State.modPower_mem (f) : (s.modPower f).mem = s.mem := rfl
@[simp] theorem State.modPower_spad (f) : (s.modPower f).spad = s.spad := rfl
@[simp] theorem State.modPower_spadEcc (f) : (s.modPower f).spadEcc = s.spadEcc := rfl
@[simp] theorem State.modPower_spadOwed (f) : (s.modPower f).spadOwed = s.spadOwed := rfl
@[simp] theorem State.modPower_cores (f) : (s.modPower f).cores = s.cores := rfl
@[simp] theorem State.modPower_jobs (f) : (s.modPower f).jobs = s.jobs := rfl
@[simp] theorem State.modPower_progs (f) : (s.modPower f).progs = s.progs := rfl
@[simp] theorem State.modPower_flog (f) : (s.modPower f).flog = s.flog := rfl
@[simp] theorem State.modPower_smem (f) : (s.modPower f).smem = s.smem := rfl
@[simp] theorem State.modPower_qm (f) : (s.modPower f).qm = s.qm := rfl
@[simp] theorem State.modPower_seqs (f) : (s.modPower f).seqs = s.seqs := rfl
@[simp] theorem State.modPower_wintab (f) : (s.modPower f).wintab = s.wintab := rfl
@[simp] theorem State.modPower_fab (f) : (s.modPower f).fab = s.fab := rfl
@[simp] theorem State.modPower_ports (f) : (s.modPower f).ports = s.ports := rfl
@[simp] theorem State.modPower_carts (f) : (s.modPower f).carts = s.carts := rfl
@[simp] theorem State.modPower_recov (f) : (s.modPower f).recov = s.recov := rfl
@[simp] theorem State.modPower_obs (f) : (s.modPower f).obs = s.obs := rfl
@[simp] theorem State.modPower_power (f) : (s.modPower f).power = f s.power := rfl
@[simp] theorem State.modPower_host (f) : (s.modPower f).host = s.host := rfl
@[simp] theorem State.modPower_trust (f) : (s.modPower f).trust = s.trust := rfl
@[simp] theorem State.modPower_start (f) : (s.modPower f).start = s.start := rfl
@[simp] theorem State.modPower_latches (f) : (s.modPower f).latches = s.latches := rfl
@[simp] theorem State.modPower_limitCtx (f) : (s.modPower f).limitCtx = s.limitCtx := rfl
@[simp] theorem State.modPower_rd (f n) : (s.modPower f).rd n = s.rd n := rfl

/-! ### State.modLedger -/

@[simp] theorem State.modLedger_pending (f) : (s.modLedger f).pending = s.pending := rfl
@[simp] theorem State.modLedger_freeCtr (f) : (s.modLedger f).freeCtr = s.freeCtr := rfl
@[simp] theorem State.modLedger_regs (f) : (s.modLedger f).regs = s.regs := rfl
@[simp] theorem State.modLedger_mem (f) : (s.modLedger f).mem = s.mem := rfl
@[simp] theorem State.modLedger_spad (f) : (s.modLedger f).spad = s.spad := rfl
@[simp] theorem State.modLedger_spadEcc (f) : (s.modLedger f).spadEcc = s.spadEcc := rfl
@[simp] theorem State.modLedger_spadOwed (f) : (s.modLedger f).spadOwed = s.spadOwed := rfl
@[simp] theorem State.modLedger_cores (f) : (s.modLedger f).cores = s.cores := rfl
@[simp] theorem State.modLedger_jobs (f) : (s.modLedger f).jobs = s.jobs := rfl
@[simp] theorem State.modLedger_progs (f) : (s.modLedger f).progs = s.progs := rfl
@[simp] theorem State.modLedger_flog (f) : (s.modLedger f).flog = s.flog := rfl
@[simp] theorem State.modLedger_smem (f) : (s.modLedger f).smem = s.smem := rfl
@[simp] theorem State.modLedger_qm (f) : (s.modLedger f).qm = s.qm := rfl
@[simp] theorem State.modLedger_seqs (f) : (s.modLedger f).seqs = s.seqs := rfl
@[simp] theorem State.modLedger_wintab (f) : (s.modLedger f).wintab = s.wintab := rfl
@[simp] theorem State.modLedger_fab (f) : (s.modLedger f).fab = s.fab := rfl
@[simp] theorem State.modLedger_ports (f) : (s.modLedger f).ports = s.ports := rfl
@[simp] theorem State.modLedger_carts (f) : (s.modLedger f).carts = s.carts := rfl
@[simp] theorem State.modLedger_recov (f) : (s.modLedger f).recov = s.recov := rfl
@[simp] theorem State.modLedger_power (f) : (s.modLedger f).power = s.power := rfl
@[simp] theorem State.modLedger_host (f) : (s.modLedger f).host = s.host := rfl
@[simp] theorem State.modLedger_trust (f) : (s.modLedger f).trust = s.trust := rfl
@[simp] theorem State.modLedger_start (f) : (s.modLedger f).start = s.start := rfl
@[simp] theorem State.modLedger_latches (f) : (s.modLedger f).latches = s.latches := rfl
@[simp] theorem State.modLedger_limitCtx (f) : (s.modLedger f).limitCtx = s.limitCtx := rfl
@[simp] theorem State.modLedger_rd (f n) : (s.modLedger f).rd n = s.rd n := rfl

/-! ### State.modCart -/

@[simp] theorem State.modCart_pending (p f) : (s.modCart p f).pending = s.pending := rfl
@[simp] theorem State.modCart_freeCtr (p f) : (s.modCart p f).freeCtr = s.freeCtr := rfl
@[simp] theorem State.modCart_regs (p f) : (s.modCart p f).regs = s.regs := rfl
@[simp] theorem State.modCart_mem (p f) : (s.modCart p f).mem = s.mem := rfl
@[simp] theorem State.modCart_spad (p f) : (s.modCart p f).spad = s.spad := rfl
@[simp] theorem State.modCart_spadEcc (p f) : (s.modCart p f).spadEcc = s.spadEcc := rfl
@[simp] theorem State.modCart_spadOwed (p f) : (s.modCart p f).spadOwed = s.spadOwed := rfl
@[simp] theorem State.modCart_cores (p f) : (s.modCart p f).cores = s.cores := rfl
@[simp] theorem State.modCart_jobs (p f) : (s.modCart p f).jobs = s.jobs := rfl
@[simp] theorem State.modCart_progs (p f) : (s.modCart p f).progs = s.progs := rfl
@[simp] theorem State.modCart_flog (p f) : (s.modCart p f).flog = s.flog := rfl
@[simp] theorem State.modCart_smem (p f) : (s.modCart p f).smem = s.smem := rfl
@[simp] theorem State.modCart_qm (p f) : (s.modCart p f).qm = s.qm := rfl
@[simp] theorem State.modCart_seqs (p f) : (s.modCart p f).seqs = s.seqs := rfl
@[simp] theorem State.modCart_wintab (p f) : (s.modCart p f).wintab = s.wintab := rfl
@[simp] theorem State.modCart_fab (p f) : (s.modCart p f).fab = s.fab := rfl
@[simp] theorem State.modCart_ports (p f) : (s.modCart p f).ports = s.ports := rfl
@[simp] theorem State.modCart_carts (p f) : (s.modCart p f).carts = s.carts.set {} p (f (s.cart p)) := rfl
@[simp] theorem State.modCart_recov (p f) : (s.modCart p f).recov = s.recov := rfl
@[simp] theorem State.modCart_obs (p f) : (s.modCart p f).obs = s.obs := rfl
@[simp] theorem State.modCart_power (p f) : (s.modCart p f).power = s.power := rfl
@[simp] theorem State.modCart_host (p f) : (s.modCart p f).host = s.host := rfl
@[simp] theorem State.modCart_trust (p f) : (s.modCart p f).trust = s.trust := rfl
@[simp] theorem State.modCart_start (p f) : (s.modCart p f).start = s.start := rfl
@[simp] theorem State.modCart_latches (p f) : (s.modCart p f).latches = s.latches := rfl
@[simp] theorem State.modCart_limitCtx (p f) : (s.modCart p f).limitCtx = s.limitCtx := rfl
@[simp] theorem State.modCart_rd (p f n) : (s.modCart p f).rd n = s.rd n := rfl

/-! ### State.modLatch -/

@[simp] theorem State.modLatch_pending (a f) : (s.modLatch a f).pending = s.pending := rfl
@[simp] theorem State.modLatch_freeCtr (a f) : (s.modLatch a f).freeCtr = s.freeCtr := rfl
@[simp] theorem State.modLatch_regs (a f) : (s.modLatch a f).regs = s.regs := rfl
@[simp] theorem State.modLatch_mem (a f) : (s.modLatch a f).mem = s.mem := rfl
@[simp] theorem State.modLatch_spad (a f) : (s.modLatch a f).spad = s.spad := rfl
@[simp] theorem State.modLatch_spadEcc (a f) : (s.modLatch a f).spadEcc = s.spadEcc := rfl
@[simp] theorem State.modLatch_spadOwed (a f) : (s.modLatch a f).spadOwed = s.spadOwed := rfl
@[simp] theorem State.modLatch_cores (a f) : (s.modLatch a f).cores = s.cores := rfl
@[simp] theorem State.modLatch_jobs (a f) : (s.modLatch a f).jobs = s.jobs := rfl
@[simp] theorem State.modLatch_progs (a f) : (s.modLatch a f).progs = s.progs := rfl
@[simp] theorem State.modLatch_flog (a f) : (s.modLatch a f).flog = s.flog := rfl
@[simp] theorem State.modLatch_smem (a f) : (s.modLatch a f).smem = s.smem := rfl
@[simp] theorem State.modLatch_qm (a f) : (s.modLatch a f).qm = s.qm := rfl
@[simp] theorem State.modLatch_seqs (a f) : (s.modLatch a f).seqs = s.seqs := rfl
@[simp] theorem State.modLatch_wintab (a f) : (s.modLatch a f).wintab = s.wintab := rfl
@[simp] theorem State.modLatch_fab (a f) : (s.modLatch a f).fab = s.fab := rfl
@[simp] theorem State.modLatch_ports (a f) : (s.modLatch a f).ports = s.ports := rfl
@[simp] theorem State.modLatch_carts (a f) : (s.modLatch a f).carts = s.carts := rfl
@[simp] theorem State.modLatch_recov (a f) : (s.modLatch a f).recov = s.recov := rfl
@[simp] theorem State.modLatch_obs (a f) : (s.modLatch a f).obs = s.obs := rfl
@[simp] theorem State.modLatch_power (a f) : (s.modLatch a f).power = s.power := rfl
@[simp] theorem State.modLatch_host (a f) : (s.modLatch a f).host = s.host := rfl
@[simp] theorem State.modLatch_trust (a f) : (s.modLatch a f).trust = s.trust := rfl
@[simp] theorem State.modLatch_start (a f) : (s.modLatch a f).start = s.start := rfl
@[simp] theorem State.modLatch_latches (a f) : (s.modLatch a f).latches = s.latches.set {} a (f (s.latches.get {} a)) := rfl
@[simp] theorem State.modLatch_limitCtx (a f) : (s.modLatch a f).limitCtx = s.limitCtx := rfl
@[simp] theorem State.modLatch_rd (a f n) : (s.modLatch a f).rd n = s.rd n := rfl

/-! ### State.setSeq -/

@[simp] theorem State.setSeq_pending (q x) : (s.setSeq q x).pending = s.pending := rfl
@[simp] theorem State.setSeq_freeCtr (q x) : (s.setSeq q x).freeCtr = s.freeCtr := rfl
@[simp] theorem State.setSeq_regs (q x) : (s.setSeq q x).regs = s.regs := rfl
@[simp] theorem State.setSeq_mem (q x) : (s.setSeq q x).mem = s.mem := rfl
@[simp] theorem State.setSeq_spad (q x) : (s.setSeq q x).spad = s.spad := rfl
@[simp] theorem State.setSeq_spadEcc (q x) : (s.setSeq q x).spadEcc = s.spadEcc := rfl
@[simp] theorem State.setSeq_spadOwed (q x) : (s.setSeq q x).spadOwed = s.spadOwed := rfl
@[simp] theorem State.setSeq_cores (q x) : (s.setSeq q x).cores = s.cores := rfl
@[simp] theorem State.setSeq_jobs (q x) : (s.setSeq q x).jobs = s.jobs := rfl
@[simp] theorem State.setSeq_progs (q x) : (s.setSeq q x).progs = s.progs := rfl
@[simp] theorem State.setSeq_flog (q x) : (s.setSeq q x).flog = s.flog := rfl
@[simp] theorem State.setSeq_smem (q x) : (s.setSeq q x).smem = s.smem := rfl
@[simp] theorem State.setSeq_qm (q x) : (s.setSeq q x).qm = s.qm := rfl
@[simp] theorem State.setSeq_seqs (q x) : (s.setSeq q x).seqs = s.seqs.set {} q x := rfl
@[simp] theorem State.setSeq_wintab (q x) : (s.setSeq q x).wintab = s.wintab := rfl
@[simp] theorem State.setSeq_fab (q x) : (s.setSeq q x).fab = s.fab := rfl
@[simp] theorem State.setSeq_ports (q x) : (s.setSeq q x).ports = s.ports := rfl
@[simp] theorem State.setSeq_carts (q x) : (s.setSeq q x).carts = s.carts := rfl
@[simp] theorem State.setSeq_recov (q x) : (s.setSeq q x).recov = s.recov := rfl
@[simp] theorem State.setSeq_obs (q x) : (s.setSeq q x).obs = s.obs := rfl
@[simp] theorem State.setSeq_power (q x) : (s.setSeq q x).power = s.power := rfl
@[simp] theorem State.setSeq_host (q x) : (s.setSeq q x).host = s.host := rfl
@[simp] theorem State.setSeq_trust (q x) : (s.setSeq q x).trust = s.trust := rfl
@[simp] theorem State.setSeq_start (q x) : (s.setSeq q x).start = s.start := rfl
@[simp] theorem State.setSeq_latches (q x) : (s.setSeq q x).latches = s.latches := rfl
@[simp] theorem State.setSeq_limitCtx (q x) : (s.setSeq q x).limitCtx = s.limitCtx := rfl
@[simp] theorem State.setSeq_rd (q x n) : (s.setSeq q x).rd n = s.rd n := rfl

/-! ### State.modSeq -/

@[simp] theorem State.modSeq_pending (q f) : (s.modSeq q f).pending = s.pending := rfl
@[simp] theorem State.modSeq_freeCtr (q f) : (s.modSeq q f).freeCtr = s.freeCtr := rfl
@[simp] theorem State.modSeq_regs (q f) : (s.modSeq q f).regs = s.regs := rfl
@[simp] theorem State.modSeq_mem (q f) : (s.modSeq q f).mem = s.mem := rfl
@[simp] theorem State.modSeq_spad (q f) : (s.modSeq q f).spad = s.spad := rfl
@[simp] theorem State.modSeq_spadEcc (q f) : (s.modSeq q f).spadEcc = s.spadEcc := rfl
@[simp] theorem State.modSeq_spadOwed (q f) : (s.modSeq q f).spadOwed = s.spadOwed := rfl
@[simp] theorem State.modSeq_cores (q f) : (s.modSeq q f).cores = s.cores := rfl
@[simp] theorem State.modSeq_jobs (q f) : (s.modSeq q f).jobs = s.jobs := rfl
@[simp] theorem State.modSeq_progs (q f) : (s.modSeq q f).progs = s.progs := rfl
@[simp] theorem State.modSeq_flog (q f) : (s.modSeq q f).flog = s.flog := rfl
@[simp] theorem State.modSeq_smem (q f) : (s.modSeq q f).smem = s.smem := rfl
@[simp] theorem State.modSeq_qm (q f) : (s.modSeq q f).qm = s.qm := rfl
@[simp] theorem State.modSeq_seqs (q f) : (s.modSeq q f).seqs = s.seqs.set {} q (f (s.seq q)) := rfl
@[simp] theorem State.modSeq_wintab (q f) : (s.modSeq q f).wintab = s.wintab := rfl
@[simp] theorem State.modSeq_fab (q f) : (s.modSeq q f).fab = s.fab := rfl
@[simp] theorem State.modSeq_ports (q f) : (s.modSeq q f).ports = s.ports := rfl
@[simp] theorem State.modSeq_carts (q f) : (s.modSeq q f).carts = s.carts := rfl
@[simp] theorem State.modSeq_recov (q f) : (s.modSeq q f).recov = s.recov := rfl
@[simp] theorem State.modSeq_obs (q f) : (s.modSeq q f).obs = s.obs := rfl
@[simp] theorem State.modSeq_power (q f) : (s.modSeq q f).power = s.power := rfl
@[simp] theorem State.modSeq_host (q f) : (s.modSeq q f).host = s.host := rfl
@[simp] theorem State.modSeq_trust (q f) : (s.modSeq q f).trust = s.trust := rfl
@[simp] theorem State.modSeq_start (q f) : (s.modSeq q f).start = s.start := rfl
@[simp] theorem State.modSeq_latches (q f) : (s.modSeq q f).latches = s.latches := rfl
@[simp] theorem State.modSeq_limitCtx (q f) : (s.modSeq q f).limitCtx = s.limitCtx := rfl
@[simp] theorem State.modSeq_rd (q f n) : (s.modSeq q f).rd n = s.rd n := rfl

/-! ### State.setSlot -/

@[simp] theorem State.setSlot_pending (q k x) : (s.setSlot q k x).pending = s.pending := rfl
@[simp] theorem State.setSlot_freeCtr (q k x) : (s.setSlot q k x).freeCtr = s.freeCtr := rfl
@[simp] theorem State.setSlot_regs (q k x) : (s.setSlot q k x).regs = s.regs := rfl
@[simp] theorem State.setSlot_mem (q k x) : (s.setSlot q k x).mem = s.mem := rfl
@[simp] theorem State.setSlot_spad (q k x) : (s.setSlot q k x).spad = s.spad := rfl
@[simp] theorem State.setSlot_spadEcc (q k x) : (s.setSlot q k x).spadEcc = s.spadEcc := rfl
@[simp] theorem State.setSlot_spadOwed (q k x) : (s.setSlot q k x).spadOwed = s.spadOwed := rfl
@[simp] theorem State.setSlot_cores (q k x) : (s.setSlot q k x).cores = s.cores := rfl
@[simp] theorem State.setSlot_jobs (q k x) : (s.setSlot q k x).jobs = s.jobs := rfl
@[simp] theorem State.setSlot_progs (q k x) : (s.setSlot q k x).progs = s.progs := rfl
@[simp] theorem State.setSlot_flog (q k x) : (s.setSlot q k x).flog = s.flog := rfl
@[simp] theorem State.setSlot_smem (q k x) : (s.setSlot q k x).smem = s.smem := rfl
@[simp] theorem State.setSlot_qm (q k x) : (s.setSlot q k x).qm = s.qm := rfl
@[simp] theorem State.setSlot_wintab (q k x) : (s.setSlot q k x).wintab = s.wintab := rfl
@[simp] theorem State.setSlot_fab (q k x) : (s.setSlot q k x).fab = s.fab := rfl
@[simp] theorem State.setSlot_ports (q k x) : (s.setSlot q k x).ports = s.ports := rfl
@[simp] theorem State.setSlot_carts (q k x) : (s.setSlot q k x).carts = s.carts := rfl
@[simp] theorem State.setSlot_recov (q k x) : (s.setSlot q k x).recov = s.recov := rfl
@[simp] theorem State.setSlot_obs (q k x) : (s.setSlot q k x).obs = s.obs := rfl
@[simp] theorem State.setSlot_power (q k x) : (s.setSlot q k x).power = s.power := rfl
@[simp] theorem State.setSlot_host (q k x) : (s.setSlot q k x).host = s.host := rfl
@[simp] theorem State.setSlot_trust (q k x) : (s.setSlot q k x).trust = s.trust := rfl
@[simp] theorem State.setSlot_start (q k x) : (s.setSlot q k x).start = s.start := rfl
@[simp] theorem State.setSlot_latches (q k x) : (s.setSlot q k x).latches = s.latches := rfl
@[simp] theorem State.setSlot_limitCtx (q k x) : (s.setSlot q k x).limitCtx = s.limitCtx := rfl
@[simp] theorem State.setSlot_rd (q k x n) : (s.setSlot q k x).rd n = s.rd n := rfl

end Sys2Proof.Machine
end

