-- ==== Sys2Proof/Tests/Slice0.lean ====
section
/-! SUPPORT. Tests: what is not well-formed is refused, worked examples of the manual, and a state that meets the
hypotheses of each statement. -/

section

set_option Elab.async false

open Sys2Proof Sys2Proof.Machine

/-- Registers set one after the other. -/
def regsOf (l : List (Nat × Word)) : Tab Word := l.foldl (fun t p => t.set (regReset p.1) p.1 p.2) []

/-- A state in which core 0 runs a job of unit 0, and is `x`. -/
def runs (x : Core) : State := { regs := regsOf [(R.udState 0, 1)], cores := [(0, x)] }
/-- The same, its program being `code`. -/
def runs1 (x : Core) (code : List Bundle) : State := { runs x with progs := [(0, { code })] }
/-- Unit 0 parked, under debug access. -/
def parked : State := { regs := regsOf [(R.udState 0, 2), (R.trustLifecycle, 4)] }
/-- A source asks unit 0 to park. -/
def asked : State := { runs {} with jobs := [(0, { parkReqs := [1] })] }
def qop (op : SlotOp) : QOp := { op, iseq := 1, pc := 0, regs := [], descs := [] }
def mxOf (kind : MxKind) : MxOp :=
  { kind, amask := 0, fa := 0, fb := 0, fout := 0, exact := false, ew := 0, sparse := false, init := .zero, hold := false,
    wHold := false, kp := 1, np := 1, nt := 1, tok := 0, n := 64, rnd := .rne, ovf := .sat, srBase := 0, srTstep := 0,
    srStride := 0, call := none, da := none, da2 := none, db := none, dmeta := none, dsa := none, dsb := none, dc := none,
    dsc := none, dl := none, sync := {} }
def mxHead (kind : MxKind) : QOp := qop (.mx (mxOf kind))
def veOf (vred : Bool) : VeOp :=
  { vred, b16 := false, fx := none, fy := none, fw := none, fg := none, fh := none, fout := 0, steps := [], k := [], sa := none,
    sb := none, outt := none, red := .none, rsrc := none, rl := 0, rtgt := .none, rnd := .rne, ovf := .sat, srBase := 0,
    srStride := 0, call := none, srCols := 1, dx := none, dy := none, dw := none, dg := none, dh := none, dz := none,
    dzs := none, dr := none, sync := {} }
def veHead (vred : Bool) : QOp := qop (.ve (veOf vred))
/-- Window 0 of unit 0: 8,192 bytes at 4,096. -/
def winState (x : Core) : State :=
  { runs x with regs := regsOf [(R.udState 0, 1), (R.udWinBase 0 0, 4097), (R.udWinSize 0 0, 8192)] }
/-- Send buffer 0 bound to unit 0, for a transfer of 64 bytes. -/
def linkState : State :=
  { runs { st := { queue := [qop (.st (.stLink 0 0 0 {}))] } } with
    regs := regsOf [(R.udState 0, 1), (R.stgXslot 0 0, 7)],
    seqs := [(0, { slots := [(0, { buffer := some 0, accepting := true, card := Card.put 0 28 4 64 })] })] }

/-- Queue 1100, a HOST_IN queue of 16 cards of context 0, with `n` cards. -/
def q1100 (n : Nat) : State :=
  { regs := regsOf [(R.qselQcfg 1100, 1 + 4 * 2), (R.qselQring 1100, 0x40000), (R.qselQptr 1100, BitVec.ofNat 64 n)] }
/-- A SERVE_REQ of one row. -/
def servReq : Card := Card.put (Card.put 0 0 1 0x20) 18 1 1
/-- Assembler 0 from queue 1100 (`n` cards, the first `servReq`) to queue 1101, its memory granule 0. -/
def asmState (en : Word) (a : Assembler) (n : Nat) : State :=
  { regs := regsOf [(R.qselQcfg 1100, 1 + 16), (R.qselQring 1100, 0x40000), (R.qselQptr 1100, BitVec.ofNat 64 n),
             (R.qselQcfg 1101, 1 + 14), (R.qselQring 1101, 0x40010), (R.smemcGranule 0, 0xA00),
             (R.qmAsmCfg 0, en + 8 * 1100 + 32768 * 1101)]
    qm := { asms := [(0, a)], store := [(0, servReq)] } }
/-- Sequencer 0 runs, at the word `w`, being otherwise `z`. -/
def seqAt (w : BitVec 32) (z : Seqr := {}) (rs : List (Nat × Word) := []) : State :=
  { regs := regsOf ([(R.stgSeqCtrl 0, 1), (R.stgSeqStatus 0, 2)] ++ rs), seqs := [(0, { z with code := [w] })] }
/-- A card waits at port 0, received for sequencer 0. -/
def rxState : State :=
  { seqAt (BitVec.ofNat 32 (0x1E * 2 ^ 26)) { level := 1 } [(R.qmPortRx 0, 1)] with qm := { rx := [(0, { fifo := [0] })] } }
/-- A job-starting entry at the head of the table that sequencer 0 has bound. -/
def tnextState : State :=
  { seqAt (BitVec.ofNat 32 (0x22 * 2 ^ 26)) { table := some { addr := 0, entries := 1, ctx := 0, accBase := 0 } }
      [(R.qmVsmap 0 0, 0x20000000000000), (R.smemcGranule 0, 0x200)] with mem := [(0, 1)] }
/-- A program of context 0 under handle 0. -/
def pwinState : State := { seqAt (BitVec.ofNat 32 (0x24 * 2 ^ 26)) with progs := [(0, { code := [{}] })] }
/-- A SEND of one slot, 64 bytes from 0. -/
def sendCard : Card := setBits (setBits (Card.put (Card.put 0 0 1 0x15) 28 4 64) 158 152 1) 164 160 12
/-- The host link is up in phase 7, the host has its privilege, granule 0 is valid. -/
def hostRuns : State :=
  { regs := regsOf [(R.hostStatus, 2), (R.mgtStartStatus, 7), (R.trustAccess, 1), (R.smemcGranule 0, 0x200)] }
/-- The firmware runs. -/
def fwRuns : State := { trust := { running := some 0 } }
/-- A packet from port 3 has reached the chip. -/
def inState (p : Pkt) : State := { fab := { chipIn := [(3, p)] } }
/-- A read of register page 400 by the management slice has reached the chip, and tag 0 is out. -/
def rreqState : State :=
  { inState { ptype := ptRreq, cls := 1, body := 0x3800190000 } with regs := regsOf [(R.trustAccess, 2)] }
/-- A completion of tag 0 has reached the chip. -/
def tagState (t : Nat) : State := { fab := { chipIn := [(3, { ptype := t, cls := 1 })], tags := [(0, {})] } }
/-- The neighbour of port 3 repeats its ROLLCALL. -/
def nbrState : State :=
  { fab := { chipIn := [(3, { ptype := ptRollcall, cls := 1, data := [1] })], nbr := [(3, { valid := true, bytes := 1 })] } }
/-- The parent's answer to the request of time 5 has come. -/
def tsyncWaits : State :=
  { fab := { chipIn := [(3, { ptype := ptTsyncRsp, cls := 1, data := [5] })], sync := { outstanding := some 5 } } }
/-- The collective engine of half 0 has asked chip 0 for a slot of pool 0. -/
def collAsks : State :=
  { fab := { chipIn := [(3, { ptype := ptCreditReply, cls := 1 })]
             coll0 := some { card := 0, ctx := 0, members := [0, 0], rank := 0, asked := [{ step := 0, chunk := 0, bytes := [] }] } } }
/-- Port 0 in CONFIG, ACTIVE, RETRAIN, WIDTH_CHANGE, and ACTIVE with a flit to acknowledge. -/
def cfgState : State := { regs := regsOf [(R.lnkStatus 0, 0xF4)] }
def actState : State := { regs := regsOf [(R.lnkStatus 0, 0xF5)] }
def retState : State := { regs := regsOf [(R.lnkStatus 0, 0xF6)] }
def widState : State := { regs := regsOf [(R.lnkStatus 0, 0xF7)], ports := [(0, { wantMask := some 15 })] }
def rtyState : State := { regs := regsOf [(R.lnkStatus 0, 0xF5)], ports := [(0, { retry := [(7, 9)] })] }
/-- A cartridge answers its poll. -/
def goodRead : CartRead :=
  { busOk := true, rev := 52, hostIf := true, reach := 2, serial := 1, vendor := 1, page := [], failed := false }

/-- Queues 1100, with the card `c` of context 0, 1101 and 1102, of class 7; granule 0 is context 0's. -/
def engState (c : Card) (rs : List (Nat × Word)) (mem : Memory) : State :=
  { regs := regsOf ([(R.smemcGranule 0, 0x200), (R.qselQcfg 1100, 15), (R.qselQring 1100, 0x40000), (R.qselQptr 1100, 1),
      (R.qselQcfg 1101, 15), (R.qselQring 1101, 0x40010), (R.qselQcfg 1102, 15), (R.qselQring 1102, 0x40020)] ++ rs)
    qm := { store := [(0, c)] }, mem }
/-- A COLL_REQ of a reduce-scatter over chips 0 and 5: two elements, slots of 16 KiB. -/
def collCard : Card :=
  Card.put (Card.put (Card.put (Card.put (Card.put (Card.put (Card.put 0 0 1 0xF8) 22 2 1101) 32 8 64) 40 8 128) 48 4 2) 52 2 1102) 54 1 14
def collReqState : State := engState collCard [(R.colReqQ 0, 1100), (R.poolPoolCfg 0, 29)] [(0, 2), (8, 5)]
/-- A notice of that reduce-scatter's first chunk, and its grant, for queue 1100 as RXQ. -/
def collNote : Card := Card.put (Card.put 0 0 1 0xFA) 40 4 2
def collRun : CollRun :=
  { card := Card.put collCard 22 2 1100, ctx := 0, members := [0, 5], rank := 0 }
def collRuns : State :=
  let s := engState collNote [(R.poolPoolCfg 0, 29)] []
  { s with fab := { coll0 := some collRun }, smem := { pools := [(0, { grants := [{ first := 0, count := 1, chip := 5 }] })] } }
/-- A CKPT_REQ of a region of one byte, with one peer. -/
def ckptCard : Card := Card.put (Card.put (Card.put 0 0 1 0xFC) 16 2 1101) 18 2 1102
def ckptReqState : State := engState ckptCard [(R.halfCkptReqQ 0, 1100)] [(16, 1), (25, 1), (256, 1)]
/-- A region read on chips 0 and 5, its notices to queue 1100; the notice of chip 5 waits. -/
def ckptRun : CkptRun :=
  { card := Card.put ckptCard 18 2 1100, ctx := 0, desc := List.replicate 16 0 ++ [1], peers := [0, 5], pos := 0 }
def ckptRuns : State :=
  let s := engState (Card.put (Card.put 0 0 1 0xFB) 12 4 5) [] []
  { s with recov := { ckpt0 := some ckptRun } }
/-- Ring 0, D2H, reads queue 1100, which holds one card. -/
def d2hState : State :=
  { regs := regsOf [(R.hostRingCfg 0, 69939), (R.hostStatus, 2), (R.qselQcfg 1100, 3), (R.qselQring 1100, 0x40000), (R.qselQptr 1100, 1)]
    qm := { store := [(0, servReq)] } }

/-! ### What is not well-formed is refused -/

theorem test_illformed_powerSample : (Instr.powerSample []).wf = false := by decide
theorem test_illformed_temperatureRead : (Instr.temperatureRead [400]).wf = false := by decide
theorem test_illformed_resetRelease : (Instr.resetRelease 0 0 [400]).wf = false := by decide
theorem test_illformed_supplySample : (Instr.supplySample [0, 0]).wf = false := by decide
theorem test_illformed_ringOscillatorMeasure : (Instr.ringOscillatorMeasure [1]).wf = false := by decide
theorem test_illformed_energyApportion : (Instr.energyApportion [[]]).wf = false := by decide
theorem test_illformed_arraySelfTest : (Instr.arraySelfTest 0 0 [64]).wf = false := by decide
theorem test_illformed_bar2Write_empty : (Instr.bar2Write 0 [] false).wf = false := by decide
theorem test_illformed_bar2Write_end : (Instr.bar2Write 0x3FFFFFFFF [0, 0] false).wf = false := by decide +kernel
theorem test_illformed_bar2Read : (Instr.bar2Read 0x3FFFFFFFF 1 []).wf = false := by decide +kernel
theorem test_illformed_hostCompletion : (Instr.hostCompletion 0 0 false (List.replicate 4097 0)).wf = false := by decide +kernel
theorem test_illformed_debugToken : (Instr.debugToken 0 (List.replicate 5465 0)).wf = false := by decide +kernel
theorem test_wellformed_bar2Write : (Instr.bar2Write 0x3FFFFFFFF [7] false).wf = true := by decide +kernel

/-! ### Stage Code words of the worked example after R303 -/

theorem test_word_tnext : swOp 0x8A000000 = 0x22 ∧ swA 0x8A000000 = 8 := by decide
theorem test_word_br_eq : swOp 0x1600005C = 0x05 ∧ swA 0x1600005C = 8 ∧ swB 0x1600005C = 0 ∧ bits 0x1600005C#32 13 0 = 92 := by decide
theorem test_word_waite : swOp 0x45800001 = 0x11 ∧ swA 0x45800001 = 6 ∧ bits 0x45800001#32 10 0 = 1 := by decide
theorem test_word_deq : swOp 0x61A81000 = 0x18 ∧ swA 0x61A81000 = 6 ∧ swB 0x61A81000 = 10 ∧ swN 0x61A81000 = 1 := by decide
theorem test_word_disp : swOp 0x81800000 = 0x20 ∧ swA 0x81800000 = 6 ∧ swN 0x81800000 = 0 := by decide
theorem test_word_cput : swOp 0x6C1C328C = 0x1B ∧ swB 0x6C1C328C = 7 ∧ swN 0x6C1C328C = 3 ∧ bits 0x6C1C328C#32 9 4 = 40 ∧
    2 ^ bits 0x6C1C328C#32 3 2 = 8 := by decide
theorem test_word_cput4 : swOp 0x6C242188 = 0x1B ∧ swB 0x6C242188 = 9 ∧ swN 0x6C242188 = 2 ∧ bits 0x6C242188#32 9 4 = 24 ∧
    2 ^ bits 0x6C242188#32 3 2 = 4 := by decide
theorem test_word_ldd : swOp 0x26400100 = 0x09 ∧ swA 0x26400100 = 9 ∧ swB 0x26400100 = 0 ∧ swImm18 0x26400100 = 0x100 := by decide

/-! ### Known answers -/

/-- The check value of CRC-32 (R314): of the ASCII digits 1 to 9. -/
theorem test_crc32 : crc32 [49, 50, 51, 52, 53, 54, 55, 56, 57] = 0xCBF43926 := by decide +kernel
/-- SHA-256 of "abc" (FIPS 180-4). -/
theorem test_sha256 : leNat (sha256 [97, 98, 99]).reverse =
    0xba7816bf8f01cfea414140de5dae2223b00361a396177a9cb410ff61f20015ad := by decide +kernel
/-- The worked address of R208. -/
theorem test_stage_address : smTier 0x2456789AB = 4 ∧ smBank 0x2456789AB = 143 ∧ smGranule 0x2456789AB = 290 := by decide

/-! ### The hypotheses of the statements can be met -/

theorem test_witness_IssueAndDebugCommandsComplete_1 : ∃ (s s₁ s₂ : State) (core : Fin 128) (dt u t : Nat) (us : List Upset) (b : Bundle) (x : Core),
    s₁ = s.upset core us ∧
    s₁.unitOf core = some u ∧
    s₁.bundleNext core = some b ∧
    t = s₁.attemptAt u core dt ∧
    s₁.coreRuns core = true ∧
    s₁.beforeWatchdogs u t = true ∧
    s₂ = s₁.elapse u t ∧
    x = (s₂.core core).meets (t - (s₂.core core).cycles) ∧
    s₂.syMet core b.sy = true ∧
    x.fullMask b = 0 ∧
    narrowFaults b x = none :=
  ⟨runs1 { phase := .issuing } [{ }], _, _, 0, 1, 0, _, [], {}, _, rfl, by decide +kernel, by decide +kernel, rfl, by decide +kernel, by decide +kernel, rfl, rfl, by decide +kernel, by decide +kernel, by decide +kernel⟩

theorem test_witness_IssueAndDebugCommandsComplete_2 : ∃ (s s₁ s₂ : State) (core : Fin 128) (dt u t : Nat) (us : List Upset) (b : Bundle) (x : Core),
    s₁ = s.upset core us ∧
    s₁.unitOf core = some u ∧
    s₁.bundleNext core = some b ∧
    t = s₁.attemptAt u core dt ∧
    s₁.coreRuns core = true ∧
    s₁.beforeWatchdogs u t = true ∧
    s₂ = s₁.elapse u t ∧
    x = (s₂.core core).meets (t - (s₂.core core).cycles) ∧
    (s₂.syMet core b.sy = false ∨ x.fullMask b ≠ 0) :=
  ⟨runs1 { phase := .issuing } [{ sy := some (.wait 3 1) }], _, _, 0, 1, 0, _, [], { sy := some (.wait 3 1) }, _, rfl, by decide +kernel, by decide +kernel, rfl, by decide +kernel, by decide +kernel, rfl, rfl, by decide +kernel⟩

theorem test_witness_IssueAndDebugCommandsComplete_3 : ∃ (s : State) (core : Fin 128) (waiter : Fin 5) (f n : Nat),
    s.coreRuns core = true ∧
    s.podRequest core waiter = some (f, n) ∧
    s.podRequests core f = [(core.val, waiter, n)] ∧
    n ≤ s.flag core f :=
  ⟨runs1 { phase := .syWait } [{ sy := some (.wait 64 0) }], 0, 0, 64, 0, by decide +kernel, by decide +kernel, by decide +kernel, by decide +kernel⟩

theorem test_witness_IssueAndDebugCommandsComplete_4 : ∃ (s : State) (core : Fin 128) (waiter : Fin 5) (f n : Nat),
    s.coreRuns core = true ∧
    s.podRequest core waiter = some (f, n) :=
  ⟨runs1 { phase := .syWait } [{ sy := some (.wait 64 0) }], 0, 0, 64, 0, by decide +kernel, by decide +kernel⟩

theorem test_witness_IssueAndDebugCommandsComplete_5 : ∃ (s : State) (core : Fin 128),
    s.coreRuns core = true ∧
    s.pastLimit core = true ∧
    (s.core core).phase ≠ .ended :=
  ⟨{ runs {} with regs := regsOf [(R.udState 0, 1), (R.coreDbgBundleLimit 0, 1), (R.coreDbgBundleCount 0, 1)] }, 0, by decide +kernel, by decide +kernel, by decide +kernel⟩

theorem test_witness_IssueAndDebugCommandsComplete_6 : ∃ (s : State) (core : Fin 128) (limit : Word) (u x : Nat),
    s.unitOf core = some u ∧
    s.unitState u = 2 ∧
    s.debugCtx core = some x ∧
    s.debugFor x = true :=
  ⟨parked, 0, 7, 0, 0, by decide +kernel, by decide +kernel, by decide +kernel, by decide +kernel⟩

theorem test_witness_IssueAndDebugCommandsComplete_7 : ∃ (s : State) (core : Fin 128) (desc : Fin 32) (x : Nat),
    s.debugCtx core = some x ∧
    s.debugFor x = true :=
  ⟨parked, 0, 3, 0, by decide +kernel, by decide +kernel⟩

theorem test_witness_IssueAndDebugCommandsComplete_8 : ∃ (s : State) (core : Fin 128) (waddr : BitVec 16) (u x a : Nat),
    a = waddr.toNat * 8 ∧
    s.unitOf core = some u ∧
    s.unitState u = 2 ∧
    s.debugCtx core = some x ∧
    s.debugFor x = true ∧
    s.spadHealth core a = 0 :=
  ⟨parked, 0, 5, 0, 0, 40, rfl, by decide +kernel, by decide +kernel, by decide +kernel, by decide +kernel, by decide +kernel⟩

theorem test_witness_EngineOperationsComplete_1 : ∃ (s s₁ s₂ : State) (core : Fin 128) (passes : Nat) (parity : Option (Nat × Nat)) (us : List Upset) (q : QOp) (o : MxOp),
    s₁ = s.upset core us ∧
    s₁.coreRuns core = true ∧
    (s₁.core core).mxRun = none ∧
    s₁.headReady core .mx = some q ∧
    q.op = .mx o ∧
    o.kind = .mmaOs ∧
    s₂ = s₁.flushDrains core (fun _ => true) ∧
    s₂.coreRuns core = true ∧
    (firstFault ((mxRoles o (s₂.drainWidth core o)).map fun (d, r, n) => (d, r, (q.descs.get 0 d).checkNear n)) = none) :=
  ⟨runs { mx := { queue := [mxHead .mmaOs] } }, _, _, 0, 1, none, [], mxHead .mmaOs, mxOf .mmaOs, rfl, by decide +kernel, by decide +kernel, by decide +kernel, by decide +kernel, by decide +kernel, rfl, by decide +kernel, by decide +kernel⟩

theorem test_witness_EngineOperationsComplete_2 : ∃ (s s₁ : State) (core : Fin 128) (passes : Nat) (parity : Option (Nat × Nat)) (us : List Upset) (g : MxProg) (o : MxOp),
    s₁ = s.upset core us ∧
    s₁.coreRuns core = true ∧
    (s₁.core core).mxRun = some g ∧
    g.q.op = .mx o ∧
    o.kind = .mmaOs :=
  ⟨runs { mxRun := some { q := mxHead .mmaOs } }, _, 0, 1, none, [], { q := mxHead .mmaOs }, mxOf .mmaOs, rfl, by decide +kernel, by decide +kernel, by decide +kernel, by decide +kernel⟩

theorem test_witness_EngineOperationsComplete_3 : ∃ (s s₁ s₂ : State) (core : Fin 128) (passes : Nat) (parity : Option (Nat × Nat)) (us : List Upset) (q : QOp) (o : MxOp),
    s₁ = s.upset core us ∧
    s₁.coreRuns core = true ∧
    (s₁.core core).mxRun = none ∧
    s₁.headReady core .mx = some q ∧
    q.op = .mx o ∧
    o.kind = .mmaWs ∧
    s₂ = s₁.flushDrains core (fun _ => true) ∧
    s₂.coreRuns core = true ∧
    (firstFault ((mxRoles o (s₂.drainWidth core o)).map fun (d, r, n) => (d, r, (q.descs.get 0 d).checkNear n)) = none) :=
  ⟨runs { mx := { queue := [mxHead .mmaWs] } }, _, _, 0, 1, none, [], mxHead .mmaWs, mxOf .mmaWs, rfl, by decide +kernel, by decide +kernel, by decide +kernel, by decide +kernel, by decide +kernel, rfl, by decide +kernel, by decide +kernel⟩

theorem test_witness_EngineOperationsComplete_4 : ∃ (s s₁ : State) (core : Fin 128) (passes : Nat) (parity : Option (Nat × Nat)) (us : List Upset) (g : MxProg) (o : MxOp),
    s₁ = s.upset core us ∧
    s₁.coreRuns core = true ∧
    (s₁.core core).mxRun = some g ∧
    g.q.op = .mx o ∧
    o.kind = .mmaWs :=
  ⟨runs { mxRun := some { q := mxHead .mmaWs } }, _, 0, 1, none, [], { q := mxHead .mmaWs }, mxOf .mmaWs, rfl, by decide +kernel, by decide +kernel, by decide +kernel, by decide +kernel⟩

theorem test_witness_EngineOperationsComplete_5 : ∃ (s s₁ s₂ : State) (core : Fin 128) (passes : Nat) (parity : Option (Nat × Nat)) (us : List Upset) (q : QOp) (o : MxOp),
    s₁ = s.upset core us ∧
    s₁.coreRuns core = true ∧
    (s₁.core core).mxRun = none ∧
    s₁.headReady core .mx = some q ∧
    q.op = .mx o ∧
    o.kind = .mmaWt ∧
    s₂ = s₁.flushDrains core (fun _ => true) ∧
    s₂.coreRuns core = true ∧
    (firstFault ((mxRoles o (s₂.drainWidth core o)).map fun (d, r, n) => (d, r, (q.descs.get 0 d).checkNear n)) = none) :=
  ⟨runs { mx := { queue := [mxHead .mmaWt] } }, _, _, 0, 1, none, [], mxHead .mmaWt, mxOf .mmaWt, rfl, by decide +kernel, by decide +kernel, by decide +kernel, by decide +kernel, by decide +kernel, rfl, by decide +kernel, by decide +kernel⟩

theorem test_witness_EngineOperationsComplete_6 : ∃ (s s₁ : State) (core : Fin 128) (passes : Nat) (parity : Option (Nat × Nat)) (us : List Upset) (g : MxProg) (o : MxOp),
    s₁ = s.upset core us ∧
    s₁.coreRuns core = true ∧
    (s₁.core core).mxRun = some g ∧
    g.q.op = .mx o ∧
    o.kind = .mmaWt :=
  ⟨runs { mxRun := some { q := mxHead .mmaWt } }, _, 0, 1, none, [], { q := mxHead .mmaWt }, mxOf .mmaWt, rfl, by decide +kernel, by decide +kernel, by decide +kernel, by decide +kernel⟩

theorem test_witness_EngineOperationsComplete_7 : ∃ (s s₁ s₂ : State) (core : Fin 128) (passes : Nat) (us : List Upset) (q : QOp) (o : MxOp),
    s₁ = s.upset core us ∧
    s₁.coreRuns core = true ∧
    (s₁.core core).mxRun = none ∧
    s₁.headReady core .mx = some q ∧
    q.op = .mx o ∧
    o.kind = .ewmul ∧
    s₂ = s₁.flushDrains core (fun _ => true) ∧
    s₂.coreRuns core = true ∧
    (firstFault ((mxRoles o (s₂.drainWidth core o)).map fun (d, r, n) => (d, r, (q.descs.get 0 d).checkNear n)) = none) :=
  ⟨runs { mx := { queue := [mxHead .ewmul] } }, _, _, 0, 1, [], mxHead .ewmul, mxOf .ewmul, rfl, by decide +kernel, by decide +kernel, by decide +kernel, by decide +kernel, by decide +kernel, rfl, by decide +kernel, by decide +kernel⟩

theorem test_witness_EngineOperationsComplete_8 : ∃ (s s₁ : State) (core : Fin 128) (passes : Nat) (us : List Upset) (g : MxProg) (o : MxOp),
    s₁ = s.upset core us ∧
    s₁.coreRuns core = true ∧
    (s₁.core core).mxRun = some g ∧
    g.q.op = .mx o ∧
    o.kind = .ewmul :=
  ⟨runs { mxRun := some { q := mxHead .ewmul } }, _, 0, 1, [], { q := mxHead .ewmul }, mxOf .ewmul, rfl, by decide +kernel, by decide +kernel, by decide +kernel, by decide +kernel⟩

theorem test_witness_EngineOperationsComplete_9 : ∃ (s s₁ s₂ : State) (core : Fin 128) (parity : Option (Nat × Nat)) (us : List Upset) (q : QOp) (o : MxOp),
    s₁ = s.upset core us ∧
    s₁.coreRuns core = true ∧
    (s₁.core core).mxRun = none ∧
    s₁.headReady core .mx = some q ∧
    q.op = .mx o ∧
    o.kind = .accDrain ∧
    s₂ = s₁.flushDrains core (fun _ => true) ∧
    s₂.coreRuns core = true ∧
    (firstFault ((mxRoles o (s₂.drainWidth core o)).map fun (d, r, n) => (d, r, (q.descs.get 0 d).checkNear n)) = none) :=
  ⟨runs { mx := { queue := [mxHead .accDrain] } }, _, _, 0, none, [], mxHead .accDrain, mxOf .accDrain, rfl, by decide +kernel, by decide +kernel, by decide +kernel, by decide +kernel, by decide +kernel, rfl, by decide +kernel, by decide +kernel⟩

theorem test_witness_EngineOperationsComplete_10 : ∃ (s : State) (core : Fin 128) (j : DrainJob) (rest : List DrainJob),
    s.coreRuns core = true ∧
    (s.core core).drains = j :: rest :=
  ⟨runs { drains := [{ q := mxHead .mmaOs, sets := [], n := 0, signal := false }] }, 0, { q := mxHead .mmaOs, sets := [], n := 0, signal := false }, [], by decide +kernel, by decide +kernel⟩

theorem test_witness_EngineOperationsComplete_11 : ∃ (s s₁ : State) (core : Fin 128) (strips : Nat) (us : List Upset) (q : QOp) (o : VeOp),
    s₁ = s.upset core us ∧
    s₁.coreRuns core = true ∧
    (s₁.core core).veRun = none ∧
    s₁.headReady core .ve = some q ∧
    q.op = .ve o ∧
    o.vred = false ∧
    (firstFault ((veRoles o).map fun (d, r, n) => (d, r, (q.descs.get 0 d).checkNear n)) = none) :=
  ⟨runs { ve := { queue := [veHead false] } }, _, 0, 1, [], veHead false, veOf false, rfl, by decide +kernel, by decide +kernel, by decide +kernel, by decide +kernel, by decide +kernel, by decide +kernel⟩

theorem test_witness_EngineOperationsComplete_12 : ∃ (s s₁ : State) (core : Fin 128) (strips : Nat) (us : List Upset) (g : VeProg) (o : VeOp),
    s₁ = s.upset core us ∧
    s₁.coreRuns core = true ∧
    (s₁.core core).veRun = some g ∧
    g.q.op = .ve o ∧
    o.vred = false :=
  ⟨runs { veRun := some { q := veHead false } }, _, 0, 1, [], { q := veHead false }, veOf false, rfl, by decide +kernel, by decide +kernel, by decide +kernel, by decide +kernel⟩

theorem test_witness_EngineOperationsComplete_13 : ∃ (s s₁ : State) (core : Fin 128) (strips : Nat) (us : List Upset) (q : QOp) (o : VeOp),
    s₁ = s.upset core us ∧
    s₁.coreRuns core = true ∧
    (s₁.core core).veRun = none ∧
    s₁.headReady core .ve = some q ∧
    q.op = .ve o ∧
    o.vred = true ∧
    (firstFault ((veRoles o).map fun (d, r, n) => (d, r, (q.descs.get 0 d).checkNear n)) = none) :=
  ⟨runs { ve := { queue := [veHead true] } }, _, 0, 1, [], veHead true, veOf true, rfl, by decide +kernel, by decide +kernel, by decide +kernel, by decide +kernel, by decide +kernel, by decide +kernel⟩

theorem test_witness_EngineOperationsComplete_14 : ∃ (s s₁ : State) (core : Fin 128) (strips : Nat) (us : List Upset) (g : VeProg) (o : VeOp),
    s₁ = s.upset core us ∧
    s₁.coreRuns core = true ∧
    (s₁.core core).veRun = some g ∧
    g.q.op = .ve o ∧
    o.vred = true :=
  ⟨runs { veRun := some { q := veHead true } }, _, 0, 1, [], { q := veHead true }, veOf true, rfl, by decide +kernel, by decide +kernel, by decide +kernel, by decide +kernel⟩

theorem test_witness_LoadingAndManagementCommandsComplete_1 : ∃ (s : State) (transport : Fin 2) (offset : BitVec 32) (data : List Byte),
    s.firmware = true ∧
    (transport = 0 ∨ (s.hostUp = true ∧ s.bit R.trustAccess 0 = true)) ∧
    data.length ≤ 1024 ∧
    offset.toNat + data.length ≤ 2 ^ 24 :=
  ⟨{ trust := { running := some 0 } }, 0, 4, [1], by decide +kernel, by decide +kernel, by decide +kernel, by decide +kernel⟩

theorem test_witness_LoadingAndManagementCommandsComplete_2 : ∃ (s : State) (transport : Fin 2) (kind ctx seqr level : Nat) (n : BitVec 32) (bs : List Byte),
    s.firmware = true ∧
    (transport = 0 ∨ (s.hostUp = true ∧ s.bit R.trustAccess 0 = true)) ∧
    (s.host.loads.get none transport).isSome = false ∧
    kind ≤ 1 ∧
    ctx ≤ 511 ∧
    (kind = 1 → seqr ≤ 3 ∧ level ≤ 1) ∧
    bs = s.host.staging.get [] transport :=
  ⟨fwRuns, 0, 0, 3, 0, 0, 0, _, by decide +kernel, by decide +kernel, by decide +kernel, by decide +kernel, by decide +kernel, by decide +kernel, rfl⟩

theorem test_witness_LoadingAndManagementCommandsComplete_3 : ∃ (s : State) (transport : Fin 2) (kind ctx seqr level : Nat) (a : BitVec 64) (n : BitVec 32),
    s.firmware = true ∧
    (transport = 0 ∨ (s.hostUp = true ∧ s.bit R.trustAccess 0 = true)) ∧
    (s.host.loads.get none transport).isSome = false ∧
    kind ≤ 1 ∧
    ctx ≤ 511 ∧
    (kind = 1 → seqr ≤ 3 ∧ level ≤ 1) :=
  ⟨fwRuns, 0, 0, 3, 0, 0, 4096, 512, by decide +kernel, by decide +kernel, by decide +kernel, by decide +kernel, by decide +kernel, by decide +kernel⟩

theorem test_witness_LoadingAndManagementCommandsComplete_4 : ∃ (s : State) (transport : Fin 2) (handle : BitVec 16),
    s.firmware = true ∧
    (transport = 0 ∨ (s.hostUp = true ∧ s.bit R.trustAccess 0 = true)) ∧
    handle.toNat < 1024 ∧
    ((s.progs.any fun p => p.1 = handle.toNat) = true) :=
  ⟨{ fwRuns with progs := [(0, {})] }, 0, 0, by decide +kernel, by decide +kernel, by decide +kernel, by decide +kernel⟩

theorem test_witness_LoadingAndManagementCommandsComplete_5 : ∃ (s : State) (transport : Fin 2) (queue : Fin 4096) (card : BitVec 512) (s₁ : State),
    s.firmware = true ∧
    (transport = 0 ∨ (s.hostUp = true ∧ s.bit R.trustAccess 0 = true)) ∧
    s.offer .mc none queue card = (s₁, .ok) :=
  ⟨{ q1100 0 with trust := { running := some 0 } }, 0, 1100, servReq, (({ q1100 0 with trust := { running := some 0 } } : State).offer .mc none 1100 servReq).1, by decide +kernel, by decide +kernel, by decide +kernel⟩

theorem test_witness_LoadingAndManagementCommandsComplete_6 : ∃ (s : State) (transport : Fin 2) (queue : Fin 4096) (c : Card) (s₁ : State),
    s.firmware = true ∧
    (transport = 0 ∨ (s.hostUp = true ∧ s.bit R.trustAccess 0 = true)) ∧
    (s.dequeue .mc none queue (fun _ => false) = (s₁, .card c)) :=
  ⟨{ q1100 1 with trust := { running := some 0 }, qm := { store := [(0, servReq)] } }, 0, 1100, servReq, (({ q1100 1 with trust := { running := some 0 }, qm := { store := [(0, servReq)] } } : State).dequeue .mc none 1100 (fun _ => false)).1, by decide +kernel, by decide +kernel, by decide +kernel⟩

theorem test_witness_LoadingAndManagementCommandsComplete_7 : ∃ (s : State) (transport : Fin 2) (offset len : BitVec 32) (bs : List Byte) (lost : Option Nat) (s₁ : State),
    s.firmware = true ∧
    (transport = 0 ∨ (s.hostUp = true ∧ s.bit R.trustAccess 0 = true)) ∧
    len.toNat ≤ 1024 ∧
    offset.toNat + len.toNat ≤ s.fld R.obsSbufSize 33 12 * 4096 ∧
    s.memRead (s.fld R.obsSbufBase 33 12 * 4096 + offset.toNat) len.toNat = (s₁, bs, lost) :=
  ⟨{ fwRuns with regs := regsOf [(R.obsSbufSize, 4096)] }, 0, 0, 1, [0], none, (({ fwRuns with regs := regsOf [(R.obsSbufSize, 4096)] } : State).memRead 0 1).1, by decide +kernel, by decide +kernel, by decide +kernel, by decide +kernel, by decide +kernel⟩

theorem test_witness_LoadingAndManagementCommandsComplete_8 : ∃ (s : State) (transport : Fin 2) (code e : BitVec 8),
    s.firmware = true ∧
    (transport = 0 ∨ s.hostUp = true) :=
  ⟨fwRuns, 0, 2, 9, by decide +kernel, by decide +kernel⟩

theorem test_witness_LoadingAndManagementCommandsComplete_9 : ∃ (s : State) (transport : Fin 2) (code : BitVec 8) (eid : Option (BitVec 8)),
    s.firmware = true ∧
    (transport = 0 ∨ s.hostUp = true) ∧
    spdmRequests.contains code.toNat = false :=
  ⟨fwRuns, 0, 0x85, none, by decide +kernel, by decide +kernel, by decide +kernel⟩

theorem test_witness_LoadingAndManagementCommandsComplete_10 : ∃ (s : State) (transport : Fin 2) (code : BitVec 8) (eid : Option (BitVec 8)),
    s.firmware = true ∧
    (transport = 0 ∨ (s.hostUp = true ∧ s.bit R.trustAccess 0 = true)) ∧
    (code = 0 ∨ 8 < code.toNat) :=
  ⟨fwRuns, 0, 9, none, by decide +kernel, by decide +kernel, by decide +kernel⟩

theorem test_witness_LoadingAndManagementCommandsComplete_11 : ∃ (s : State) (transport : Fin 2) (type : Fin 128) (code : BitVec 8) (intact : Bool) (eid : Option (BitVec 8)),
    s.firmware = true ∧
    (transport = 0 ∨ s.hostUp = true) ∧
    (intact = false ∨ [0x00, 0x01, 0x05, 0x06, 0x7F].contains type.val = false) :=
  ⟨fwRuns, 0, 9, 0, true, none, by decide +kernel, by decide +kernel, by decide +kernel⟩

theorem test_witness_LoadingAndManagementCommandsComplete_12 : ∃ (s : State) (addr : Fin 128),
    (s.firmware = true ∨ s.trust.recovery = true) :=
  ⟨{ trust := { running := some 0 } }, 9, by decide +kernel⟩

theorem test_witness_LoadingAndManagementCommandsComplete_13 : ∃ (s : State) (transport : Fin 2) (image : List Byte),
    s.firmware = true ∧
    (transport = 0 ∨ s.hostUp = true) ∧
    s.trust.running = some 0 :=
  ⟨{ trust := { running := some 0 } }, 0, [1], by decide +kernel, by decide +kernel, by decide +kernel⟩

theorem test_witness_LoadingAndManagementCommandsComplete_14 : ∃ (s : State) (transport : Fin 2) (image : List Byte) (s₁ : State),
    s.firmware = true ∧
    (transport = 0 ∨ s.hostUp = true) ∧
    s.trust.running ≠ some 0 ∧
    s₁ = { s with trust := { s.trust with slotA := image } } ∧
    s₁.trust.recovery = false :=
  ⟨{ trust := { running := some 1 } }, 0, [1], _, by decide +kernel, by decide +kernel, by decide +kernel, rfl, by decide +kernel⟩

theorem test_witness_AttestationAndSessionCommandsComplete_1 : ∃ (s : State) (transport : Fin 2),
    s.firmware = true ∧
    (transport = 0 ∨ s.hostUp = true) ∧
    0 ≤ s.trust.spdm.phase :=
  ⟨{ trust := { running := some 0 } }, 0, by decide +kernel, by decide +kernel, by decide +kernel⟩

theorem test_witness_AttestationAndSessionCommandsComplete_2 : ∃ (s : State) (transport : Fin 2),
    s.firmware = true ∧
    (transport = 0 ∨ s.hostUp = true) ∧
    1 ≤ s.trust.spdm.phase :=
  ⟨{ trust := { running := some 0, spdm := { phase := 1 } } }, 0, by decide +kernel, by decide +kernel, by decide +kernel⟩

theorem test_witness_AttestationAndSessionCommandsComplete_3 : ∃ (s : State) (transport : Fin 2),
    s.firmware = true ∧
    (transport = 0 ∨ s.hostUp = true) ∧
    2 ≤ s.trust.spdm.phase :=
  ⟨{ trust := { running := some 0, spdm := { phase := 2 } } }, 0, by decide +kernel, by decide +kernel, by decide +kernel⟩

theorem test_witness_AttestationAndSessionCommandsComplete_4 : ∃ (s : State) (transport : Fin 2),
    s.firmware = true ∧
    (transport = 0 ∨ s.hostUp = true) ∧
    3 ≤ s.trust.spdm.phase :=
  ⟨{ trust := { running := some 0, spdm := { phase := 3 } } }, 0, by decide +kernel, by decide +kernel, by decide +kernel⟩

theorem test_witness_AttestationAndSessionCommandsComplete_5 : ∃ (s : State) (transport : Fin 2) (offset len : BitVec 16),
    s.firmware = true ∧
    (transport = 0 ∨ s.hostUp = true) ∧
    3 ≤ s.trust.spdm.phase :=
  ⟨{ trust := { running := some 0, spdm := { phase := 3 } } }, 0, 0, 9, by decide +kernel, by decide +kernel, by decide +kernel⟩

theorem test_witness_AttestationAndSessionCommandsComplete_6 : ∃ (s : State) (transport : Fin 2) (nonce : BitVec 256),
    s.firmware = true ∧
    (transport = 0 ∨ s.hostUp = true) ∧
    3 ≤ s.trust.spdm.phase :=
  ⟨{ trust := { running := some 0, spdm := { phase := 3 } } }, 0, 0, by decide +kernel, by decide +kernel, by decide +kernel⟩

theorem test_witness_AttestationAndSessionCommandsComplete_7 : ∃ (s : State) (transport : Fin 2) (index : BitVec 8),
    s.firmware = true ∧
    (transport = 0 ∨ s.hostUp = true) ∧
    3 ≤ s.trust.spdm.phase ∧
    1 ≤ index.toNat ∧
    index.toNat ≤ 8 :=
  ⟨{ trust := { running := some 0, spdm := { phase := 3 } } }, 0, 8, by decide +kernel, by decide +kernel, by decide +kernel, by decide +kernel, by decide +kernel⟩

theorem test_witness_AttestationAndSessionCommandsComplete_8 : ∃ (s : State) (transport : Fin 2),
    s.firmware = true ∧
    (transport = 0 ∨ s.hostUp = true) ∧
    3 ≤ s.trust.spdm.phase :=
  ⟨{ trust := { running := some 0, spdm := { phase := 3 } } }, 0, by decide +kernel, by decide +kernel, by decide +kernel⟩

theorem test_witness_AttestationAndSessionCommandsComplete_9 : ∃ (s : State) (transport : Fin 2) (s₁ : State) (r : List Byte),
    s.firmware = true ∧
    (transport = 0 ∨ s.hostUp = true) ∧
    3 ≤ s.trust.spdm.phase ∧
    s.draw 32 = (s₁, r) :=
  ⟨{ trust := { running := some 0, spdm := { phase := 3 } } }, 0, ({ trust := { running := some 0, spdm := { phase := 3 } } } : State).draw 32 |>.1, (({ trust := { running := some 0, spdm := { phase := 3 } } } : State).draw 32).2, by decide +kernel, by decide +kernel, by decide +kernel, rfl⟩

theorem test_witness_AttestationAndSessionCommandsComplete_10 : ∃ (s : State) (transport : Fin 2) (root : Option (List Byte)) (q : Bool),
    s.firmware = true ∧
    (transport = 0 ∨ s.hostUp = true) ∧
    3 ≤ s.trust.spdm.phase ∧
    s.trust.spdm.exchange = true ∧
    (q = match root with | some k => s.oprKey.any (· ≠ 0) && sha384 k == s.oprKey | none => false) :=
  ⟨{ trust := { running := some 0, spdm := { phase := 3, exchange := true } } }, 0, none, _, by decide +kernel, by decide +kernel, by decide +kernel, by decide +kernel, rfl⟩

theorem test_witness_AttestationAndSessionCommandsComplete_11 : ∃ (s : State) (transport : Fin 2),
    s.firmware = true ∧
    (transport = 0 ∨ s.hostUp = true) ∧
    3 ≤ s.trust.spdm.phase ∧
    s.trust.spdm.session = true :=
  ⟨{ trust := { running := some 0, spdm := { phase := 3, session := true, qualified := true } } }, 0, by decide +kernel, by decide +kernel, by decide +kernel, by decide +kernel⟩

theorem test_witness_AttestationAndSessionCommandsComplete_12 : ∃ (s : State) (transport : Fin 2),
    s.firmware = true ∧
    (transport = 0 ∨ s.hostUp = true) ∧
    3 ≤ s.trust.spdm.phase ∧
    s.trust.spdm.session = true :=
  ⟨{ trust := { running := some 0, spdm := { phase := 3, session := true, qualified := true } } }, 0, by decide +kernel, by decide +kernel, by decide +kernel, by decide +kernel⟩

theorem test_witness_AttestationAndSessionCommandsComplete_13 : ∃ (s : State) (transport : Fin 2),
    s.firmware = true ∧
    (transport = 0 ∨ s.hostUp = true) ∧
    3 ≤ s.trust.spdm.phase ∧
    s.trust.spdm.session = true :=
  ⟨{ trust := { running := some 0, spdm := { phase := 3, session := true, qualified := true } } }, 0, by decide +kernel, by decide +kernel, by decide +kernel, by decide +kernel⟩

theorem test_witness_AttestationAndSessionCommandsComplete_14 : ∃ (s : State) (transport : Fin 2) (ctx : Fin 512) (nonce : BitVec 256),
    s.firmware = true ∧
    (transport = 0 ∨ s.hostUp = true) ∧
    3 ≤ s.trust.spdm.phase :=
  ⟨{ trust := { running := some 0, spdm := { phase := 3 } } }, 0, 0, 0, by decide +kernel, by decide +kernel, by decide +kernel⟩

theorem test_witness_AttestationAndSessionCommandsComplete_15 : ∃ (s : State) (transport : Fin 2) (transcript : List Byte),
    s.firmware = true ∧
    (transport = 0 ∨ s.hostUp = true) ∧
    3 ≤ s.trust.spdm.phase :=
  ⟨{ trust := { running := some 0, spdm := { phase := 3 } } }, 0, [], by decide +kernel, by decide +kernel, by decide +kernel⟩

theorem test_witness_KeyDebugAndBootCommandsComplete_1 : ∃ (s : State) (transport : Fin 2),
    s.firmware = true ∧
    (transport = 0 ∨ s.hostUp = true) ∧
    3 ≤ s.trust.spdm.phase ∧
    s.trust.spdm.session = true ∧
    s.trust.spdm.qualified = true :=
  ⟨{ trust := { running := some 0, spdm := { phase := 3, session := true, qualified := true } } }, 0, by decide +kernel, by decide +kernel, by decide +kernel, by decide +kernel, by decide +kernel⟩

theorem test_witness_KeyDebugAndBootCommandsComplete_2 : ∃ (s : State) (transport : Fin 2) (slice : Fin 4096) (slot : BitVec 8) (gen : BitVec 32) (key : BitVec 256) (s₁ s₂ : State) (salt : List Byte),
    s.firmware = true ∧
    (transport = 0 ∨ s.hostUp = true) ∧
    3 ≤ s.trust.spdm.phase ∧
    s.trust.spdm.session = true ∧
    s.trust.spdm.qualified = true ∧
    slot.toNat ≤ 1 ∧
    s.draw 4 = (s₁, salt) ∧
    (s₂ = s₁.modFab fun x => { x with keys := x.keys.set {} (2 * slice + slot.toNat) { key := natLE 32 key.toNat, salt := leNat salt } }) :=
  ⟨{ trust := { running := some 0, spdm := { phase := 3, session := true, qualified := true } } }, 0, 5, 1, 2, 3, ({ trust := { running := some 0, spdm := { phase := 3, session := true, qualified := true } } } : State).draw 4 |>.1, _, (({ trust := { running := some 0, spdm := { phase := 3, session := true, qualified := true } } } : State).draw 4).2, by decide +kernel, by decide +kernel, by decide +kernel, by decide +kernel, by decide +kernel, by decide +kernel, rfl, rfl⟩

theorem test_witness_KeyDebugAndBootCommandsComplete_3 : ∃ (s : State) (transport : Fin 2) (slice : Fin 4096) (slot : BitVec 8) (s₁ : State),
    s.firmware = true ∧
    (transport = 0 ∨ s.hostUp = true) ∧
    3 ≤ s.trust.spdm.phase ∧
    s.trust.spdm.session = true ∧
    s.trust.spdm.qualified = true ∧
    slot.toNat ≤ 1 ∧
    s.fld (R.sliceselSliceState slice) 3 3 ≠ slot.toNat ∧
    (s₁ = s.modFab fun x => { x with keys := x.keys.set {} (2 * slice + slot.toNat) {} }) :=
  ⟨{ trust := { running := some 0, spdm := { phase := 3, session := true, qualified := true } } }, 0, 5, 1, _, by decide +kernel, by decide +kernel, by decide +kernel, by decide +kernel, by decide +kernel, by decide +kernel, by decide +kernel, rfl⟩

theorem test_witness_KeyDebugAndBootCommandsComplete_4 : ∃ (s : State) (transport : Fin 2) (slice : Fin 4096) (enc : Bool),
    s.firmware = true ∧
    (transport = 0 ∨ s.hostUp = true) ∧
    3 ≤ s.trust.spdm.phase ∧
    s.trust.spdm.session = true ∧
    s.trust.spdm.qualified = true ∧
    s.permit slice = (0, false, false) :=
  ⟨{ trust := { running := some 0, spdm := { phase := 3, session := true, qualified := true } } }, 0, 5, true, by decide +kernel, by decide +kernel, by decide +kernel, by decide +kernel, by decide +kernel, by decide +kernel⟩

theorem test_witness_KeyDebugAndBootCommandsComplete_5 : ∃ (s : State) (transport : Fin 2) (slice : Fin 4096) (slot : BitVec 8) (epoch : BitVec 64) (s₁ : State),
    s.firmware = true ∧
    (transport = 0 ∨ s.hostUp = true) ∧
    3 ≤ s.trust.spdm.phase ∧
    s.trust.spdm.session = true ∧
    s.trust.spdm.qualified = true ∧
    slot.toNat ≤ 1 ∧
    s.slotValid slice slot.toNat = true ∧
    s.epoch < epoch.toNat ∧
    (s₁ = s.modFab fun x => { x with armSlots := x.armSlots.set 0 slice slot.toNat }) :=
  ⟨{ trust := { running := some 0, spdm := { phase := 3, session := true, qualified := true } }, regs := regsOf [(R.sliceselSliceState 5, 4)] }, 0, 5, 1, 99, _, by decide +kernel, by decide +kernel, by decide +kernel, by decide +kernel, by decide +kernel, by decide +kernel, by decide +kernel, by decide +kernel, rfl⟩

theorem test_witness_KeyDebugAndBootCommandsComplete_6 : ∃ (s : State) (s₁ : State) (bs : List Byte),
    s.draw 32 = (s₁, bs) :=
  ⟨{}, (({} : State).draw 32).1, (({} : State).draw 32).2, rfl⟩

theorem test_witness_KeyDebugAndBootCommandsComplete_7 : ∃ (s : State) (transport : Fin 2) (token : List Byte),
    s.firmware = true ∧
    (transport = 0 ∨ s.hostUp = true) ∧
    3 ≤ s.trust.spdm.phase ∧
    token.length = 5464 :=
  ⟨{ trust := { running := some 0, spdm := { phase := 3 } } }, 0, List.replicate 5464 0, by decide +kernel, by decide +kernel, by decide +kernel, by decide +kernel⟩

theorem test_witness_KeyDebugAndBootCommandsComplete_8 : ∃ (s : State) (ks : List Nat),
    (ks = (s.regs.filter fun r => 0x1400 ≤ r.1 / 4096 && r.1 / 4096 < 0x1600 && r.1 % 4096 == 0x204).map (·.1)) :=
  ⟨{}, _, rfl⟩

theorem test_witness_KeyDebugAndBootCommandsComplete_9 : ∃ (s : State) (s₁ : State) (a : Nat) (p q : State × Bool),
    s.start.held = false ∧
    s.phase = 0 ∧
    s.firmware = false ∧
    s.trust.recovery = false ∧
    (s₁ = (if s.bit R.pwrDomainState 46 then s else s.domainUp 46)) ∧
    a = s₁.trust.lastGood.getD 0 ∧
    p = s₁.trySlot a ∧
    q = p.1.trySlot (1 - a) :=
  ⟨{ start := { held := false } }, _, _, _, _, by decide +kernel, by decide +kernel, by decide +kernel, by decide +kernel, rfl, rfl, rfl, rfl⟩

theorem test_witness_KeyDebugAndBootCommandsComplete_13 : ∃ (s : State),
    s.start.scanHold = true :=
  ⟨{ start := { scanHold := true } }, by decide +kernel⟩

theorem test_witness_KeyDebugAndBootCommandsComplete_14 : ∃ (s : State),
    s.start.scanHold = false :=
  ⟨{ start := { scanHold := false } }, by decide +kernel⟩

theorem test_witness_HostLinkAndRingCommandsComplete_1 : ∃ (s : State) (cxl : Bool) (width : Fin 17) (speed : Fin 7),
    s.start.held = false ∧
    s.hostUp = false ∧
    s.fld R.pwrDomainState 46 46 = 1 ∧
    linkTrains width speed = true :=
  ⟨{ regs := regsOf [(R.pwrDomainState, 0x400000000000)], start := { held := false } }, true, 16, 5, by decide +kernel, by decide +kernel, by decide +kernel, by decide +kernel⟩

theorem test_witness_HostLinkAndRingCommandsComplete_2 : ∃ (s : State) (ring : Fin 64) (value : BitVec 32) (v : Word) (s₁ s₂ : State),
    s.ringEn ring = false ∧
    v = value.setWidth 64 ∧
    bits v 0 0 = 1 ∧
    s₁ = s.wr (R.hostRingCfg ring) (ringFields (s.rd (R.hostRingCfg ring)) v) ∧
    s₁.ringOk ring = true ∧
    s₂ = (s₁.setBit (R.hostRingCfg ring) 0 true).setRing ring {} :=
  ⟨{ regs := regsOf [(R.qselQcfg 1100, 9), (R.qselQring 1100, 0x40000)] }, 0, 69937, _, _, _, by decide +kernel, rfl, by decide +kernel, rfl, by decide +kernel, rfl⟩

theorem test_witness_HostLinkAndRingCommandsComplete_3 : ∃ (s : State) (ring : Fin 64),
    s.hostCxl = false ∧
    s.ringEn ring = true :=
  ⟨{ regs := regsOf [(R.hostRingCfg 0, 69937)] }, 0, by decide +kernel, by decide +kernel⟩

theorem test_witness_HostLinkAndRingCommandsComplete_4 : ∃ (s : State) (ring : Fin 64) (s₁ s₂ : State),
    s.ringEn ring = true ∧
    s.hostUp = true ∧
    (s.ring ring).busy = false ∧
    s.bit (R.hostRingState ring) 2 = true ∧
    s.bit R.hostStatus 11 = false ∧
    (s₁ = (s.setBit (R.hostRingState ring) 2 false).modRing ring fun x => { x with busy := true }) ∧
    s₁.hostCxl = false ∧
    s₁.hostRead 2 ring (s₁.ringIdx ring) 64 false = some s₂ :=
  ⟨{ regs := regsOf [(R.hostRingCfg 0, 69937), (R.hostStatus, 2), (R.hostRingState 0, 4)] }, 0, _, (((({ regs := regsOf [(R.hostRingCfg 0, 69937), (R.hostStatus, 2), (R.hostRingState 0, 4)] } : State).setBit (R.hostRingState 0) 2 false).modRing 0 fun x => { x with busy := true }).hostRead 2 0 0 64 false).getD {}, by decide +kernel, by decide +kernel, by decide +kernel, by decide +kernel, by decide +kernel, rfl, by decide +kernel, by decide +kernel⟩

theorem test_witness_HostLinkAndRingCommandsComplete_5 : ∃ (s : State) (ring : Fin 64),
    s.ringEn ring = true ∧
    s.hostUp = true ∧
    (s.ring ring).dirty = true :=
  ⟨{ regs := regsOf [(R.hostRingCfg 0, 69937), (R.hostStatus, 2)], host := { rings := [(0, { dirty := true })] } }, 0, by decide +kernel, by decide +kernel, by decide +kernel⟩

theorem test_witness_HostLinkAndRingCommandsComplete_6 : ∃ (s : State) (ring : Fin 64),
    s.ringEn ring = true ∧
    s.ringD2h ring = false ∧
    s.bit (R.hostRingState ring) 0 = true ∧
    s.bit R.hostStatus 11 = false :=
  ⟨{ regs := regsOf [(R.hostRingCfg 0, 69937), (R.hostRingState 0, 1)] }, 0, by decide +kernel, by decide +kernel, by decide +kernel, by decide +kernel⟩

theorem test_witness_HostLinkAndRingCommandsComplete_7 : ∃ (s : State) (ring : Fin 64) (s₁ : State),
    s.ringEn ring = true ∧
    s.hostUp = true ∧
    (s.ring ring).retry = true ∧
    (s₁ = s.modRing ring fun x => { x with retry := false }) ∧
    (s.ring ring).waiting ≠ 0 ∧
    s₁.ringD2h ring = false :=
  ⟨{ regs := regsOf [(R.hostRingCfg 0, 69937), (R.hostStatus, 2)], host := { rings := [(0, { retry := true, host := 1 })] } }, 0, _, by decide +kernel, by decide +kernel, by decide +kernel, rfl, by decide +kernel, by decide +kernel⟩

theorem test_witness_HostLinkAndRingCommandsComplete_8 : ∃ (s : State) (ring : Fin 64) (s₁ : State) (c : Card),
    s.ringEn ring = true ∧
    s.ringD2h ring = true ∧
    s.hostUp = true ∧
    (s.ring ring).busy = false ∧
    s.bit R.hostStatus 11 = false ∧
    ((s.ring ring).own - (s.ring ring).host).toNat < s.ringDepth ring ∧
    s.qEmpty (s.ringQueue ring) = false ∧
    s.dequeue .host (some (s.ringCtx ring)) (s.ringQueue ring) (s.ringOther ring) = (s₁, .card c) :=
  ⟨d2hState, 0, (d2hState.dequeue .host (some (d2hState.ringCtx 0)) (d2hState.ringQueue 0) (d2hState.ringOther 0)).1, servReq, by decide +kernel, by decide +kernel, by decide +kernel, by decide +kernel, by decide +kernel, by decide +kernel, by decide +kernel, by decide +kernel⟩

theorem test_witness_HostLinkAndRingCommandsComplete_9 : ∃ (s : State) (ring : Fin 64),
    s.ringEn ring = true ∧
    (s.ring ring).unsignalled ≠ 0 ∧
    s.fld (R.hostRingIrq ring) 31 20 ≠ 0 ∧
    s.bit (R.hostRingIrq ring) 11 = true :=
  ⟨{ regs := regsOf [(R.hostRingCfg 0, 69937), (R.hostRingIrq 0, 0x100800)], host := { rings := [(0, { unsignalled := 1 })] } }, 0, by decide +kernel, by decide +kernel, by decide +kernel, by decide +kernel⟩

theorem test_witness_HostLinkAndRingCommandsComplete_10 : ∃ (s : State) (tag : Fin 1024) (g : HostTag) (data : List Byte),
    s.hostTag tag = some g ∧
    g.quarantined = false ∧
    data.length = g.len :=
  ⟨{ regs := regsOf [], host := { tags := [(0, { requester := 2, idx := 0, addr := 0, len := 64, card := true })] } }, 0, { requester := 2, idx := 0, addr := 0, len := 64, card := true }, List.replicate 64 0, by decide +kernel, by decide +kernel, by decide +kernel⟩

theorem test_witness_HostLinkAndRingCommandsComplete_11 : ∃ (s : State) (tag : Fin 1024) (status : Fin 3) (ep : Bool) (data : List Byte) (g : HostTag),
    s.hostTag tag = some g ∧
    g.quarantined = false ∧
    (status ≠ 0 ∨ ep = true) :=
  ⟨{ regs := regsOf [], host := { tags := [(0, { requester := 2, idx := 0, addr := 0, len := 64, card := true })] } }, 0, 1, false, [], { requester := 2, idx := 0, addr := 0, len := 64, card := true }, by decide +kernel, by decide +kernel, by decide +kernel⟩

theorem test_witness_HostLinkAndRingCommandsComplete_12 : ∃ (s : State) (tag : Fin 1024) (status : Fin 3) (ep : Bool) (data : List Byte) (g : HostTag),
    s.hostTag tag = some g ∧
    g.quarantined = true :=
  ⟨{ host := { tags := [(0, { requester := 2, idx := 0, addr := 0, len := 64, card := true, quarantined := true })] } }, 0, 0, false, [], { requester := 2, idx := 0, addr := 0, len := 64, card := true, quarantined := true }, by decide +kernel, by decide +kernel⟩

theorem test_witness_HostLinkAndRingCommandsComplete_13 : ∃ (s : State) (tag : Fin 1024) (g : HostTag),
    s.hostTag tag = some g ∧
    g.quarantined = false :=
  ⟨{ host := { tags := [(0, { requester := 2, idx := 0, addr := 0, len := 64, card := true })] } }, 0, { requester := 2, idx := 0, addr := 0, len := 64, card := true }, by decide +kernel, by decide +kernel⟩

theorem test_witness_HostLinkAndRingCommandsComplete_14 : ∃ (s : State) (line : BitVec 64) (low high : BitVec 256) (q : CxlReq) (s₁ : State),
    (s.host.reqs.find? (fun q => q.line == line.toNat) = some q) ∧
    (s₁ = s.modHost fun h => { h with reqs := h.reqs.erase q }) ∧
    s₁.ringEn q.ring = true ∧
    q.kind = 0 :=
  ⟨{ regs := regsOf [(R.hostRingCfg 0, 69937)], host := { reqs := [{ kind := 0, line := 128, ring := 0 }] } }, 128, 1, 0, { kind := 0, line := 128, ring := 0 }, _, by decide +kernel, rfl, by decide +kernel, by decide +kernel⟩

theorem test_witness_HostLinkAndRingCommandsComplete_17 : ∃ (s : State) (line : BitVec 64) (r : Nat),
    s.hostCxl = true ∧
    s.indexRing line.toNat = some r :=
  ⟨{ regs := regsOf [(R.hostRingCfg 0, 69937), (R.hostStatus, 3)] }, 0, 0, by decide +kernel, by decide +kernel⟩

theorem test_witness_HostLinkAndRingCommandsComplete_18 : ∃ (s : State) (line : BitVec 64),
    s.hostCxl = true ∧
    s.indexRing line.toNat = none :=
  ⟨{ regs := regsOf [(R.hostStatus, 3)] }, 0, by decide +kernel, by decide +kernel⟩

theorem test_witness_HostLinkAndRingCommandsComplete_19 : ∃ (s : State) (line : BitVec 64) (e : Evict) (s₁ : State),
    s.evicting line.toNat = some e ∧
    (s₁ = s.modHost fun h => { h with evicts := h.evicts.erase e }) :=
  ⟨{ host := { evicts := [{ line := 64, dirty := true, data := 1 }] } }, 64, { line := 64, dirty := true, data := 1 }, _, by decide +kernel, rfl⟩

theorem test_witness_HostLinkAndRingCommandsComplete_20 : ∃ (s : State) (line : BitVec 64) (e : Evict) (s₁ : State),
    s.evicting line.toNat = some e ∧
    (s₁ = s.modHost fun h => { h with evicts := h.evicts.erase e }) :=
  ⟨{ host := { evicts := [{ line := 64, dirty := true, data := 1 }] } }, 64, { line := 64, dirty := true, data := 1 }, _, by decide +kernel, rfl⟩

theorem test_witness_HostLinkAndRingCommandsComplete_21 : ∃ (s : State) (line : BitVec 64) (e : Evict) (s₁ s₂ : State),
    s.evicting line.toNat = some e ∧
    (s₁ = s.modHost fun h => { h with evicts := h.evicts.erase e }) ∧
    (s₂ = s₁.modHost fun h => { h with out := h.out ++ [(line.toNat, natLE 64 e.data.toNat)] }) :=
  ⟨{ host := { evicts := [{ line := 64, dirty := true, data := 1 }] } }, 64, { line := 64, dirty := true, data := 1 }, _, _, by decide +kernel, rfl, rfl⟩

theorem test_witness_HostLinkAndRingCommandsComplete_22 : ∃ (s : State) (vector : Fin 2048) (entry : BitVec 128),
    s.hostUp = true :=
  ⟨{ regs := regsOf [(R.hostStatus, 2)] }, 0, 0, by decide +kernel⟩

theorem test_witness_HostLinkAndRingCommandsComplete_23 : ∃ (s : State),
    s.hostUp = true :=
  ⟨{ regs := regsOf [(R.hostStatus, 2)] }, by decide +kernel⟩

theorem test_witness_ResetAndStartupCommandsComplete_2 : ∃ (s : State) (source : Fin 3),
    s.starting = false :=
  ⟨hostRuns, 0, by decide +kernel⟩

theorem test_witness_ResetAndStartupCommandsComplete_3 : ∃ (s : State) (source : Fin 3),
    s.starting = true ∧
    2 ≤ s.fld R.mgtResetCause 2 0 :=
  ⟨{ regs := regsOf [(R.mgtResetCause, 2)], start := { held := true } }, 0, by decide +kernel, by decide +kernel⟩

theorem test_witness_ResetAndStartupCommandsComplete_4 : ∃ (s : State) (source : Fin 3),
    s.starting = true ∧
    s.fld R.mgtResetCause 2 0 ≤ 1 :=
  ⟨{ regs := regsOf [(R.mgtResetCause, 1)], start := { held := true } }, 0, by decide +kernel, by decide +kernel⟩

theorem test_witness_ResetAndStartupCommandsComplete_5 : ∃ (s : State) (preset : Fin 8) (addr : Fin 4) (verified : Bool) (s₁ : State),
    (s₁ = if s.fld R.mgtRecState 1 0 = 3 then s else s.ledgerWrite verified) ∧
    s₁.starting = false ∧
    s₁.hotSensor = false :=
  ⟨hostRuns, 1, 2, true, _, rfl, by decide +kernel, by decide +kernel⟩

theorem test_witness_ResetAndStartupCommandsComplete_6 : ∃ (s : State) (preset : Fin 8) (addr : Fin 4) (verified : Bool) (s₁ : State),
    (s₁ = if s.fld R.mgtRecState 1 0 = 3 then s else s.ledgerWrite verified) ∧
    s₁.hotSensor = true :=
  ⟨{ regs := regsOf [(R.pwrTemp 0, 900)] }, 1, 2, true, _, rfl, by decide +kernel⟩

theorem test_witness_ResetAndStartupCommandsComplete_7 : ∃ (s : State) (s₁ : State),
    (s₁ = { s.linkDown with regs := s.linkDown.regs.filter (fun e => !hostResets e.1) }) :=
  ⟨{}, _, rfl⟩

theorem test_witness_ResetAndStartupCommandsComplete_8 : ∃ (s : State) (preset : Fin 8) (addr : Fin 4) (readings : List Nat) (s₁ : State),
    s.start.held = true ∧
    s.phase ≠ 8 ∧
    ((readings.any fun r => decide (880 ≤ r)) = false) ∧
    s₁ = ({ s with start := { s.start with armed := true } } : State).latchStraps preset.val addr.val :=
  ⟨{ start := { held := true } }, 1, 2, [400], _, by decide +kernel, by decide +kernel, by decide +kernel, rfl⟩

theorem test_witness_ResetAndStartupCommandsComplete_9 : ∃ (s : State) (preset : Fin 8) (addr : Fin 4) (readings : List Nat) (s₁ : State),
    s.start.held = true ∧
    s.phase ≠ 8 ∧
    ((readings.any fun r => decide (880 ≤ r)) = true) ∧
    s₁ = ({ s with start := { s.start with armed := true } } : State).latchStraps preset.val addr.val :=
  ⟨{ start := { held := true } }, 1, 2, [900], _, by decide +kernel, by decide +kernel, by decide +kernel, rfl⟩

theorem test_witness_ResetAndStartupCommandsComplete_10 : ∃ (s : State) (s₁ : State),
    s.phase = 8 ∧
    s₁ = { s with start := { s.start with held := false, scanHold := false } } :=
  ⟨{ regs := regsOf [(R.mgtStartStatus, 8)] }, _, by decide +kernel, rfl⟩

theorem test_witness_ResetAndStartupCommandsComplete_11 : ∃ (s : State),
    s.start.held = false :=
  ⟨{ start := { held := false } }, by decide +kernel⟩

theorem test_witness_ResetAndStartupCommandsComplete_12 : ∃ (s : State) (us : BitVec 32),
    s.start.held = false ∧
    s.phase = 0 ∧
    s.firmware = true :=
  ⟨{ start := { held := false }, trust := { running := some 0 } }, 5, by decide +kernel, by decide +kernel, by decide +kernel⟩

theorem test_witness_ResetAndStartupCommandsComplete_13 : ∃ (s : State) (us : BitVec 32) (board : BoardDesc) (s₁ s₂ s₃ s₄ s₅ : State),
    s.phase = 1 ∧
    s.bit R.clkPllStatus 0 = true ∧
    board.checksum = true ∧
    s₁ = { s with start := { s.start with board } } ∧
    s₂ = (s₁.loadLedger.extend 1 (Config.measured 1 [board.bytes, (board.portMap.getD []).map (BitVec.ofNat 8 ·), natLE 2 (s₁.start.preset + 8 * s₁.start.mgtAddr)])).countReset ∧
    (s₃ = ((s₂.setBit R.trustAccess 0 board.hostPriv).setBit R.trustAccess 1 board.fabricMgmt).putBytes (fun w => R.trustSysKey (w / 24) (w % 24)) 48 (fitBytes 192 board.sysKeys)) ∧
    s₄ = (s₃.setFld R.trustSysKeyEn 1 0 (board.sysKeyEn % 4)).putBytes R.trustOprKey 12 (fitBytes 48 board.oprKey) ∧
    s₅ = s₄.extend 3 (Config.measured 3 [natLE 4 (s₄.rd R.trustAccess).toNat, s₄.regBytes R.trustOprKey 12, s₄.regBytes (R.trustSysKey 0) 24 ++ s₄.regBytes (R.trustSysKey 1) 24, natLE 1 (s₄.rd R.trustSysKeyEn).toNat]) :=
  ⟨{ regs := regsOf [(R.mgtStartStatus, 1), (R.clkPllStatus, 1)] }, 5, {}, _, _, _, _, _, by decide +kernel, by decide +kernel, by decide +kernel, rfl, rfl, rfl, rfl, rfl⟩

theorem test_witness_ResetAndStartupCommandsComplete_14 : ∃ (s : State) (us : BitVec 32),
    s.phase = 2 :=
  ⟨{ regs := regsOf [(R.mgtStartStatus, 2)] }, 5, by decide +kernel⟩

theorem test_witness_ResetAndStartupCommandsComplete_15 : ∃ (s : State) (us : BitVec 32) (qm0 qm1 : Bool) (failing : List (Fin 8 × Fin 290 × List (Fin 16384) × Fin 65)) (kept : List Nat),
    s.phase = 3 ∧
    s.fld R.mgtResetCause 2 0 = 5 ∧
    (kept = [0, 1, 2, 3, 4, 5, 6, 7].flatMap fun t => [R.smemSpareBank t 0, R.smemSpareBank t 1, R.smemSpareRowMin t]) :=
  ⟨{ regs := regsOf [(R.mgtStartStatus, 3), (R.mgtResetCause, 5)] }, 5, true, true, [], _, by decide +kernel, by decide +kernel, rfl⟩

theorem test_witness_ResetAndStartupCommandsComplete_16 : ∃ (s : State) (us : BitVec 32) (s₁ : State),
    s.phase = 3 ∧
    s.fld R.mgtResetCause 2 0 ≠ 5 ∧
    (s₁ = (List.range 8).foldl (fun (st : State) k => st.showSpares k) ((List.range 8).foldl (fun (st : State) t => st.domainUp (32 + t)) s)) ∧
    s₁.phase ≠ 10 :=
  ⟨{ regs := regsOf [(R.mgtStartStatus, 3), (R.mgtResetCause, 1)] }, 5, _, by decide +kernel, by decide +kernel, rfl, by decide +kernel⟩

theorem test_witness_ResetAndStartupCommandsComplete_17 : ∃ (s : State) (us : BitVec 32) (slots : List (Fin 160)) (cols : List (Fin 128 × Fin 4 × Fin 64)) (maps : List Nat) (s₁ s₂ s₃ s₄ : State),
    s.phase = 4 ∧
    s.fld R.mgtResetCause 2 0 = 5 ∧
    (maps = (List.range 128).flatMap fun c => (List.range 4).map (R.coreArrColmap c)) ∧
    (s₁ = s.keepRegs ((List.range 32).foldl (fun (st : State) d => st.domainUp d) s) maps) ∧
    (s₂ = ((List.range 171).foldl (fun (st : State) u => if st.unitOut u then st else st.setUnit u 0 none) s₁).enableUnitQueues.startSummary 0) ∧
    s₃ = s₂.wr R.clkCclkMax (BitVec.ofNat 64 (min 4 s₂.start.board.cclkMax)) ∧
    s₄ = { s₃ with start := { s₃.start with freed := true } } :=
  ⟨{ regs := regsOf [(R.mgtStartStatus, 4), (R.mgtResetCause, 5)] }, 5, [], [], _, _, _, _, _, by decide +kernel, by decide +kernel, rfl, rfl, rfl, rfl, rfl⟩

theorem test_witness_ResetAndStartupCommandsComplete_18 : ∃ (s : State) (us : BitVec 32) (failed : Nat) (s₁ s₂ s₃ : State),
    s.phase = 5 ∧
    (List.range 32).any s.training = false ∧
    (failed = ((List.range 32).filter fun p => s.bit (R.lnkPortCfg p) 0 && s.portState p != 5).length) ∧
    s₁ = s.setFld R.mgtStartSummary 29 24 failed ∧
    (s₂ = if failed ≠ 0 then s₁.setBit R.mgtStartStatus 4 true else s₁) ∧
    s₃ = (s₂.wr R.mgtStartTime (us.setWidth 64)).endPhase 5 us :=
  ⟨{ regs := regsOf [(R.mgtStartStatus, 5)] }, 5, _, _, _, _, by decide +kernel, by decide +kernel, rfl, rfl, rfl, rfl⟩

theorem test_witness_ResetAndStartupCommandsComplete_19 : ∃ (s : State) (s₁ s₂ : State),
    s₁ = (s.setBit R.hostQstopStatus 0 true).setBit R.hostQstopStatus 1 true ∧
    (s₂ = s₁.modHost fun h => { h with disagree := false }) ∧
    s₂.qstopFault = false ∧
    s₂.quiesced = false :=
  ⟨{}, _, _, rfl, rfl, by decide +kernel, by decide +kernel⟩

theorem test_witness_ResetAndStartupCommandsComplete_20 : ∃ (s : State) (s₁ s₂ : State),
    s.host.disagree = false ∧
    s₁ = (s.setBit R.hostQstopStatus 0 false).setBit R.hostQstopStatus 1 false ∧
    (s₂ = s₁.modHost fun h => { h with disagree := false }) ∧
    s₂.quiesced = true ∧
    s₂.qstopFault = false :=
  ⟨{ regs := regsOf [(R.hostQstopStatus, 7)] }, _, _, by decide +kernel, rfl, rfl, by decide +kernel, by decide +kernel⟩

theorem test_witness_ResetAndStartupCommandsComplete_21 : ∃ (s : State) (a b : Bool) (s₁ : State),
    a ≠ b ∧
    s.bit R.hostQstopStatus 0 = s.bit R.hostQstopStatus 1 ∧
    s₁ = (s.setBit R.hostQstopStatus 0 a).setBit R.hostQstopStatus 1 b :=
  ⟨{}, true, false, _, by decide +kernel, by decide +kernel, rfl⟩

theorem test_witness_ResetAndStartupCommandsComplete_22 : ∃ (s : State) (s₁ s₂ : State),
    s.host.disagree = true ∧
    (s₁ = (s.modHost fun h => { h with disagree := false }).setBit R.hostQstopStatus 4 true) ∧
    s₂ = ((s₁.count R.hostQstopFaultCnt 1).intEvent 503 4).hostRaise 0xA008 0xFF 0xFFFF 0 :=
  ⟨{ host := { disagree := true } }, _, _, by decide +kernel, rfl, rfl⟩

theorem test_witness_ResetAndStartupCommandsComplete_23 : ∃ (s : State) (verified : Bool),
    s.portsQuiet = true ∧
    s.bit R.hostQstopStatus 3 = false ∧
    s.ownFlitsGone = true :=
  ⟨{ regs := regsOf [(R.hostQstopStatus, 7)] }, true, by decide +kernel, by decide +kernel, by decide +kernel⟩

theorem test_witness_ResetAndStartupCommandsComplete_24 : ∃ (s : State),
    s.qstopFault = true ∧
    s.bit R.hostQstopStatus 0 = false ∧
    s.bit R.hostQstopStatus 1 = false :=
  ⟨{ regs := regsOf [(R.hostQstopStatus, 0x14)] }, by decide +kernel, by decide +kernel, by decide +kernel⟩

theorem test_witness_EmptyQueueIdles_1 : ∃ s : State, s.pending = [] :=
  ⟨{}, rfl⟩

theorem test_witness_EveryStepCompletes_1 : ∃ s : State, (Memory.wf s.mem && Tab.wf 0 s.spad && regsWf s.regs) = true :=
  ⟨State.reset, by decide +kernel⟩

theorem test_witness_StepsKeepTheCanonicalForm_1 : ∃ s t : State, (Memory.wf s.mem && Tab.wf 0 s.spad && regsWf s.regs) = true ∧ step s = .next t :=
  ⟨State.reset, State.reset, by decide +kernel, rfl⟩

theorem test_witness_StepsTakeOneCommandAndKeepTheFuses_1 : ∃ s t : State, (Memory.wf s.mem && Tab.wf 0 s.spad && regsWf s.regs) = true ∧ step s = .next t :=
  ⟨State.reset, State.reset, by decide +kernel, rfl⟩

theorem test_witness_StageMemoryReadsBackWhatWasWritten_1 : ∃ (s : State) (a : Nat), (Memory.wf s.mem && Tab.wf 0 s.spad && regsWf s.regs) = true ∧ a < 524288 :=
  ⟨State.reset, 5, by decide +kernel⟩

theorem test_witness_GranuleFillClearsExactlyTheGranule_1 : ∃ (s : State) (granule : Fin 512) (value : Word), (Memory.wf s.mem && Tab.wf 0 s.spad && regsWf s.regs) = true ∧ bits value 11 10 ≠ 3 ∧
    (s.granValid granule && s.ctxBusy (s.granOwner granule)) = false ∧ bits value 9 9 = 1 ∧ s.ctxBusy (bits value 8 0) = false ∧
    (∀ t < 4, s.bit R.pwrDomainState (32 + granule.val / 256 * 4 + t) = true) ∧
    (s.granValid granule = false ∨ s.granOwner granule ≠ bits value 8 0 ∨ s.granClass granule ≠ bits value 11 10) :=
  ⟨{ regs := regsOf [(R.pwrDomainState, 0xFF00000000)] }, 5, 0x203, by decide +kernel⟩

theorem test_witness_StsStoresEightBytesAndNoOther_1 : ∃ (s : State) (q : Fin 4) (a : Nat) (w : BitVec 32), (Memory.wf s.mem && Tab.wf 0 s.spad && regsWf s.regs) = true ∧ w = s.seqWord q ∧ s.seqReady q 0x0C = true ∧
    a = ((s.seqBegin q 0x0C).g q (swB w) + swImm18 w).toNat ∧ a % 8 = 0 ∧ (s.seqBegin q 0x0C).seqReach q a 8 = true ∧ (s.seqBegin q 0x0C).seqWaits q a 8 = false :=
  ⟨seqAt (BitVec.ofNat 32 (0x0C * 2 ^ 26)) {} [(R.stgSeqCtrl 0, 3), (R.smemcGranule 0, 0x200)], 0, 0, _, by decide +kernel, rfl, by decide +kernel, rfl, by decide +kernel, by decide +kernel, by decide +kernel⟩

theorem test_witness_StsStoresEightBytesAndNoOther_2 : ∃ (s t : State) (q : Fin 4) (us : List Upset), exec (.lds q us) s = .next t ∧ s.seqReady q 0x0B = true ∧
    ((s.seqBegin q 0x0B).g q (swB (s.seqWord q)) + swImm18 (s.seqWord q)).toNat % 8 = 0 ∧
    (s.seqBegin q 0x0B).seqReach q ((s.seqBegin q 0x0B).g q (swB (s.seqWord q)) + swImm18 (s.seqWord q)).toNat 8 = true ∧
    (((s.seqBegin q 0x0B).memUpset us).seqRead q ((s.seqBegin q 0x0B).g q (swB (s.seqWord q)) + swImm18 (s.seqWord q)).toNat).2 ≠ none :=
  ⟨seqAt (BitVec.ofNat 32 (0x0B * 2 ^ 26)) {} [(R.smemcGranule 0, 0x200)], _, 0, [], rfl, by decide +kernel, by decide +kernel, by decide +kernel, by decide +kernel⟩

theorem test_witness_QueueRingRule_1 : ∃ (s : State) (q : Nat), (Memory.wf s.mem && Tab.wf 0 s.spad && regsWf s.regs) = true ∧ 4 ≤ s.qLog q ∧ s.qLog q ≤ 12 ∧ s.qWr q < 2 * s.qDepth q ∧ s.qRd q < 2 * s.qDepth q :=
  ⟨q1100 3, 1100, by decide +kernel⟩

theorem test_witness_IdleCardIsNeverEnqueued_1 : ∃ (_s : State) (_a : Agent) (_ctx : Option Nat) (_q : Nat) (c : Card), c.tag = 0 :=
  ⟨{}, .host, none, 1100, idleCard, by decide +kernel⟩

theorem test_witness_QueueRingRule_2 : ∃ (s : State) (q : Nat), (Memory.wf s.mem && Tab.wf 0 s.spad && regsWf s.regs) = true ∧ s.qEn q = false ∧ s.queueEnableOk q = true :=
  ⟨{ regs := regsOf [(R.qselQcfg 1100, 8), (R.qselQring 1100, 0x40000)] }, 1100, by decide +kernel, by decide +kernel, by decide +kernel⟩

theorem test_witness_CardInstructionRule_1 : ∃ (s : State) (q : Fin 4) (w : BitVec 32), w = s.seqWord q ∧ s.seqReady q 0x1B = true ∧ bits w 9 4 + 2 ^ bits w 3 2 ≤ 64 :=
  ⟨seqAt (BitVec.ofNat 32 (0x1B * 2 ^ 26 + 12)), 0, _, rfl, by decide +kernel⟩

theorem test_witness_PoolEnableRule_1 : ∃ (s : State) (i : Fin 128), (Memory.wf s.mem && Tab.wf 0 s.spad && regsWf s.regs) = true ∧ s.poolEn i = false :=
  ⟨engState servReq [(R.poolPoolCfg 0, 28), (R.poolPoolSlots 0, 1)] [], 0, by decide +kernel⟩

theorem test_witness_SequencerInstructionsTouchOnlyTheirSequencer_1 : ∃ (s t : State) (q : Fin 4) (c : Instr), (Memory.wf s.mem && Tab.wf 0 s.spad && regsWf s.regs) = true ∧ Tab.wf {} s.seqs = true ∧ c ∈ [.nop q, .alu q, .addi q, .stgLi q, .liw q, .stgCall q, .stgRet q, .time q, .tset q, .ewait q, .cget q, .cput q, .cclr q, .ccopy q] ∧ exec c s = .next t :=
  ⟨seqAt 0, (match exec (.nop 0) (seqAt 0) with | .next t => t | _ => {}), 0, .nop 0, by decide +kernel, by decide +kernel, by decide +kernel, rfl⟩

theorem test_witness_AttestationAnswersChangeNoOtherState_1 : ∃ (s t : State) (c : Instr), c ∈ [Instr.getVersion 0] ∧ exec c s = .next t :=
  ⟨fwRuns, (match exec (.getVersion 0) fwRuns with | .next t => t | _ => {}), .getVersion 0, by decide +kernel, rfl⟩

theorem test_witness_SignalsAddToTheirFlagAlone_1 : ∃ (s : State) (c f n : Nat), (Memory.wf s.mem && Tab.wf 0 s.spad && regsWf s.regs) = true ∧ c < 128 ∧ f < 96 ∧ s.flag c f + n ≤ 65535 :=
  ⟨{}, 3, 70, 9, by decide +kernel⟩

theorem test_witness_RegisterWritesFollowTheAccessCodes_1 : ∃ (s : State) (h : RegHit), (Memory.wf s.mem && Tab.wf 0 s.spad && regsWf s.regs) = true ∧ h.row.rw &&& h.row.w1c = 0 ∧ h.row.rw &&& h.row.w1s = 0 ∧ h.row.w1c &&& h.row.w1s = 0 ∧ h.row.rwl &&& (h.row.rw ||| h.row.w1c ||| h.row.w1s) = 0 :=
  ⟨{}, { home := 0, off := 0x20, row := { name := "", off := 0x20, w1c := 15 }, i := 0, j := 0, high := false }, by decide +kernel⟩

theorem test_witness_InterruptEventsSetTheirStatusBit_1 : ∃ (s : State) (_pg i : Nat), (Memory.wf s.mem && Tab.wf 0 s.spad && regsWf s.regs) = true ∧ i < 64 :=
  ⟨{}, 392, 3, by decide +kernel⟩

theorem test_witness_FaultLogKeepsTheLatestRecords_1 : ∃ (s : State) (n : Nat), Tab.wf 0 s.flog = true ∧ n = s.fld R.mgtFlogHead 31 0 :=
  ⟨{}, 0, by decide +kernel⟩

theorem test_witness_FlitsCarryTheirChecksum_1 : ∃ (hdr : Nat) (payload : List Byte) (f : BitVec 2048), hdr < 2 ^ 96 ∧ payload.length ≤ 240 ∧ Flit.crcOk f = false :=
  ⟨5, [1, 2], 1, by decide +kernel⟩

theorem test_witness_ScalarRegisterZeroReadsZero_1 : ∃ (x : Core) (n : Nat), n ≠ 0 ∧ Tab.wf 0 x.sregs = true :=
  ⟨{}, 1, by decide +kernel⟩

theorem test_witness_ClassThreeIsNeverStored_1 : ∃ (s : State) (_granule : Fin 512) (value : Word), (Memory.wf s.mem && Tab.wf 0 s.spad && regsWf s.regs) = true ∧ bits value 11 10 = 3 :=
  ⟨{}, 5, 0xC00, by decide +kernel⟩

theorem test_witness_TransfersBegin_1 : ∃ (s : State) (s₁ : State) (core : Fin 128) (q : QOp) (win off near far base size : Nat) (y : SyncF),
    s.beginHead core .ld = some q ∧
    q.op = .ld (.ld win off near far y) ∧
    (s.core core).ldFree = true ∧
    s₁ = s.takeHead core .ld ∧
    s₁.coreWindow core win = (base, size) ∧
    q.xferFault near far (q.regs.get 0 off).toNat size = none :=
  ⟨winState { ld := { queue := [qop (.ld (.ld 0 0 0 0 {}))] } }, _, 0, qop (.ld (.ld 0 0 0 0 {})), 0, 0, 0, 0, 4096, 8192, {}, by decide +kernel, by decide +kernel, by decide +kernel, rfl, by decide +kernel, by decide +kernel⟩

theorem test_witness_TransfersBegin_2 : ∃ (s : State) (s₁ : State) (core : Fin 128) (q : QOp) (win off near far base size : Nat) (y : SyncF) (f : Nat × Nat × AddrFault),
    s.beginHead core .ld = some q ∧
    q.op = .ld (.ld win off near far y) ∧
    (s.core core).ldFree = true ∧
    s₁ = s.takeHead core .ld ∧
    s₁.coreWindow core win = (base, size) ∧
    q.xferFault near far (q.regs.get 0 off).toNat size = some f :=
  ⟨runs { ld := { queue := [qop (.ld (.ld 0 0 0 0 {}))] } }, _, 0, qop (.ld (.ld 0 0 0 0 {})), 0, 0, 0, 0, 0, 0, {}, (0, 10, ⟨windowBound, 0, 2⟩), by decide +kernel, by decide +kernel, by decide +kernel, rfl, by decide +kernel, by decide +kernel⟩

theorem test_witness_TransfersBegin_3 : ∃ (s : State) (s₁ : State) (core : Fin 128) (q : QOp) (win off near far base size : Nat) (y : SyncF),
    s.beginHead core .st = some q ∧
    q.op = .st (.st win off near far y) ∧
    s₁ = s.takeHead core .st ∧
    s₁.coreWindow core win = (base, size) ∧
    q.xferFault near far (q.regs.get 0 off).toNat size = none :=
  ⟨winState { st := { queue := [qop (.st (.st 0 0 0 0 {}))] } }, _, 0, qop (.st (.st 0 0 0 0 {})), 0, 0, 0, 0, 4096, 8192, {}, by decide +kernel, by decide +kernel, rfl, by decide +kernel, by decide +kernel⟩

theorem test_witness_TransfersBegin_4 : ∃ (s : State) (s₁ : State) (core : Fin 128) (q : QOp) (win off near far base size : Nat) (y : SyncF) (f : Nat × Nat × AddrFault),
    s.beginHead core .st = some q ∧
    q.op = .st (.st win off near far y) ∧
    s₁ = s.takeHead core .st ∧
    s₁.coreWindow core win = (base, size) ∧
    q.xferFault near far (q.regs.get 0 off).toNat size = some f :=
  ⟨runs { st := { queue := [qop (.st (.st 0 0 0 0 {}))] } }, _, 0, qop (.st (.st 0 0 0 0 {})), 0, 0, 0, 0, 0, 0, {}, (0, 10, ⟨windowBound, 0, 2⟩), by decide +kernel, by decide +kernel, rfl, by decide +kernel, by decide +kernel⟩

theorem test_witness_TransfersBegin_5 : ∃ (s : State) (s₁ : State) (core : Fin 128) (q : QOp) (buf near far : Nat) (y : SyncF),
    s.beginHead core .st = some q ∧
    q.op = .st (.stLink buf near far y) ∧
    s₁ = s.takeHead core .st ∧
    q.xferFault near far 0 (s₁.bufferSize core buf) = none :=
  ⟨linkState, _, 0, qop (.st (.stLink 0 0 0 {})), 0, 0, 0, {}, by decide +kernel, by decide +kernel, rfl, by decide +kernel⟩

theorem test_witness_SignalsDeliveriesAndCountsComplete_1 : ∃ (s : State) (core : Fin 128) (eng : EngId) (g : SigOwed) (rest : List SigOwed),
    s.coreRuns core = true ∧
    ((s.core core).eng eng).sigs = g :: rest :=
  ⟨runs { ve := { sigs := [⟨3, 2⟩] } }, 0, .ve, ⟨3, 2⟩, [], by decide +kernel, by decide +kernel⟩

theorem test_witness_SignalsDeliveriesAndCountsComplete_2 : ∃ (s s₁ s₂ : State) (core : Fin 128) (eng : EngId) (dt : Nat) (withVe : Bool) (d : Deliv) (rest : List Deliv),
    s.coreRuns core = true ∧
    ((s.core core).eng eng).delivs = d :: rest ∧
    (withVe = false ∨ s.veRival core eng d.reg = none) ∧
    (s.core core).collides d.reg dt = false ∧
    (s₁ = s.modEng core eng fun x => { x with delivs := rest }) ∧
    (s₂ = s₁.modCore core fun x => x.delivered d.reg dt) :=
  ⟨runs { ve := { delivs := [⟨3, 9, 2, none⟩] } }, _, _, 0, .ve, 1, false, ⟨3, 9, 2, none⟩, [], by decide +kernel, by decide +kernel, by decide +kernel, by decide +kernel, rfl, rfl⟩

theorem test_witness_SignalsDeliveriesAndCountsComplete_3 : ∃ (s s₁ s₂ : State) (core : Fin 128) (eng : EngId) (dt : Nat) (withVe : Bool) (d : Deliv) (rest : List Deliv),
    s.coreRuns core = true ∧
    ((s.core core).eng eng).delivs = d :: rest ∧
    (withVe = false ∨ s.veRival core eng d.reg = none) ∧
    (s.core core).collides d.reg dt = true ∧
    (s₁ = s.modEng core eng fun x => { x with delivs := rest }) ∧
    (s₂ = s₁.modCore core fun x => x.delivered d.reg dt) :=
  ⟨runs { ve := { delivs := [⟨3, 9, 2, none⟩] }, scPend := [{ reg := 3, val := 1, left := 2 }] }, _, _, 0, .ve, 1, false, ⟨3, 9, 2, none⟩, [], by decide +kernel, by decide +kernel, by decide +kernel, by decide +kernel, rfl, rfl⟩

theorem test_witness_SignalsDeliveriesAndCountsComplete_4 : ∃ (s s₁ s₂ s₃ : State) (core : Fin 128) (dt : Nat) (d v : Deliv) (rest vs : List Deliv),
    s.coreRuns core = true ∧
    ((s.core core).eng .ld).delivs = d :: rest ∧
    (s.core core).ve.delivs = v :: vs ∧
    v.reg = d.reg ∧
    (s₁ = s.modEng core .ld fun x => { x with delivs := rest }) ∧
    (s₂ = s₁.modEng core .ve fun x => { x with delivs := x.delivs.tail }) ∧
    (s₃ = s₂.modCore core fun x => x.delivered d.reg dt) :=
  ⟨runs { ld := { delivs := [⟨3, 8, 1, none⟩] }, ve := { delivs := [⟨3, 9, 2, none⟩] } }, _, _, _, 0, 1, ⟨3, 8, 1, none⟩, ⟨3, 9, 2, none⟩, [], [], by decide +kernel, by decide +kernel, by decide +kernel, by decide +kernel, rfl, rfl, rfl⟩

theorem test_witness_SignalsDeliveriesAndCountsComplete_5 : ∃ (s : State) (s₁ : State) (core : Fin 128) (q : QOp) (u t f n : Nat) (y : SyncF),
    s.beginHead core .st = some q ∧
    s.unitOf core = some u ∧
    q.op = .st (.stSignal t f n y) ∧
    ((s.core core).st.cur = [] ∧ (s.core core).st.sigs = [] ∧ (s.core core).stSignals = []) ∧
    s₁ = s.takeHead core .st ∧
    unitFirst u + t ≠ core :=
  ⟨runs { st := { queue := [qop (.st (.stSignal 1 2 1 {}))] } }, _, 0, qop (.st (.stSignal 1 2 1 {})), 0, 1, 2, 1, {}, by decide +kernel, by decide +kernel, by decide +kernel, by decide +kernel, rfl, by decide +kernel⟩

theorem test_witness_SignalsDeliveriesAndCountsComplete_6 : ∃ (s : State) (s₁ : State) (core : Fin 128) (q : QOp) (u t f n : Nat) (y : SyncF),
    s.beginHead core .st = some q ∧
    s.unitOf core = some u ∧
    q.op = .st (.stSignal t f n y) ∧
    ((s.core core).st.cur = [] ∧ (s.core core).st.sigs = [] ∧ (s.core core).stSignals = []) ∧
    s₁ = s.takeHead core .st ∧
    unitFirst u + t = core :=
  ⟨runs { st := { queue := [qop (.st (.stSignal 0 2 1 {}))] } }, _, 0, qop (.st (.stSignal 0 2 1 {})), 0, 0, 2, 1, {}, by decide +kernel, by decide +kernel, by decide +kernel, by decide +kernel, rfl, by decide +kernel⟩

theorem test_witness_SignalsDeliveriesAndCountsComplete_7 : ∃ (s : State) (core : Fin 128) (g : StSig) (rest : List StSig),
    s.coreRuns core = true ∧
    (s.core core).stSignals = g :: rest :=
  ⟨runs { stSignals := [{ target := 1, flag := 2, n := 1 }] }, 0, { target := 1, flag := 2, n := 1 }, [], by decide +kernel, by decide +kernel⟩

theorem test_witness_SignalsDeliveriesAndCountsComplete_8 : ∃ (s s₁ s₂ : State) (core : Fin 128) (reqs : Nat) (us : List Upset) (q : QOp) (ds fmt : Nat) (kind : CntKind) (sv rl : Nat) (t : CntTgt) (y : SyncF),
    s₁ = s.upset core us ∧
    s₁.coreRuns core = true ∧
    (s₁.core core).ld.cur = [] ∧
    s₁.headReady core .ld = some q ∧
    q.op = .ld (.scnt ds fmt kind sv rl t y) ∧
    countChecks q ds ((q.descs.get 0 ds).checkNear (countBytes (fmtOf fmt))) t = none ∧
    s₂ = (s₁.takeHead core .ld).startOp core .ld { q, reqs := scntReqs (q.descs.get 0 ds) (fmtOf fmt) (segUnits (q.descs.get 0 ds) rl t) } :=
  ⟨runs { ld := { queue := [qop (.ld (.scnt 0 0 .eq 0 0 (.scalar 1 1) {}))] } }, _, _, 0, 1, [], qop (.ld (.scnt 0 0 .eq 0 0 (.scalar 1 1) {})), 0, 0, .eq, 0, 0, .scalar 1 1, {}, rfl, by decide +kernel, by decide +kernel, by decide +kernel, by decide +kernel, by decide +kernel, rfl⟩

theorem test_witness_SignalsDeliveriesAndCountsComplete_9 : ∃ (s s₁ : State) (core : Fin 128) (reqs : Nat) (us : List Upset),
    s₁ = s.upset core us ∧
    s₁.coreRuns core = true ∧
    (s₁.core core).ld.cur ≠ [] :=
  ⟨runs { ld := { cur := [{ q := qop (.ld (.scnt 0 0 .eq 0 0 (.scalar 1 1) {})) }] } }, _, 0, 1, [], rfl, by decide +kernel, by decide +kernel⟩

theorem test_witness_SignalsDeliveriesAndCountsComplete_10 : ∃ (s : State) (s₁ s₂ : State) (core : Fin 128) (us : List Upset) (q : QOp) (a se sn d f w : Nat) (imm : Int) (y : SyncF),
    s.beginHead core .ld = some q ∧
    q.op = .ld (.scas a imm se sn d f y) ∧
    (s.core core).ld.cur = [] ∧
    s₁ = (s.upset core us).takeHead core .ld ∧
    w = (q.regs.get 0 a + BitVec.ofInt 64 imm).toNat ∧
    (w % 8 = 0 ∧ w < 0x80000) ∧
    s₁.spadCheck core w 8 = (s₂, false) :=
  ⟨runs { ld := { queue := [qop (.ld (.scas 0 16 0 0 1 1 {}))] } }, _, ((runs { ld := { queue := [qop (.ld (.scas 0 16 0 0 1 1 {}))] } }).takeHead 0 .ld), 0, [], qop (.ld (.scas 0 16 0 0 1 1 {})), 0, 0, 0, 1, 1, 16, 16, {}, by decide +kernel, by decide +kernel, by decide +kernel, rfl, rfl, by decide +kernel, by decide +kernel⟩

theorem test_witness_SignalsDeliveriesAndCountsComplete_11 : ∃ (s : State) (s₁ : State) (core : Fin 128) (q : QOp) (win off ds fmt : Nat) (kind : CntKind) (sv rl base size : Nat) (t : CntTgt) (y : SyncF),
    s.beginHead core .ld = some q ∧
    q.op = .ld (.smcnt win off ds fmt kind sv rl t y) ∧
    (s.core core).ld.cur = [] ∧
    s₁ = s.takeHead core .ld ∧
    s₁.coreWindow core win = (base, size) ∧
    countChecks q ds ((q.descs.get 0 ds).checkFar (q.regs.get 0 off).toNat size (countBytes (fmtOf fmt))) t = none :=
  ⟨winState { ld := { queue := [qop (.ld (.smcnt 0 0 0 0 .eq 0 0 (.scalar 1 1) {}))] } }, _, 0, qop (.ld (.smcnt 0 0 0 0 .eq 0 0 (.scalar 1 1) {})), 0, 0, 0, 0, .eq, 0, 0, 4096, 8192, .scalar 1 1, {}, by decide +kernel, by decide +kernel, by decide +kernel, rfl, by decide +kernel, by decide +kernel⟩

theorem test_witness_SignalsDeliveriesAndCountsComplete_12 : ∃ (s : State) (s₁ : State) (core : Fin 128) (q : QOp) (win off se sn d f base size o : Nat) (imm : Int) (y : SyncF),
    s.beginHead core .ld = some q ∧
    q.op = .ld (.smcas win off imm se sn d f y) ∧
    (s.core core).ld.cur = [] ∧
    s₁ = s.takeHead core .ld ∧
    s₁.coreWindow core win = (base, size) ∧
    o = (q.regs.get 0 off + BitVec.ofInt 64 imm).toNat ∧
    ((base + o) % 8 = 0 ∧ o + 8 ≤ size) :=
  ⟨winState { ld := { queue := [qop (.ld (.smcas 0 0 16 0 0 1 1 {}))] } }, _, 0, qop (.ld (.smcas 0 0 16 0 0 1 1 {})), 0, 0, 0, 0, 1, 1, 4096, 8192, 16, 16, {}, by decide +kernel, by decide +kernel, by decide +kernel, rfl, by decide +kernel, rfl, by decide +kernel⟩

theorem test_witness_SignalsDeliveriesAndCountsComplete_13 : ∃ (s : State) (s₁ : State) (core : Fin 128) (pick k : Nat) (us : List Upset) (r : MemReq) (o : CurOp),
    s₁ = s.memUpset us ∧
    ((s₁.core core).eng .ld).flat[pick]? = some (k, r) ∧
    s₁.mayLand core ((s₁.core core).eng .ld) pick = true ∧
    ((s₁.core core).eng .ld).pickable pick k r = true ∧
    ((s₁.core core).eng .ld).cur[k]? = some o :=
  ⟨runs { ld := { cur := [{ q := qop (.ld (.ld 0 0 0 0 {})), reqs := [⟨0, 64, 64, 0, 0, false⟩] }] } }, _, 0, 0, 0, [], ⟨0, 64, 64, 0, 0, false⟩, { q := qop (.ld (.ld 0 0 0 0 {})), reqs := [⟨0, 64, 64, 0, 0, false⟩] }, rfl, by decide +kernel, by decide +kernel, by decide +kernel, by decide +kernel⟩

theorem test_witness_SignalsDeliveriesAndCountsComplete_14 : ∃ (s : State) (s₁ : State) (core : Fin 128) (pick k : Nat) (us : List Upset) (r : MemReq) (o : CurOp),
    s₁ = s.upset core us ∧
    ((s₁.core core).eng .st).flat[pick]? = some (k, r) ∧
    s₁.mayLand core ((s₁.core core).eng .st) pick = true ∧
    ((s₁.core core).eng .st).pickable pick k r = true ∧
    ((s₁.core core).eng .st).cur[k]? = some o ∧
    s₁.badStore core (pick + 1) = none :=
  ⟨runs { st := { cur := [{ q := qop (.st (.st 0 0 0 0 {})), reqs := [⟨0, 64, 64, 0, 0, false⟩] }] } }, _, 0, 0, 0, [], ⟨0, 64, 64, 0, 0, false⟩, { q := qop (.st (.st 0 0 0 0 {})), reqs := [⟨0, 64, 64, 0, 0, false⟩] }, rfl, by decide +kernel, by decide +kernel, by decide +kernel, by decide +kernel, by decide +kernel⟩

theorem test_witness_SignalsDeliveriesAndCountsComplete_15 : ∃ (s : State) (s₁ : State) (core : Fin 128) (pick k b : Nat) (us : List Upset) (r : MemReq) (o : CurOp),
    s₁ = s.upset core us ∧
    ((s₁.core core).eng .st).flat[pick]? = some (k, r) ∧
    s₁.mayLand core ((s₁.core core).eng .st) pick = true ∧
    ((s₁.core core).eng .st).pickable pick k r = true ∧
    ((s₁.core core).eng .st).cur[k]? = some o ∧
    s₁.badStore core (pick + 1) = some b :=
  ⟨runs { st := { cur := [{ q := qop (.st (.st 0 0 0 0 {})), reqs := [⟨0, 64, 64, 0, 0, false⟩] }] } }, _, 0, 0, 0, 0, [⟨0, true⟩], ⟨0, 64, 64, 0, 0, false⟩, { q := qop (.st (.st 0 0 0 0 {})), reqs := [⟨0, 64, 64, 0, 0, false⟩] }, rfl, by decide +kernel, by decide +kernel, by decide +kernel, by decide +kernel, by decide +kernel⟩

theorem test_witness_SignalsDeliveriesAndCountsComplete_16 : ∃ (s : State) (core : Fin 128) (addr k : Nat),
    k = spadKey core (addr / 8 * 8) ∧
    s.spadOwed.contains k = true ∧
    s.spadHealth core addr = 1 :=
  ⟨{ spadEcc := [(16, 1)], spadOwed := [16] }, 0, 20, 16, rfl, by decide +kernel, by decide +kernel⟩

theorem test_witness_ParkingAndJobEndCommandsComplete_1 : ∃ (s : State) (unit : Fin 171) (eng : List Nat),
    s.hasJob unit = true ∧
    ((s.job unit).fault.isSome = true ∨ s.allEnded unit = true ∨ ((s.job unit).torn = true ∧ (s.job unit).parked = true)) :=
  ⟨runs { phase := .ended }, 0, [], by decide +kernel, by decide +kernel⟩

theorem test_witness_ParkingAndJobEndCommandsComplete_2 : ∃ (s : State) (unit : Fin 171) (reason : Fin 6),
    reason ≠ 0 :=
  ⟨{}, 0, 5, by decide +kernel⟩

theorem test_witness_ParkingAndJobEndCommandsComplete_3 : ∃ (s : State) (core : Fin 128) (eng : EngId) (inFlight u : Nat),
    s.unitOf core = some u ∧
    (s.job u).parkReqs ≠ [] ∧
    (s.job u).parksOn = true ∧
    ((s.core core).eng eng).atPoint = false :=
  ⟨asked, 0, .ld, 0, 0, by decide +kernel, by decide +kernel, by decide +kernel, by decide +kernel⟩

theorem test_witness_ParkingAndJobEndCommandsComplete_4 : ∃ (s : State) (core : Fin 128) (eng : EngId) (u : Nat),
    s.unitOf core = some u ∧
    (s.job u).parkReqs ≠ [] ∧
    (s.job u).fault = none ∧
    ((s.core core).eng eng).atPoint = false :=
  ⟨asked, 0, .ld, 0, by decide +kernel, by decide +kernel, by decide +kernel, by decide +kernel⟩

theorem test_witness_ParkingAndJobEndCommandsComplete_5 : ∃ (s s₁ s₂ : State) (unit : Fin 171),
    s.unitState unit = 2 ∧
    (s.job unit).fault = none ∧
    (s.job unit).torn = false ∧
    ((s.job unit).parkReqs.all (fun r => r == 5) = true) ∧
    s₁ = (s.setJob unit { s.job unit with parkReqs := [], parked := false }).setUnit unit 1 (some (s.job unit).ctx) ∧
    (s₂ = ((unitCores unit).foldl (fun (st : State) c => st.resumeCore c) s₁).signals ((unitCores unit).flatMap fun c => (s₁.core c).owedSignals c)) :=
  ⟨{ parked with jobs := [(0, { parkReqs := [5] })] }, _, _, 0, by decide +kernel, by decide +kernel, by decide +kernel, by decide +kernel, rfl, rfl⟩

theorem test_witness_ParkingAndJobEndCommandsComplete_6 : ∃ (s : State) (unit : Fin 171),
    s.unitState unit = 1 ∧
    (s.job unit).fault = none ∧
    (s.job unit).parkReqs = [] ∧
    ((unitCores unit).all (fun c => s.settled c) = true) ∧
    ((unitCores unit).any (fun c => (s.core c).phase == .limit) = true) :=
  ⟨runs { phase := .limit }, 0, by decide +kernel, by decide +kernel, by decide +kernel, by decide +kernel, by decide +kernel⟩

theorem test_witness_ParkingAndJobEndCommandsComplete_8 : ∃ (s : State) (unit : Fin 171) (core : Fin 128) (waiter : Fin 5) (t dt f n v at_ : Nat),
    s.unitOf core = some unit.val ∧
    s.firstWaiter unit = some (t, core.val, waiter) ∧
    t = (s.job unit).clock + dt ∧
    s.waiting core waiter = some (f, n, v, at_) ∧
    s.coreRuns core = true ∧
    (s.wdFires unit).all (t < ·) = true :=
  ⟨runs1 { phase := .syWait } [{ sy := some (.wait 3 1) }], 0, 0, 0, 2, 2, 3, 1, 0, 0, by decide +kernel, by decide +kernel, by decide +kernel, by decide +kernel, by decide +kernel, by decide +kernel⟩

theorem test_witness_ParkingAndJobEndCommandsComplete_9 : ∃ (s : State) (unit : Fin 171) (core : Fin 128) (waiter : Fin 5) (t dt f n v at_ : Nat),
    s.unitOf core = some unit.val ∧
    s.firstWaiter unit = some (t, core.val, waiter) ∧
    t = (s.job unit).clock + dt ∧
    s.waiting core waiter = some (f, n, v, at_) ∧
    s.coreRuns core = true ∧
    s.wdFires unit = some t :=
  ⟨{ runs1 { phase := .syWait } [{ sy := some (.wait 3 1) }] with jobs := [(0, { begun := true })], regs := regsOf [(R.udState 0, 1), (R.wdselWdLimit 0, 1)] }, 0, 0, 0, 2, 2, 3, 1, 0, 0, by decide +kernel, by decide +kernel, by decide +kernel, by decide +kernel, by decide +kernel, by decide +kernel⟩

theorem test_witness_ParkingAndJobEndCommandsComplete_10 : ∃ (s : State) (unit : Fin 171) (t dt : Nat),
    s.unitState unit = 1 ∧
    (s.job unit).fault = none ∧
    (s.job unit).parkReqs = [] ∧
    s.wdFires unit = some t ∧
    t = (s.job unit).clock + dt ∧
    ((s.firstWaiter unit).all (fun x => t < x.1) = true) :=
  ⟨{ regs := regsOf [(R.udState 0, 1), (R.wdselWdLimit 0, 9)], jobs := [(0, { begun := true })] }, 0, 10, 10, by decide +kernel, by decide +kernel, by decide +kernel, by decide +kernel, by decide +kernel, by decide +kernel⟩

theorem test_witness_QueueCommandsComplete_1 : ∃ (s : State) (agent : Fin 56) (queue : Fin 4096) (card : BitVec 512),
    tagKnown (Card.tag card) = true ∧
    (Card.tag card ≠ 0x10 ∧ Card.tag card ≠ 0x11) ∧
    s.mayEnq queue (agentOf agent) (s.agentCtx agent (some card)) = true ∧
    s.qFull queue = false :=
  ⟨q1100 0, 36, 1100, Card.put 0 0 1 0xF1, by decide +kernel, by decide +kernel, by decide +kernel, by decide +kernel⟩

theorem test_witness_QueueCommandsComplete_2 : ∃ (s : State) (agent : Fin 56) (queue : Fin 4096) (card : BitVec 512),
    tagKnown (Card.tag card) = true ∧
    (Card.tag card ≠ 0x10 ∧ Card.tag card ≠ 0x11) ∧
    s.mayEnq queue (agentOf agent) (s.agentCtx agent (some card)) = true ∧
    s.qFull queue = true :=
  ⟨q1100 16, 36, 1100, Card.put 0 0 1 0xF1, by decide +kernel, by decide +kernel, by decide +kernel, by decide +kernel⟩

theorem test_witness_QueueCommandsComplete_3 : ∃ (s : State) (agent : Fin 56) (queue : Fin 4096) (card : Card) (ctx : Option Nat),
    ctx = s.agentCtx agent none ∧
    s.mayDeq queue (agentOf agent) ctx = true ∧
    s.qHead queue = some card ∧
    s.cardBad (s.qSlot queue (s.qRd queue)) 1 = 0 ∧
    s.cardBad (s.qSlot queue (s.qRd queue)) 2 = 0 ∧
    s.otherCtx queue ctx card = false :=
  ⟨q1100 1, 32, 1100, 0, _, rfl, by decide +kernel, by decide +kernel, by decide +kernel, by decide +kernel, by decide +kernel⟩

theorem test_witness_QueueCommandsComplete_4 : ∃ (s : State) (agent : Fin 56) (queue : Fin 4096),
    s.mayDeq queue (agentOf agent) (s.agentCtx agent none) = true ∧
    s.qHead queue = none :=
  ⟨q1100 0, 32, 1100, by decide +kernel, by decide +kernel⟩

theorem test_witness_QueueCommandsComplete_5 : ∃ (s : State) (queue : Fin 4096),
    s.qEn queue = false ∧
    s.queueEnableOk queue = true :=
  ⟨{ regs := regsOf [(R.qselQring 0, 0x40000)] }, 0, by decide +kernel, by decide +kernel⟩

theorem test_witness_QueueCommandsComplete_6 : ∃ (s : State) (queue : Fin 4096),
    s.qEn queue = true :=
  ⟨q1100 0, 1100, by decide +kernel⟩

theorem test_witness_QueueCommandsComplete_7 : ∃ (s : State) (q : Nat),
    q = s.fld R.qmCtrl 11 0 ∧
    s.qEn q = true :=
  ⟨{ regs := regsOf [(R.qselQcfg 0, 1)] }, 0, rfl, by decide +kernel⟩

theorem test_witness_QueueCommandsComplete_8 : ∃ (s : State) (s₁ s₂ : State) (u : Nat) (c₀ c : Card),
    s.dispatchPaused = false ∧
    (s₁ = s.headCards.foldl (fun (st : State) h => st.dropInactive h) s) ∧
    s₁.pick = some (u, c₀) ∧
    s₂ = (s₁.takeJob u).1 ∧
    (s₁.takeJob u).2 = some c :=
  ⟨{ regs := regsOf [(R.qselQcfg 0, 1), (R.qselQptr 0, 1), (R.ctxselCState 0, 2), (R.udState 0, 0)] }, _, _, 0, 0, 0, by decide +kernel, rfl, by decide +kernel, rfl, by decide +kernel⟩

theorem test_witness_CardAndBatchCommandsComplete_1 : ∃ (s : State) (t u : State) (port : Fin 33) (e : Nat × Pkt),
    s.cardFrom port = some e ∧
    port.val < 32 ∧
    (t = s.modFab fun x => { x with chipIn := x.chipIn.erase e }) ∧
    t.arriveRx port e.2.card = some u :=
  ⟨{ fab := { chipIn := [(3, { ptype := ptCard, cls := 1 })] } }, _, ({ fab := { chipIn := [(3, { ptype := ptCard, cls := 1 })] } } : State).modFab (fun x => { x with chipIn := [] }) |>.setRx 3 { fifo := [0] }, 3, (3, { ptype := ptCard, cls := 1 }), by decide +kernel, by decide +kernel, rfl, by decide +kernel⟩

theorem test_witness_CardAndBatchCommandsComplete_2 : ∃ (s : State) (t u : State) (e : Nat × Pkt),
    s.cardFrom 32 = some e ∧
    (t = s.modFab fun x => { x with chipIn := x.chipIn.erase e }) ∧
    t.routeCard 32 e.2.card = some u :=
  ⟨{ fab := { chipIn := [(32, { ptype := ptCard, cls := 1 })] } }, _, ((({ fab := { chipIn := [(32, { ptype := ptCard, cls := 1 })] } } : State).modFab (fun x => { x with chipIn := [] })).cardEvent 0x4001 (some 0) none 0), (32, { ptype := ptCard, cls := 1 }), by decide +kernel, rfl, by decide +kernel⟩

theorem test_witness_CardAndBatchCommandsComplete_3 : ∃ (s : State) (l : LeadCard),
    s.qm.leads.find? s.leadDue = some l :=
  ⟨{ q1100 0 with qm := { leads := [{ card := 0, queue := 1100, pool := 0, first := 0 }] }, smem := { pools := [(0, { grants := [{ first := 0, count := 1, chip := 0, lead := some (0, 0) }] })] } }, { card := 0, queue := 1100, pool := 0, first := 0 }, by decide +kernel⟩

theorem test_witness_CardAndBatchCommandsComplete_4 : ∃ (s : State) (unit : Fin 171) (p f n : Nat),
    s.hasJob unit = true ∧
    (s.job unit).bound = some (p, f, n) :=
  ⟨{ runs {} with jobs := [(0, { bound := some (0, 0, 0) })] }, 0, 0, 0, 0, by decide +kernel, by decide +kernel⟩

theorem test_witness_CardAndBatchCommandsComplete_5 : ∃ (s : State) (card : BitVec 512),
    Card.tag card = 0x14 :=
  ⟨{}, Card.put 0 0 1 0x14, by decide +kernel⟩

theorem test_witness_CardAndBatchCommandsComplete_6 : ∃ (s : State) (card : BitVec 512),
    Card.tag card = 0x13 :=
  ⟨{}, Card.put 0 0 1 0x13, by decide +kernel⟩

theorem test_witness_CardAndBatchCommandsComplete_7 : ∃ (s : State) (card : BitVec 512),
    Card.tag card = 0x16 :=
  ⟨{}, Card.put 0 0 1 0x16, by decide +kernel⟩

theorem test_witness_CardAndBatchCommandsComplete_8 : ∃ (s : State) (set : Fin 32),
    s.bit (R.qmShelfCfg set) 0 = false ∧
    s.shelfSetOk set = true :=
  ⟨{ regs := regsOf [(R.smemcGranule 0, 0x600)] }, 0, by decide +kernel, by decide +kernel⟩

theorem test_witness_CardAndBatchCommandsComplete_9 : ∃ (s : State) (asm : Fin 16),
    s.bit (R.qmAsmCfg asm) 0 = false ∧
    s.asmOk asm = true :=
  ⟨asmState 0 {} 0, 0, by decide +kernel, by decide +kernel⟩

theorem test_witness_CardAndBatchCommandsComplete_10 : ∃ (s : State) (s₁ : State) (asm : Fin 16) (q x : Nat) (c : Card),
    s.bit (R.qmAsmCfg asm) 0 = true ∧
    (s.asm asm).closing = false ∧
    q = s.asmSrc asm ∧
    x = s.qCtx (s.asmDst asm) ∧
    s.qHead q = some c ∧
    Card.tag c = 0x20 ∧
    (s.dequeue .asm (some x) q (fun _ => false) = (s₁, .card c)) ∧
    (1 ≤ reqRows c ∧ reqRows c ≤ 64) ∧
    s₁.inPartition x (reqPtr c) 1 = true ∧
    (s.asm asm).rows + reqRows c ≤ s₁.asmTarget asm :=
  ⟨asmState 1 {} 1, (asmState 1 {} 1).takeCard 1100, 0, _, _, servReq, by decide +kernel, by decide +kernel, rfl, rfl, by decide +kernel, by decide +kernel, by decide +kernel, by decide +kernel, by decide +kernel, by decide +kernel⟩

theorem test_witness_CardAndBatchCommandsComplete_11 : ∃ (s : State) (asm : Fin 16),
    s.bit (R.qmAsmCfg asm) 0 = true ∧
    (s.asm asm).reqs ≠ [] ∧
    (s.asm asm).closing = false :=
  ⟨asmState 1 { reqs := [servReq] } 0, 0, by decide +kernel, by decide +kernel, by decide +kernel⟩

theorem test_witness_CardAndBatchCommandsComplete_12 : ∃ (s : State) (s₁ s₂ s₃ : State) (asm : Fin 16) (a : Assembler) (d n place : Nat) (bs : List Byte),
    a = s.asm asm ∧
    d = s.asmDst asm ∧
    n = s.asmNext asm ∧
    place = s.asmBase asm + 1024 * n ∧
    bs = batchRecord 0 a.reqs ∧
    s.bit (R.qmAsmCfg asm) 0 = true ∧
    (a.closing = true ∧ a.next = none) ∧
    (s.qEn d = true ∧ s.qFull d = false) ∧
    (a.recBusy.any (fun r => r.1 == n) = false) ∧
    s₁ = (s.memWrite place (bs ++ List.replicate (1024 - bs.length) 0)).accept d (batchCard (s.qCtx d) asm n place a.reqs) ∧
    s₂ = s₁.count (R.qmAsmBatchCnt asm) 1 ∧
    s₃ = s₂.setFld (R.qmAsmState asm) 19 14 ((n + 1) % 64) ∧
    s₂.now ≤ a.t0 + s₂.asmDeadline asm :=
  ⟨asmState 1 { reqs := [servReq], closing := true } 0, _, _, _, 0, _, _, _, _, _, rfl, rfl, rfl, rfl, rfl, by decide +kernel, by decide +kernel, by decide +kernel, by decide +kernel, rfl, rfl, rfl, by decide +kernel⟩

theorem test_witness_SequencerControlInstructionsComplete_1 : ∃ (s : State) (s₁ : State) (q : Fin 4) (w : BitVec 32),
    s.seqReady q 0 = true ∧
    s₁ = s.seqBegin q 0 ∧
    w = s.seqWord q :=
  ⟨seqAt (BitVec.ofNat 32 (0 * 2 ^ 26 + 0)) ({}) [], _, 0, _, by decide +kernel, rfl, rfl⟩

theorem test_witness_SequencerControlInstructionsComplete_2 : ∃ (s : State) (s₁ : State) (q : Fin 4) (w : BitVec 32),
    s.seqReady q 1 = true ∧
    s₁ = s.seqBegin q 1 ∧
    w = s.seqWord q :=
  ⟨seqAt (BitVec.ofNat 32 (1 * 2 ^ 26 + 0)) ({}) [], _, 0, _, by decide +kernel, rfl, rfl⟩

theorem test_witness_SequencerControlInstructionsComplete_3 : ∃ (s : State) (s₁ : State) (q : Fin 4) (w : BitVec 32),
    s.seqReady q 2 = true ∧
    s₁ = s.seqBegin q 2 ∧
    w = s.seqWord q :=
  ⟨seqAt (BitVec.ofNat 32 (2 * 2 ^ 26 + 0)) ({}) [], _, 0, _, by decide +kernel, rfl, rfl⟩

theorem test_witness_SequencerControlInstructionsComplete_4 : ∃ (s : State) (s₁ : State) (q : Fin 4) (w : BitVec 32),
    s.seqReady q 3 = true ∧
    s₁ = s.seqBegin q 3 ∧
    w = s.seqWord q :=
  ⟨seqAt (BitVec.ofNat 32 (3 * 2 ^ 26 + 0)) ({}) [], _, 0, _, by decide +kernel, rfl, rfl⟩

theorem test_witness_SequencerControlInstructionsComplete_5 : ∃ (s : State) (s₁ : State) (q : Fin 4) (w : BitVec 32),
    s.seqReady q 4 = true ∧
    s₁ = s.seqBegin q 4 ∧
    w = s.seqWord q ∧
    bits w 0 0 = 0 :=
  ⟨seqAt (BitVec.ofNat 32 (4 * 2 ^ 26 + 0)) ({}) [], _, 0, _, by decide +kernel, rfl, rfl, by decide +kernel⟩

theorem test_witness_SequencerControlInstructionsComplete_6 : ∃ (s : State) (s₁ : State) (q : Fin 4) (w : BitVec 32),
    s.seqReady q 4 = true ∧
    s₁ = s.seqBegin q 4 ∧
    w = s.seqWord q ∧
    bits w 0 0 = 1 :=
  ⟨seqAt (BitVec.ofNat 32 (4 * 2 ^ 26 + 1)) ({}) [], _, 0, _, by decide +kernel, rfl, rfl, by decide +kernel⟩

theorem test_witness_SequencerControlInstructionsComplete_7 : ∃ (s : State) (s₁ : State) (q : Fin 4) (w : BitVec 32),
    s.seqReady q 5 = true ∧
    s₁ = s.seqBegin q 5 ∧
    w = s.seqWord q ∧
    stgCond (bits w 17 15) (s₁.g q (swA w)) (s₁.g q (swB w)) = true :=
  ⟨seqAt (BitVec.ofNat 32 (5 * 2 ^ 26 + 0)) ({}) [], _, 0, _, by decide +kernel, rfl, rfl, by decide +kernel⟩

theorem test_witness_SequencerControlInstructionsComplete_8 : ∃ (s : State) (s₁ : State) (q : Fin 4) (w : BitVec 32),
    s.seqReady q 5 = true ∧
    s₁ = s.seqBegin q 5 ∧
    w = s.seqWord q ∧
    stgCond (bits w 17 15) (s₁.g q (swA w)) (s₁.g q (swB w)) = false :=
  ⟨seqAt (BitVec.ofNat 32 (5 * 2 ^ 26 + 2 ^ 15)) ({}) [], _, 0, _, by decide +kernel, rfl, rfl, by decide +kernel⟩

theorem test_witness_SequencerControlInstructionsComplete_9 : ∃ (s : State) (s₁ : State) (q : Fin 4) (w : BitVec 32),
    s.seqReady q 6 = true ∧
    s₁ = s.seqBegin q 6 ∧
    w = s.seqWord q :=
  ⟨seqAt (BitVec.ofNat 32 (6 * 2 ^ 26 + 0)) ({}) [], _, 0, _, by decide +kernel, rfl, rfl⟩

theorem test_witness_SequencerControlInstructionsComplete_10 : ∃ (s : State) (s₁ : State) (q : Fin 4) (w : BitVec 32) (a : Nat),
    s.seqReady q 7 = true ∧
    s₁ = s.seqBegin q 7 ∧
    w = s.seqWord q ∧
    (s₁.seq q).link = some a :=
  ⟨seqAt (BitVec.ofNat 32 (7 * 2 ^ 26 + 0)) ({ link := some 5 }) [], _, 0, _, 5, by decide +kernel, rfl, rfl, by decide +kernel⟩

theorem test_witness_SequencerControlInstructionsComplete_11 : ∃ (s : State) (s₁ : State) (q : Fin 4) (w : BitVec 32),
    s.seqReady q 8 = true ∧
    s₁ = s.seqBegin q 8 ∧
    w = s.seqWord q :=
  ⟨seqAt (BitVec.ofNat 32 (8 * 2 ^ 26 + 0)) ({}) [], _, 0, _, by decide +kernel, rfl, rfl⟩

theorem test_witness_SequencerMemoryInstructionsComplete_1 : ∃ (s : State) (s₁ : State) (q : Fin 4) (w : BitVec 32) (a : Nat),
    s.seqReady q 9 = true ∧
    s₁ = s.seqBegin q 9 ∧
    w = s.seqWord q ∧
    s₁.dataAddr q w = some a :=
  ⟨seqAt (BitVec.ofNat 32 (9 * 2 ^ 26 + 0)) ({}) [], _, 0, _, 0, by decide +kernel, rfl, rfl, by decide +kernel⟩

theorem test_witness_SequencerMemoryInstructionsComplete_2 : ∃ (s : State) (s₁ : State) (q : Fin 4) (w : BitVec 32) (a : Nat),
    s.seqReady q 10 = true ∧
    s₁ = s.seqBegin q 10 ∧
    w = s.seqWord q ∧
    s₁.dataAddr q w = some a :=
  ⟨seqAt (BitVec.ofNat 32 (10 * 2 ^ 26 + 0)) ({}) [], _, 0, _, 0, by decide +kernel, rfl, rfl, by decide +kernel⟩

theorem test_witness_SequencerMemoryInstructionsComplete_3 : ∃ (s : State) (s₁ : State) (q : Fin 4) (w : BitVec 32) (s₂ : State) (us : List Upset) (a : Nat) (v : Word),
    s.seqReady q 11 = true ∧
    s₁ = s.seqBegin q 11 ∧
    w = s.seqWord q ∧
    a = (s₁.g q (swB w) + swImm18 w).toNat ∧
    a % 8 = 0 ∧
    s₁.seqReach q a 8 = true ∧
    s₁.seqWaits q a 8 = false ∧
    (s₁.memUpset us).seqRead q a = (s₂, some v) :=
  ⟨seqAt (BitVec.ofNat 32 (11 * 2 ^ 26)) {} [(R.smemcGranule 0, 0x200)], _, 0, _, ((seqAt (BitVec.ofNat 32 (11 * 2 ^ 26)) {} [(R.smemcGranule 0, 0x200)]).seqBegin 0 11 |>.seqRead 0 0).1, [], _, 0, by decide +kernel, rfl, rfl, rfl, by decide +kernel, by decide +kernel, by decide +kernel, by decide +kernel⟩

theorem test_witness_SequencerMemoryInstructionsComplete_4 : ∃ (s : State) (s₁ : State) (q : Fin 4) (w : BitVec 32) (a : Nat),
    s.seqReady q 12 = true ∧
    s₁ = s.seqBegin q 12 ∧
    w = s.seqWord q ∧
    a = (s₁.g q (swB w) + swImm18 w).toNat ∧
    a % 8 = 0 ∧
    s₁.seqReach q a 8 = true ∧
    s₁.seqWaits q a 8 = false :=
  ⟨seqAt (BitVec.ofNat 32 (12 * 2 ^ 26)) {} [(R.smemcGranule 0, 0x200)], _, 0, _, _, by decide +kernel, rfl, rfl, rfl, by decide +kernel, by decide +kernel, by decide +kernel⟩

theorem test_witness_SequencerMemoryInstructionsComplete_5 : ∃ (s : State) (s₁ : State) (q : Fin 4) (w : BitVec 32) (a : Nat),
    s.seqReady q 12 = true ∧
    s₁ = s.seqBegin q 12 ∧
    w = s.seqWord q ∧
    a = (s₁.g q (swB w) + swImm18 w).toNat ∧
    (a % 8 ≠ 0 ∨ s₁.seqReach q a 8 = false) :=
  ⟨seqAt (BitVec.ofNat 32 (12 * 2 ^ 26 + 0)) ({}) [], _, 0, _, _, by decide +kernel, rfl, rfl, rfl, by decide +kernel⟩

theorem test_witness_SequencerMemoryInstructionsComplete_6 : ∃ (s : State) (s₁ : State) (q : Fin 4) (w : BitVec 32) (s₂ : State) (us : List Upset) (a : Nat) (v : Word),
    s.seqReady q 13 = true ∧
    s₁ = s.seqBegin q 13 ∧
    w = s.seqWord q ∧
    a = (s₁.g q (swB w)).toNat ∧
    a % 8 = 0 ∧
    s₁.seqReach q a 8 = true ∧
    s₁.seqWaits q a 8 = false ∧
    (s₁.memUpset us).seqRead q a = (s₂, some v) :=
  ⟨seqAt (BitVec.ofNat 32 (13 * 2 ^ 26)) {} [(R.smemcGranule 0, 0x200)], _, 0, _, ((seqAt (BitVec.ofNat 32 (13 * 2 ^ 26)) {} [(R.smemcGranule 0, 0x200)]).seqBegin 0 13 |>.seqRead 0 0).1, [], _, 0, by decide +kernel, rfl, rfl, rfl, by decide +kernel, by decide +kernel, by decide +kernel, by decide +kernel⟩

theorem test_witness_SequencerMemoryInstructionsComplete_7 : ∃ (s : State) (s₁ : State) (q : Fin 4) (w : BitVec 32) (s₂ : State) (us : List Upset) (a n : Nat) (f : Fmt) (bs : List Byte),
    s.seqReady q 14 = true ∧
    s₁ = s.seqBegin q 14 ∧
    w = s.seqWord q ∧
    a = (s₁.g q (swB w)).toNat ∧
    n = (s₁.g q (swC w)).toNat ∧
    f = fmtOf (bits w 9 5) ∧
    a % execMcnt.esizeAlignOf (countBytes f) = 0 ∧
    s₁.seqReach q a n = true ∧
    s₁.seqWaits q a n = false ∧
    (s₁.memUpset us).memRead a n = (s₂, bs, none) :=
  ⟨seqAt (BitVec.ofNat 32 (14 * 2 ^ 26)) {} [(R.smemcGranule 0, 0x200)], _, 0, _, ((seqAt (BitVec.ofNat 32 (14 * 2 ^ 26)) {} [(R.smemcGranule 0, 0x200)]).seqBegin 0 14 |>.memRead 0 0).1, [], _, _, _, [], by decide +kernel, rfl, rfl, rfl, rfl, rfl, by decide +kernel, by decide +kernel, by decide +kernel, by decide +kernel⟩

theorem test_witness_SequencerMemoryInstructionsComplete_8 : ∃ (s : State) (s₁ : State) (q : Fin 4) (w : BitVec 32),
    s.seqReady q 15 = true ∧
    s₁ = s.seqBegin q 15 ∧
    w = s.seqWord q :=
  ⟨seqAt (BitVec.ofNat 32 (15 * 2 ^ 26 + 0)) ({}) [], _, 0, _, by decide +kernel, rfl, rfl⟩

theorem test_witness_SequencerMemoryInstructionsComplete_9 : ∃ (s : State) (s₁ : State) (q : Fin 4) (w : BitVec 32) (v : Nat),
    s.seqReady q 16 = true ∧
    s₁ = s.seqBegin q 16 ∧
    w = s.seqWord q ∧
    v = (s₁.g q (swB w)).toNat ∧
    (v = 0xFFF ∨ (v < 4095 ∧ s₁.seqQueue q v = true) ∨ (0x1000 ≤ v ∧ s₁.seqPort q (v - 0x1000) = true)) :=
  ⟨seqAt (BitVec.ofNat 32 (16 * 2 ^ 26 + 2 ^ 18)) ({}) [(R.stgGreg 0 1, 0xFFF)], _, 0, _, _, by decide +kernel, rfl, rfl, rfl, by decide +kernel⟩

theorem test_witness_SequencerMemoryInstructionsComplete_10 : ∃ (s : State) (s₁ : State) (q : Fin 4) (w : BitVec 32) (e : Nat),
    s.seqReady q 17 = true ∧
    s₁ = s.seqBegin q 17 ∧
    w = s.seqWord q ∧
    e = s₁.seqEvents q &&& bits w 11 0 ∧
    e ≠ 0 :=
  ⟨seqAt (BitVec.ofNat 32 (17 * 2 ^ 26 + 512)) ({ events := 512 }) [], _, 0, _, _, by decide +kernel, rfl, rfl, rfl, by decide +kernel⟩

theorem test_witness_SequencerMemoryInstructionsComplete_11 : ∃ (s : State) (s₁ : State) (q : Fin 4) (w : BitVec 32),
    s.seqReady q 17 = true ∧
    s₁ = s.seqBegin q 17 ∧
    w = s.seqWord q ∧
    s₁.seqEvents q &&& bits w 11 0 = 0 ∧
    s₁.seqState q = 2 :=
  ⟨seqAt (BitVec.ofNat 32 (17 * 2 ^ 26 + 0)) ({}) [], _, 0, _, by decide +kernel, rfl, rfl, by decide +kernel, by decide +kernel⟩

theorem test_witness_SequencerMemoryInstructionsComplete_12 : ∃ (s : State) (s₁ : State) (q : Fin 4) (w : BitVec 32),
    s.seqReady q 18 = true ∧
    s₁ = s.seqBegin q 18 ∧
    w = s.seqWord q :=
  ⟨seqAt (BitVec.ofNat 32 (18 * 2 ^ 26 + 0)) ({}) [], _, 0, _, by decide +kernel, rfl, rfl⟩

theorem test_witness_SequencerMemoryInstructionsComplete_13 : ∃ (s : State) (q : Fin 4),
    (s.seq q).timer ≠ 0 :=
  ⟨seqAt 0 { timer := 5 }, 0, by decide +kernel⟩

theorem test_witness_SequencerMemoryInstructionsComplete_14 : ∃ (s : State) (s₁ : State) (q : Fin 4) (w : BitVec 32),
    s.seqReady q 19 = true ∧
    s₁ = s.seqBegin q 19 ∧
    w = s.seqWord q ∧
    (s₁.g q (swB w)).toNat ≤ s₁.epoch :=
  ⟨seqAt (BitVec.ofNat 32 (19 * 2 ^ 26 + 0)) ({}) [], _, 0, _, by decide +kernel, rfl, rfl, by decide +kernel⟩

theorem test_witness_SequencerMemoryInstructionsComplete_15 : ∃ (s : State) (s₁ : State) (q : Fin 4) (w : BitVec 32),
    s.seqReady q 19 = true ∧
    s₁ = s.seqBegin q 19 ∧
    w = s.seqWord q ∧
    s₁.epoch < (s₁.g q (swB w)).toNat ∧
    s₁.seqState q = 2 :=
  ⟨seqAt (BitVec.ofNat 32 (19 * 2 ^ 26 + 2 ^ 18)) ({}) [(R.stgGreg 0 1, 5)], _, 0, _, by decide +kernel, rfl, rfl, by decide +kernel, by decide +kernel⟩

theorem test_witness_SequencerCardInstructionsComplete_1 : ∃ (s : State) (s₁ : State) (q : Fin 4) (w : BitVec 32) (s₂ : State) (n : Nat) (x : Option Nat) (c : Card),
    s.seqReady q 24 = true ∧
    s₁ = s.seqBegin q 24 ∧
    w = s.seqWord q ∧
    n = queueNo (s₁.g q (swB w)) ∧
    x = s₁.seqCtx q ∧
    s₁.dequeue .seq x n (s₁.otherCtx n x) = (s₂, .card c) :=
  ⟨seqAt (BitVec.ofNat 32 (24 * 2 ^ 26 + 2 ^ 18)) ({}) [(R.qselQcfg 1100, 1 + 4 * 2), (R.qselQring 1100, 0x40000), (R.qselQptr 1100, 1), (R.stgGreg 0 1, 1100)], _, 0, _, (seqAt (BitVec.ofNat 32 (0x18 * 2 ^ 26 + 2 ^ 18)) {} [(R.qselQcfg 1100, 1 + 4 * 2), (R.qselQring 1100, 0x40000), (R.qselQptr 1100, 1), (R.stgGreg 0 1, 1100)]).seqBegin 0 0x18 |>.takeCard 1100, 1100, some 0, 0, by decide +kernel, rfl, rfl, rfl, rfl, by decide +kernel⟩

theorem test_witness_SequencerCardInstructionsComplete_2 : ∃ (s : State) (s₁ : State) (q : Fin 4) (w : BitVec 32) (s₂ : State) (n : Nat) (x : Option Nat),
    s.seqReady q 24 = true ∧
    s₁ = s.seqBegin q 24 ∧
    w = s.seqWord q ∧
    n = queueNo (s₁.g q (swB w)) ∧
    x = s₁.seqCtx q ∧
    s₁.dequeue .seq x n (s₁.otherCtx n x) = (s₂, .empty) :=
  ⟨seqAt (BitVec.ofNat 32 (24 * 2 ^ 26 + 2 ^ 18)) ({}) [(R.qselQcfg 1100, 1 + 4 * 2), (R.qselQring 1100, 0x40000), (R.stgGreg 0 1, 1100)], _, 0, _, (seqAt (BitVec.ofNat 32 (0x18 * 2 ^ 26 + 2 ^ 18)) {} [(R.qselQcfg 1100, 1 + 4 * 2), (R.qselQring 1100, 0x40000), (R.stgGreg 0 1, 1100)]).seqBegin 0 0x18 |>.globalEvent 40 3 1, 1100, some 0, by decide +kernel, rfl, rfl, rfl, rfl, by decide +kernel⟩

theorem test_witness_SequencerCardInstructionsComplete_3 : ∃ (s : State) (s₁ : State) (q : Fin 4) (w : BitVec 32) (s₂ : State) (n : Nat) (c : Card) (r : EnqStatus),
    s.seqReady q 25 = true ∧
    s₁ = s.seqBegin q 25 ∧
    w = s.seqWord q ∧
    n = queueNo (s₁.g q (swB w)) ∧
    c = s₁.forced q (s₁.seqCard q (swN w)) ∧
    s₁.qClass n ≠ 0 ∧
    s₁.offer .seq (s₁.seqCtx q) n c = (s₂, r) :=
  ⟨seqAt (BitVec.ofNat 32 (25 * 2 ^ 26 + 2 ^ 18)) ({}) [(R.qselQcfg 1100, 1 + 4 * 2), (R.qselQring 1100, 0x40000), (R.stgGreg 0 1, 1100)], _, 0, _, ((seqAt (BitVec.ofNat 32 (0x19 * 2 ^ 26 + 2 ^ 18)) {} [(R.qselQcfg 1100, 1 + 4 * 2), (R.qselQring 1100, 0x40000), (R.stgGreg 0 1, 1100)]).seqBegin 0 0x19 |>.offer .seq (some 0) 1100 ((seqAt 0).forced 0 0)).1, _, _, .tag, by decide +kernel, rfl, rfl, rfl, rfl, by decide +kernel, by decide +kernel⟩

theorem test_witness_SequencerCardInstructionsComplete_4 : ∃ (s : State) (s₁ : State) (q : Fin 4) (w : BitVec 32),
    s.seqReady q 26 = true ∧
    s₁ = s.seqBegin q 26 ∧
    w = s.seqWord q :=
  ⟨seqAt (BitVec.ofNat 32 (26 * 2 ^ 26 + 0)) ({}) [], _, 0, _, by decide +kernel, rfl, rfl⟩

theorem test_witness_SequencerCardInstructionsComplete_5 : ∃ (s : State) (s₁ : State) (q : Fin 4) (w : BitVec 32),
    s.seqReady q 27 = true ∧
    s₁ = s.seqBegin q 27 ∧
    w = s.seqWord q :=
  ⟨seqAt (BitVec.ofNat 32 (27 * 2 ^ 26 + 0)) ({}) [], _, 0, _, by decide +kernel, rfl, rfl⟩

theorem test_witness_SequencerCardInstructionsComplete_6 : ∃ (s : State) (s₁ : State) (q : Fin 4) (w : BitVec 32),
    s.seqReady q 28 = true ∧
    s₁ = s.seqBegin q 28 ∧
    w = s.seqWord q ∧
    bits w 0 0 = 0 :=
  ⟨seqAt (BitVec.ofNat 32 (28 * 2 ^ 26 + 0)) ({}) [], _, 0, _, by decide +kernel, rfl, rfl, by decide +kernel⟩

theorem test_witness_SequencerCardInstructionsComplete_7 : ∃ (s : State) (s₁ : State) (q : Fin 4) (w : BitVec 32),
    s.seqReady q 28 = true ∧
    s₁ = s.seqBegin q 28 ∧
    w = s.seqWord q ∧
    bits w 0 0 = 1 :=
  ⟨seqAt (BitVec.ofNat 32 (28 * 2 ^ 26 + 1)) ({}) [], _, 0, _, by decide +kernel, rfl, rfl, by decide +kernel⟩

theorem test_witness_SequencerCardInstructionsComplete_8 : ∃ (s : State) (s₁ : State) (q : Fin 4) (w : BitVec 32) (n : Nat),
    s.seqReady q 29 = true ∧
    s₁ = s.seqBegin q 29 ∧
    w = s.seqWord q ∧
    n = queueNo (s₁.g q (swB w)) ∧
    s₁.qEn n = true ∧
    ((s₁.seqCtx q = none ∧ s₁.qClass n ≠ 0) ∨ (3 ≤ s₁.qClass n ∧ s₁.seqCtx q = some (s₁.qCtx n)) ∨ ∃ x, (s₁.qClass n = 1 ∨ s₁.qClass n = 2) ∧ s₁.seqCtx q = some x ∧ ∀ c ∈ s₁.qCards n, Card.ctx c = x) :=
  ⟨seqAt (BitVec.ofNat 32 (29 * 2 ^ 26 + 2 ^ 18)) {} [(R.qselQcfg 1100, 1 + 4 * 2), (R.qselQring 1100, 0x40000), (R.stgGreg 0 1, 1100)], _, 0, _, _, by decide +kernel, rfl, rfl, rfl, by decide +kernel, .inr (.inl (by decide +kernel))⟩

theorem test_witness_SequencerCardInstructionsComplete_9 : ∃ (s : State) (s₁ : State) (q : Fin 4) (w : BitVec 32) (p : Nat) (c : Card) (rest : List Card),
    s.seqReady q 30 = true ∧
    s₁ = s.seqBegin q 30 ∧
    w = s.seqWord q ∧
    p = (s₁.g q (swB w)).toNat ∧
    s₁.seqPort q p = true ∧
    (s₁.rx p).fifo = c :: rest :=
  ⟨rxState, _, 0, _, _, 0, [], by decide +kernel, rfl, rfl, rfl, by decide +kernel, by decide +kernel⟩

theorem test_witness_SequencerCardInstructionsComplete_10 : ∃ (s : State) (s₁ : State) (q : Fin 4) (w : BitVec 32) (p : Nat),
    s.seqReady q 30 = true ∧
    s₁ = s.seqBegin q 30 ∧
    w = s.seqWord q ∧
    p = (s₁.g q (swB w)).toNat ∧
    s₁.seqPort q p = true ∧
    (s₁.rx p).fifo = [] :=
  ⟨seqAt (BitVec.ofNat 32 (30 * 2 ^ 26 + 0)) ({ level := 1 }) [(R.qmPortRx 0, 1)], _, 0, _, _, by decide +kernel, rfl, rfl, rfl, by decide +kernel, by decide +kernel⟩

theorem test_witness_SequencerCardInstructionsComplete_11 : ∃ (s : State) (s₁ : State) (q : Fin 4) (w : BitVec 32) (p : Nat),
    s.seqReady q 31 = true ∧
    s₁ = s.seqBegin q 31 ∧
    w = s.seqWord q ∧
    p = (s₁.g q (swB w)).toNat ∧
    s₁.seqPort q p = true :=
  ⟨seqAt (BitVec.ofNat 32 (31 * 2 ^ 26 + 0)) ({ level := 1 }) [(R.qmPortRx 0, 1)], _, 0, _, _, by decide +kernel, rfl, rfl, rfl, by decide +kernel⟩

theorem test_witness_SequencerCardInstructionsComplete_12 : ∃ (s : State) (s₁ : State) (q : Fin 4) (w : BitVec 32) (s₂ : State) (c : Card) (r : EnqStatus),
    s.seqReady q 32 = true ∧
    s₁ = s.seqBegin q 32 ∧
    w = s.seqWord q ∧
    c = s₁.dispCard q w ∧
    (Card.tag c = 0x01 ∧ Card.jUnit c ≤ 170) ∧
    s₁.offer .seq (s₁.seqCtx q) (4 * Card.jUnit c) c = (s₂, r) :=
  ⟨seqAt (BitVec.ofNat 32 (32 * 2 ^ 26 + 0)) ({ cards := [(0, 1)] }) [], _, 0, _, ((seqAt (BitVec.ofNat 32 (0x20 * 2 ^ 26)) { cards := [(0, 1)] }).seqBegin 0 0x20 |>.offer .seq (some 0) 0 1).1, _, .refused, by decide +kernel, rfl, rfl, rfl, by decide +kernel, by decide +kernel⟩

theorem test_witness_SequencerCardInstructionsComplete_13 : ∃ (s : State) (s₁ : State) (q : Fin 4) (w : BitVec 32) (s₂ s₃ : State) (a x n : Nat) (bs : List Byte) (es : List SchedEntry),
    s.seqReady q 33 = true ∧
    s₁ = s.seqBegin q 33 ∧
    w = s.seqWord q ∧
    a = (s₁.g q (swB w)).toNat ∧
    x = s₁.granOwner (smGranule a) ∧
    n = 4 * s₁.tableRead a 4096 ∧
    s₁.seqReach q a n = true ∧
    s₁.seqWaits q a n = false ∧
    s₁.tableEntries a 4096 = some es ∧
    s₁.memRead a n = (s₂, bs, none) ∧
    s₃ = s₂.seqBytes q n ∧
    s₃.tableOk q es = true :=
  ⟨seqAt (BitVec.ofNat 32 (33 * 2 ^ 26)) {} [(R.smemcGranule 0, 0x200)], _, 0, _, ((seqAt (BitVec.ofNat 32 (33 * 2 ^ 26)) {} [(R.smemcGranule 0, 0x200)]).seqBegin 0 0x21 |>.memRead 0 4).1, _, _, _, _, [0, 0, 0, 0], [], by decide +kernel, rfl, rfl, rfl, rfl, rfl, by decide +kernel, by decide +kernel, by decide +kernel, by decide +kernel, rfl, by decide +kernel⟩

theorem test_witness_SequencerCardInstructionsComplete_14 : ∃ (s : State) (s₁ : State) (q : Fin 4) (w : BitVec 32) (s₂ : State) (us : List Upset) (t : BoundTable) (bs : List Byte) (e : SchedEntry) (v : Word) (acc : Nat),
    s.seqReady q 34 = true ∧
    s₁ = s.seqBegin q 34 ∧
    w = s.seqWord q ∧
    (s₁.seq q).table = some t ∧
    s₁.seqReach q (t.addr + 4 * t.ptr) 4 = true ∧
    s₁.seqWaits q (t.addr + 4 * t.ptr) 4 = false ∧
    (s₁.memUpset us).memRead (t.addr + 4 * t.ptr) 4 = (s₂, bs, none) ∧
    e = BitVec.ofNat 32 (leNat bs) ∧
    SchedEntry.op e ≠ 0 ∧
    v = s₂.rd (R.qmVsmap q (SchedEntry.vstage e)) ∧
    bits v 53 53 ≠ 0 ∧
    (acc = (t.accBase + if SchedEntry.op e = 5 then t.maxMb else SchedEntry.mb e) % 2 ^ 32) :=
  ⟨tnextState, _, 0, _, (tnextState.seqBegin 0 0x22).memRead 0 4 |>.1, [], { addr := 0, entries := 1, ctx := 0, accBase := 0 }, [1, 0, 0, 0], _, _, _, by decide +kernel, rfl, rfl, by decide +kernel, by decide +kernel, by decide +kernel, by decide +kernel, rfl, by decide +kernel, rfl, by decide +kernel, rfl⟩

theorem test_witness_SequencerCardInstructionsComplete_15 : ∃ (s : State) (s₁ : State) (q : Fin 4) (w : BitVec 32) (s₂ : State) (us : List Upset) (t : BoundTable) (bs : List Byte) (x : Nat),
    s.seqReady q 34 = true ∧
    s₁ = s.seqBegin q 34 ∧
    w = s.seqWord q ∧
    (s₁.seq q).table = some t ∧
    s₁.seqReach q (t.addr + 4 * t.ptr) 4 = true ∧
    s₁.seqWaits q (t.addr + 4 * t.ptr) 4 = false ∧
    (s₁.memUpset us).memRead (t.addr + 4 * t.ptr) 4 = (s₂, bs, none) ∧
    SchedEntry.op (BitVec.ofNat 32 (leNat bs)) = 0 ∧
    (s₁.seqCtx q = some x ∧ (s₂.seqPut q w 0).seqCtx q = some x) :=
  ⟨seqAt (BitVec.ofNat 32 (0x22 * 2 ^ 26)) { table := some { addr := 0, entries := 1, ctx := 0, accBase := 0 } } [(R.smemcGranule 0, 0x200)], _, 0, _, ((seqAt (BitVec.ofNat 32 (0x22 * 2 ^ 26)) { table := some { addr := 0, entries := 1, ctx := 0, accBase := 0 } } [(R.smemcGranule 0, 0x200)]).seqBegin 0 0x22 |>.memRead 0 4).1, [], { addr := 0, entries := 1, ctx := 0, accBase := 0 }, [0, 0, 0, 0], 0, by decide +kernel, rfl, rfl, by decide +kernel, by decide +kernel, by decide +kernel, by decide +kernel, by decide +kernel, by decide +kernel⟩

theorem test_witness_SequencerCardInstructionsComplete_16 : ∃ (s : State) (s₁ : State) (q : Fin 4) (w : BitVec 32) (m c d : Card),
    s.seqReady q 35 = true ∧
    s₁ = s.seqBegin q 35 ∧
    w = s.seqWord q ∧
    m = s₁.seqCard q (swM w) ∧
    c = setBits (setBits (s₁.seqCard q (swN w)) 115 96 (Card.srcChip m)) 127 116 (Card.slice m) ∧
    d = setBits (setBits (setBits c 511 500 (Card.get m 38 2 % 4096)) 486 480 (Card.xPool m)) 498 487 (Card.xFirst m) ∧
    (Card.tag m = 0x10 ∨ Card.tag m = 0x11) :=
  ⟨seqAt (BitVec.ofNat 32 (35 * 2 ^ 26 + 0)) ({ cards := [(0, 0x11)] }) [], _, 0, _, _, _, _, by decide +kernel, rfl, rfl, rfl, rfl, rfl, by decide +kernel⟩

theorem test_witness_SequencerCardInstructionsComplete_17 : ∃ (s : State) (s₁ : State) (q : Fin 4) (w : BitVec 32) (h n b z : Nat) (p : Program),
    s.seqReady q 36 = true ∧
    s₁ = s.seqBegin q 36 ∧
    w = s.seqWord q ∧
    h = (s₁.g q (swA w)).toNat ∧
    n = (s₁.g q (swB w)).toNat ∧
    b = (s₁.g q (swC w)).toNat ∧
    z = (s₁.g q (swD w)).toNat ∧
    p = s₁.progs.get {} h ∧
    h < 1024 ∧
    (s₁.seqCtx q = none ∨ (s₁.seqCtx q = some p.ctx ∧ p.code ≠ [])) ∧
    (n < 16 ∧ b % 4096 = 0 ∧ z % 4096 = 0 ∧ b < 2 ^ 34 ∧ z < 2 ^ 35) :=
  ⟨pwinState, _, 0, _, _, _, _, _, _, by decide +kernel, rfl, rfl, rfl, rfl, rfl, rfl, rfl, by decide +kernel, by decide +kernel, by decide +kernel⟩

theorem test_witness_TransferInstructionsComplete_1 : ∃ (s : State) (s₁ : State) (q : Fin 4) (w : BitVec 32) (s₀ s₂ s₃ : State) (k : Nat) (c : Card),
    s.seqReady q 40 = true ∧
    s₁ = s.seqBegin q 40 ∧
    w = s.seqWord q ∧
    k = swK w ∧
    c = s₁.seqCard q (swN w) ∧
    (s₁.slotState q k = 0 ∨ s₁.slotState q k = 3) ∧
    c.sendOk = true ∧
    (s₀ = (if s₁.slotState q k = 3 then s₁.advanceTo ((s₁.slot q k).since + uclk 64) else s₁)) ∧
    s₂ = s₀.setSlot q k { card := c, origin := s₀.seqOrigin q (swN w), since := s₀.now } ∧
    s₃ = s₂.setFld (R.stgXslot q k) 24 23 (s₂.slotGen q k + 1) :=
  ⟨seqAt (BitVec.ofNat 32 (40 * 2 ^ 26 + 0)) ({ cards := [(0, sendCard)] }) [], _, 0, _, _, _, _, _, _, by decide +kernel, rfl, rfl, rfl, rfl, by decide +kernel, by decide +kernel, rfl, rfl, rfl⟩

theorem test_witness_TransferInstructionsComplete_2 : ∃ (s : State) (s₁ : State) (q : Fin 4) (w : BitVec 32),
    s.seqReady q 41 = true ∧
    s₁ = s.seqBegin q 41 ∧
    w = s.seqWord q :=
  ⟨seqAt (BitVec.ofNat 32 (41 * 2 ^ 26 + 0)) ({}) [], _, 0, _, by decide +kernel, rfl, rfl⟩

theorem test_witness_TransferInstructionsComplete_3 : ∃ (s : State) (s₁ : State) (q : Fin 4) (w : BitVec 32) (s₂ : State) (us : List Upset) (k : Nat) (c : Card),
    s.seqReady q 42 = true ∧
    s₁ = s.seqBegin q 42 ∧
    w = s.seqWord q ∧
    k = swK w ∧
    c = (s₁.slot q k).card ∧
    s₁.slotState q k = 2 ∧
    s₁.seqReach q (Card.sSrc c) (Card.sBytes c) = true ∧
    s₁.seqWaits q (Card.sSrc c) (Card.sBytes c) = false ∧
    s₂ = ((s₁.memUpset us).sendLead q k).setSlotState q k 6 :=
  ⟨seqAt (BitVec.ofNat 32 (42 * 2 ^ 26)) { slots := [(0, { card := sendCard })] } [(R.stgXslot 0 0, 2), (R.smemcGranule 0, 0x200)], _, 0, _, _, [], _, _, by decide +kernel, rfl, rfl, rfl, rfl, by decide +kernel, by decide +kernel, by decide +kernel, rfl⟩

theorem test_witness_TransferInstructionsComplete_4 : ∃ (s : State) (s₁ : State) (q : Fin 4) (w : BitVec 32) (k b : Nat),
    s.seqReady q 43 = true ∧
    s₁ = s.seqBegin q 43 ∧
    w = s.seqWord q ∧
    k = swK w ∧
    b = 16 * q.val + bits w 7 4 ∧
    s₁.slotState q k = 2 ∧
    (((List.range 16).any fun j => s₁.slotState q j == 7 && (s₁.slot q j).buffer == some b) = false) :=
  ⟨seqAt (BitVec.ofNat 32 (43 * 2 ^ 26 + 0)) ({}) [(R.stgXslot 0 0, 2)], _, 0, _, _, _, by decide +kernel, rfl, rfl, rfl, rfl, by decide +kernel, by decide +kernel⟩

theorem test_witness_TransferInstructionsComplete_5 : ∃ (s : State) (s₁ : State) (q : Fin 4) (w : BitVec 32) (k : Nat),
    s.seqReady q 44 = true ∧
    s₁ = s.seqBegin q 44 ∧
    w = s.seqWord q ∧
    k = swK w ∧
    (s₁.slotState q k = 6 ∨ s₁.slotState q k = 8 ∨ s₁.slotState q k = 10) ∧
    s₁.seqState q = 2 :=
  ⟨seqAt (BitVec.ofNat 32 (44 * 2 ^ 26 + 0)) ({}) [(R.stgXslot 0 0, 8)], _, 0, _, _, by decide +kernel, rfl, rfl, rfl, by decide +kernel, by decide +kernel⟩

theorem test_witness_TransferInstructionsComplete_6 : ∃ (s : State) (s₁ : State) (q : Fin 4) (w : BitVec 32) (k : Nat),
    s.seqReady q 44 = true ∧
    s₁ = s.seqBegin q 44 ∧
    w = s.seqWord q ∧
    k = swK w ∧
    s₁.slotState q k = 7 ∧
    s₁.seqState q = 2 :=
  ⟨seqAt (BitVec.ofNat 32 (44 * 2 ^ 26 + 0)) ({}) [(R.stgXslot 0 0, 7)], _, 0, _, _, by decide +kernel, rfl, rfl, rfl, by decide +kernel, by decide +kernel⟩

theorem test_witness_TransferInstructionsComplete_7 : ∃ (s : State) (s₁ : State) (q : Fin 4) (w : BitVec 32) (k : Nat),
    s.seqReady q 45 = true ∧
    s₁ = s.seqBegin q 45 ∧
    w = s.seqWord q ∧
    k = swK w ∧
    (s₁.slotState q k = 3 ∨ s₁.slotState q k = 4 ∨ s₁.slotState q k = 9) :=
  ⟨seqAt (BitVec.ofNat 32 (45 * 2 ^ 26 + 0)) ({}) [(R.stgXslot 0 0, 9)], _, 0, _, _, by decide +kernel, rfl, rfl, rfl, by decide +kernel⟩

theorem test_witness_TransferInstructionsComplete_8 : ∃ (s : State) (s₁ : State) (q : Fin 4) (w : BitVec 32) (k : Nat),
    s.seqReady q 45 = true ∧
    s₁ = s.seqBegin q 45 ∧
    w = s.seqWord q ∧
    k = swK w ∧
    s₁.slotState q k = 5 ∧
    (s₁.slot q k).freeing = false :=
  ⟨seqAt (BitVec.ofNat 32 (45 * 2 ^ 26)) {} [(R.stgXslot 0 0, 5)], _, 0, _, _, by decide +kernel, rfl, rfl, rfl, by decide +kernel, by decide +kernel⟩

theorem test_witness_TransferInstructionsComplete_9 : ∃ (s : State) (s₁ : State) (q : Fin 4) (w : BitVec 32) (i f n : Nat) (ks : List Nat),
    s.seqReady q 46 = true ∧
    s₁ = s.seqBegin q 46 ∧
    w = s.seqWord q ∧
    i = (s₁.g q (swB w)).toNat ∧
    f = (s₁.g q (swC w)).toNat ∧
    n = (s₁.g q (swD w)).toNat ∧
    ks = slotRun (s₁.poolSlots i) f (min n 4096) ∧
    i < 128 ∧
    (s₁.seqCtx q = none ∨ s₁.seqCtx q = some (s₁.poolCtx i)) ∧
    (f < s₁.poolSlots i ∧ n ≤ s₁.poolSlots i) ∧
    (ks.any (fun k => (s₁.pool i).slots.get 0 k != 2) = false) :=
  ⟨seqAt (BitVec.ofNat 32 (46 * 2 ^ 26 + 0)) ({ level := 1 }) [(R.poolPoolSlots 0, 4)], _, 0, _, _, _, _, _, by decide +kernel, rfl, rfl, rfl, rfl, rfl, rfl, by decide +kernel, by decide +kernel, by decide +kernel, by decide +kernel⟩

theorem test_witness_TransferInstructionsComplete_10 : ∃ (s : State) (s₁ : State) (q : Fin 4) (w : BitVec 32) (d : Nat) (c : Card),
    s.seqReady q 47 = true ∧
    s₁ = s.seqBegin q 47 ∧
    w = s.seqWord q ∧
    d = (s₁.g q (swB w)).toNat % 2 ^ 20 ∧
    c = s₁.forced q (s₁.seqCard q (swN w)) ∧
    s₁.xcardTag q (Card.tag c) = true ∧
    d ≠ s₁.chip :=
  ⟨seqAt (BitVec.ofNat 32 (47 * 2 ^ 26 + 2 ^ 18)) ({ cards := [(0, 0x14)] }) [(R.stgGreg 0 1, 9)], _, 0, _, _, _, by decide +kernel, rfl, rfl, rfl, rfl, by decide +kernel, by decide +kernel⟩

theorem test_witness_TransferInstructionsComplete_11 : ∃ (s : State) (s₁ : State) (q : Fin 4) (w : BitVec 32) (d : Nat) (c : Card),
    s.seqReady q 47 = true ∧
    s₁ = s.seqBegin q 47 ∧
    w = s.seqWord q ∧
    d = (s₁.g q (swB w)).toNat % 2 ^ 20 ∧
    c = s₁.forced q (s₁.seqCard q (swN w)) ∧
    s₁.xcardTag q (Card.tag c) = true ∧
    d = s₁.chip :=
  ⟨seqAt (BitVec.ofNat 32 (47 * 2 ^ 26 + 0)) ({ cards := [(0, 0x14)] }) [], _, 0, _, _, _, by decide +kernel, rfl, rfl, rfl, rfl, by decide +kernel, rfl⟩

theorem test_witness_TransferInstructionsComplete_12 : ∃ (s : State) (q : Fin 4) (k : Fin 16),
    s.slotState q k = 1 ∧
    (s.slot q k).closing = false :=
  ⟨seqAt 0 {} [(R.stgXslot 0 0, 1)], 0, 0, by decide +kernel, by decide +kernel⟩

theorem test_witness_SequencerRegisterAccessAndRunComplete_1 : ∃ (s : State) (s₁ : State) (q : Fin 4) (w : BitVec 32) (s₂ : State) (pg off v : Nat),
    s.seqReady q 48 = true ∧
    s₁ = s.seqBegin q 48 ∧
    w = s.seqWord q ∧
    mmioAt (s₁.g q (swB w)).toNat = some (pg, off) ∧
    off % 4 = 0 ∧
    s₁.mayAccess q pg off 4 false = true ∧
    s₁.readReg q pg off 4 = (s₂, v) :=
  ⟨seqAt (BitVec.ofNat 32 (48 * 2 ^ 26 + 2 ^ 18)) ({}) [(R.stgGreg 0 1, 0x3800198000)], _, 0, _, (((seqAt (BitVec.ofNat 32 (0x30 * 2 ^ 26 + 2 ^ 18)) {} [(R.stgGreg 0 1, 0x3800198000)]).seqBegin 0 0x30).readReg 0 408 0 4).1, 408, 0, (((seqAt (BitVec.ofNat 32 (0x30 * 2 ^ 26 + 2 ^ 18)) {} [(R.stgGreg 0 1, 0x3800198000)]).seqBegin 0 0x30).readReg 0 408 0 4).2, by decide +kernel, rfl, rfl, by decide +kernel, by decide +kernel, by decide +kernel, by decide +kernel⟩

theorem test_witness_SequencerRegisterAccessAndRunComplete_2 : ∃ (s : State) (s₁ : State) (q : Fin 4) (w : BitVec 32) (pg off : Nat),
    s.seqReady q 49 = true ∧
    s₁ = s.seqBegin q 49 ∧
    w = s.seqWord q ∧
    mmioAt (s₁.g q (swB w)).toNat = some (pg, off) ∧
    off % 4 = 0 ∧
    s₁.mayAccess q pg off 4 true = true :=
  ⟨seqAt (BitVec.ofNat 32 (49 * 2 ^ 26 + 2 ^ 18)) ({}) [(R.stgGreg 0 1, 0x3800198000)], _, 0, _, 408, 0, by decide +kernel, rfl, rfl, by decide +kernel, by decide +kernel, by decide +kernel⟩

theorem test_witness_SequencerRegisterAccessAndRunComplete_3 : ∃ (s : State) (s₁ : State) (q : Fin 4) (w : BitVec 32) (pg off : Nat),
    s.seqReady q 49 = true ∧
    s₁ = s.seqBegin q 49 ∧
    w = s.seqWord q ∧
    mmioAt (s₁.g q (swB w)).toNat = some (pg, off) ∧
    off % 4 = 0 ∧
    s₁.mayAccess q pg off 4 true = false :=
  ⟨seqAt (BitVec.ofNat 32 (49 * 2 ^ 26 + 2 ^ 18)) ({}) [(R.stgGreg 0 1, 0x3800188000)], _, 0, _, 392, 0, by decide +kernel, rfl, rfl, by decide +kernel, by decide +kernel, by decide +kernel⟩

theorem test_witness_SequencerRegisterAccessAndRunComplete_4 : ∃ (s : State) (q : Fin 4),
    s.bit (R.stgSeqCtrl q) 0 = false ∧
    (s.seq q).loaded = true ∧
    ((s.seq q).fresh = true ∨ s.seqState q = 4 ∨ s.seqState q = 5) :=
  ⟨{ seqs := [(0, { loaded := true, fresh := true })] }, 0, by decide +kernel, by decide +kernel, by decide +kernel⟩

theorem test_witness_SequencerRegisterAccessAndRunComplete_5 : ∃ (s : State) (q : Fin 4),
    s.bit (R.stgSeqCtrl q) 0 = false ∧
    (s.seq q).loaded = true ∧
    (s.seq q).fresh = false ∧
    s.seqState q = 1 :=
  ⟨{ regs := regsOf [(R.stgSeqStatus 0, 1)], seqs := [(0, { loaded := true })] }, 0, by decide +kernel, by decide +kernel, by decide +kernel, by decide +kernel⟩

theorem test_witness_SequencerRegisterAccessAndRunComplete_6 : ∃ (s : State) (s₁ : State) (q : Fin 4),
    (s₁ = (s.setBit (R.stgSeqCtrl q) 0 false).modSeq q fun z => { z with xdone := none }) ∧
    (s₁.seqState q = 2 ∨ s₁.seqState q = 3) :=
  ⟨seqAt 0, _, 0, rfl, by decide +kernel⟩

theorem test_witness_RegisterAccessCommandsComplete_1 : ∃ (s : State) (agent : Fin 7) (page : Fin 4096) (value : BitVec 32),
    s.mayAccess agent page 0x28 4 true = true :=
  ⟨{}, 5, 400, 1, by decide +kernel⟩

theorem test_witness_RegisterAccessCommandsComplete_2 : ∃ (s : State) (agent : Fin 7) (page : Fin 4096) (value : BitVec 32),
    s.mayAccess agent page 0x24 4 true = true :=
  ⟨{}, 5, 400, 1, by decide +kernel⟩

theorem test_witness_RegisterAccessCommandsComplete_3 : ∃ (s : State) (agent : Fin 7) (page : Fin 4096) (value : BitVec 32),
    4 ≤ agent.val ∧
    s.mayAccess agent page 0x24 4 true = false :=
  ⟨{}, 6, 400, 1, by decide +kernel, by decide +kernel⟩

theorem test_witness_RegisterAccessCommandsComplete_4 : ∃ (s : State) (agent : Fin 7) (page : Fin 4096),
    s.mayAccess agent page 0x40 4 true = true :=
  ⟨{}, 5, 400, by decide +kernel⟩

theorem test_witness_RegisterAccessCommandsComplete_5 : ∃ (s : State) (agent : Fin 7) (page : Fin 4096) (word : Fin 1024),
    s.mayAccess agent page (4 * word) 4 false = true :=
  ⟨{}, 5, 400, 0, by decide +kernel⟩

theorem test_witness_RegisterAccessCommandsComplete_6 : ∃ (s : State) (agent : Fin 7) (page : Fin 4096) (word : Fin 1024) (wide : Bool) (value : BitVec 64),
    (wide = true → word.val % 2 = 0) ∧
    (s.mayAccess agent page (4 * word) (if wide then 8 else 4) true = true) :=
  ⟨{}, 5, 400, 2, true, 1, by decide +kernel, by decide +kernel⟩

theorem test_witness_RegisterAccessCommandsComplete_7 : ∃ (s : State) (s₁ : State) (offset : BitVec 24) (size : Fin 65) (value : BitVec 64) (pg off n : Nat),
    s.hostUp = true ∧
    n = size.val ∧
    pg = offset.toNat / 4096 ∧
    off = offset.toNat % 4096 ∧
    s₁ = s.globalEvent 49 1 n ∧
    s₁.hostShut = false ∧
    regAligned off n = true ∧
    s₁.devFatal = false ∧
    s₁.mayAccess 4 pg off n true = true :=
  ⟨hostRuns, _, 0x190024, 4, 1, _, _, _, by decide +kernel, rfl, rfl, rfl, rfl, by decide +kernel, by decide +kernel, by decide +kernel, by decide +kernel⟩

theorem test_witness_RegisterAccessCommandsComplete_8 : ∃ (s : State) (s₁ s₂ : State) (offset : BitVec 24) (size : Fin 65) (value : BitVec 64) (pg off n v : Nat),
    s.hostUp = true ∧
    n = size.val ∧
    pg = offset.toNat / 4096 ∧
    off = offset.toNat % 4096 ∧
    s₁ = s.globalEvent 49 2 n ∧
    s₁.hostShut = false ∧
    regAligned off n = true ∧
    s₁.devFatal = false ∧
    s₁.mayAccess 4 pg off n false = true ∧
    s₁.readReg 4 pg off n = (s₂, v) :=
  ⟨hostRuns, _, ((hostRuns.globalEvent 49 2 4).readReg 4 400 0 4).1, 0x190000, 4, 1, _, _, _, ((hostRuns.globalEvent 49 2 4).readReg 4 400 0 4).2, by decide +kernel, rfl, rfl, rfl, rfl, by decide +kernel, by decide +kernel, by decide +kernel, by decide +kernel, by decide +kernel⟩

theorem test_witness_RegisterAccessCommandsComplete_9 : ∃ (s : State) (s₁ : State) (addr : BitVec 34) (len : Fin 4096) (us : List Upset) (a n : Nat),
    s₁ = s.memUpset us ∧
    a = addr.toNat ∧
    n = len + 1 ∧
    s₁.hostUp = true ∧
    s₁.hostShut = false ∧
    s₁.bit R.trustAccess 0 = true ∧
    s₁.devFatal = false ∧
    a + n ≤ smSize ∧
    ((granulesOf a n).all (fun g => s₁.granValid g && !s₁.granBusy g) = true) ∧
    s₁.smem.fillWaits = [] :=
  ⟨hostRuns, _, 0, 7, [], _, _, rfl, rfl, rfl, by decide +kernel, by decide +kernel, by decide +kernel, by decide +kernel, by decide +kernel, by decide +kernel, by decide +kernel⟩

theorem test_witness_RegisterAccessCommandsComplete_10 : ∃ (s : State) (addr : BitVec 34) (data : List Byte) (ep : Bool) (a n : Nat),
    a = addr.toNat ∧
    n = data.length ∧
    data ≠ [] ∧
    s.hostUp = true ∧
    s.hostShut = false ∧
    s.bit R.trustAccess 0 = true ∧
    s.devFatal = false ∧
    a + n ≤ smSize ∧
    ((granulesOf a n).all (fun g => s.granValid g && !s.granBusy g) = true) ∧
    s.smem.fillWaits = [] :=
  ⟨hostRuns, 0, [1], false, _, _, rfl, rfl, by decide +kernel, by decide +kernel, by decide +kernel, by decide +kernel, by decide +kernel, by decide +kernel, by decide +kernel, by decide +kernel⟩

theorem test_witness_RegisterAccessCommandsComplete_11 : ∃ (s : State) (s₁ : State) (addr : BitVec 64) (pg off v : Nat),
    s.firmware = true ∧
    mmioAt addr.toNat = some (pg, off) ∧
    off % 4 = 0 ∧
    hostMay pg off false = true ∧
    s.readReg 5 pg off 4 = (s₁, v) :=
  ⟨fwRuns, (fwRuns.readReg 5 400 0 4).1, 0x3800190000, 400, 0, (fwRuns.readReg 5 400 0 4).2, by decide +kernel, by decide +kernel, by decide +kernel, by decide +kernel, by decide +kernel⟩

theorem test_witness_RegisterAccessCommandsComplete_12 : ∃ (s : State) (addr : BitVec 64) (value : BitVec 32) (pg off : Nat),
    s.firmware = true ∧
    mmioAt addr.toNat = some (pg, off) ∧
    off % 4 = 0 ∧
    hostMay pg off true = true ∧
    pg ≠ 498 :=
  ⟨fwRuns, 0x3800190024, 1, 400, 0x24, by decide +kernel, by decide +kernel, by decide +kernel, by decide +kernel, by decide +kernel⟩

theorem test_witness_RegisterAccessCommandsComplete_13 : ∃ (s : State) (s₁ : State) (granule : Fin 512) (go left : List FillWait),
    s.granBusy granule = true ∧
    s₁ = s.setBit (R.smemcGranule granule) 12 false ∧
    fillReady s₁ s₁.smem.fillWaits [] = (go, left) :=
  ⟨{ regs := regsOf [(R.smemcGranule 0, 0x1200)] }, _, 0, [], [], by decide +kernel, rfl, by decide +kernel⟩

theorem test_witness_CreditAndPacketCommandsComplete_1 : ∃ (s : State) (s₁ : State) (port : Nat) (p : Pkt),
    s.takeIn ptCreditReq = some (port, p, s₁) :=
  ⟨(inState { ptype := ptCreditReq, cls := 1  }), ((inState { ptype := ptCreditReq, cls := 1  }).modFab fun x => { x with chipIn := [] }), 3, { ptype := ptCreditReq, cls := 1  }, by decide +kernel⟩

theorem test_witness_CreditAndPacketCommandsComplete_2 : ∃ (s : State) (s₁ s₂ : State) (pool : Fin 128) (w : CreditWait) (rest : List CreditWait) (f : Nat),
    (s.pool pool).waiting = w :: rest ∧
    s.poolEn pool = true ∧
    w.count ≤ s.poolFree pool ∧
    (s.openGrants pool).length < 64 ∧
    f = s.poolNext pool ∧
    s₁ = s.setPool pool { (s.pool pool).mark (slotRun (s.poolSlots pool) f w.count) 1 with waiting := rest, grants := ((s.pool pool).mark (slotRun (s.poolSlots pool) f w.count) 1).grants ++ [{ first := f, count := w.count, chip := w.chip, time := s.now }] } ∧
    s₂ = s₁.setFld (R.poolPoolState pool) 11 0 ((f + w.count) % s₁.poolSlots pool) :=
  ⟨{ regs := regsOf [(R.poolPoolCfg 0, 1), (R.poolPoolSlots 0, 4), (R.poolPoolState 0, 0x4000)], smem := { pools := [(0, { waiting := [{ port := 0, chip := 1, slice := 0, requester := 0, count := 2, tag := 0 }] })] } }, _, _, 0, { port := 0, chip := 1, slice := 0, requester := 0, count := 2, tag := 0 }, [], _, by decide +kernel, by decide +kernel, by decide +kernel, by decide +kernel, rfl, rfl, rfl⟩

theorem test_witness_CreditAndPacketCommandsComplete_3 : ∃ (s : State) (s₁ : State) (port h : Nat) (p : Pkt),
    s.takeIn ptCreditReply = some (port, p, s₁) ∧
    s₁.collReplyFor p.src (p.b 6 0) (p.b 21 14) = some h :=
  ⟨collAsks, collAsks.modFab fun x => { x with chipIn := [] }, 3, 0, { ptype := ptCreditReply, cls := 1 }, by decide +kernel, by decide +kernel⟩

theorem test_witness_CreditAndPacketCommandsComplete_4 : ∃ (s : State) (s₁ : State) (port : Nat) (p : Pkt),
    s.takeIn ptCreditReply = some (port, p, s₁) ∧
    s₁.collReplyFor p.src (p.b 6 0) (p.b 21 14) = none :=
  ⟨(inState { ptype := ptCreditReply, cls := 1  }), ((inState { ptype := ptCreditReply, cls := 1  }).modFab fun x => { x with chipIn := [] }), 3, { ptype := ptCreditReply, cls := 1  }, by decide +kernel, by decide +kernel⟩

theorem test_witness_CreditAndPacketCommandsComplete_5 : ∃ (s : State) (pool : Fin 128),
    s.poolEn pool = false ∧
    s.poolEnableOk pool = true :=
  ⟨{ regs := regsOf [(R.poolPoolSlots 0, 4), (R.smemcGranule 0, 0xA00)] }, 0, by decide +kernel, by decide +kernel⟩

theorem test_witness_CreditAndPacketCommandsComplete_6 : ∃ (s : State) (pool : Fin 128),
    s.poolEn pool = true :=
  ⟨{ regs := regsOf [(R.poolPoolCfg 0, 1)] }, 0, by decide +kernel⟩

theorem test_witness_CreditAndPacketCommandsComplete_7 : ∃ (s : State) (s₁ : State) (port : Nat) (p : Pkt),
    s.takeIn ptWrite = some (port, p, s₁) ∧
    p.wOff + p.wLen ≤ smSize :=
  ⟨(inState { ptype := ptWrite, cls := 1  }), ((inState { ptype := ptWrite, cls := 1  }).modFab fun x => { x with chipIn := [] }), 3, { ptype := ptWrite, cls := 1  }, by decide +kernel, by decide +kernel⟩

theorem test_witness_CreditAndPacketCommandsComplete_8 : ∃ (s : State) (s₁ : State) (port pg off size v : Nat) (s₂ : State) (p : Pkt),
    s.takeIn ptRreq = some (port, p, s₁) ∧
    (size = if p.b 38 38 = 1 then 8 else 4) ∧
    smSize ≤ p.b 37 0 ∧
    mmioAt (p.b 37 0) = some (pg, off) ∧
    sliceMay pg = true ∧
    p.slice = s₁.fld R.fabMgmtSlice 11 0 ∧
    regAligned off size = true ∧
    s₁.mayAccess 6 pg off size false = true ∧
    s₁.readReg 6 pg off size = (s₂, v) :=
  ⟨rreqState, rreqState.modFab fun x => { x with chipIn := [] }, 3, 400, 0, _, ((rreqState.modFab fun x => { x with chipIn := [] }).readReg 6 400 0 4).2, ((rreqState.modFab fun x => { x with chipIn := [] }).readReg 6 400 0 4).1, { ptype := ptRreq, cls := 1, body := 0x3800190000 }, by decide +kernel, rfl, by decide +kernel, by decide +kernel, by decide +kernel, by decide +kernel, by decide +kernel, by decide +kernel, by decide +kernel⟩

theorem test_witness_CreditAndPacketCommandsComplete_9 : ∃ (s : State) (s₁ s₂ : State) (port : Nat) (p : Pkt) (t : TagRec),
    s.takeIn ptWack = some (port, p, s₁) ∧
    s₁.closeTag (p.b 15 0) p.src = (s₂, some t) :=
  ⟨tagState ptWack, (tagState ptWack).modFab fun x => { x with chipIn := [] }, ((tagState ptWack).modFab fun x => { x with chipIn := [] }).freeTag 0, 3, { ptype := ptWack, cls := 1 }, {}, by decide +kernel, by decide +kernel⟩

theorem test_witness_CreditAndPacketCommandsComplete_10 : ∃ (s : State) (s₁ s₂ : State) (port : Nat) (p : Pkt) (t : TagRec),
    s.takeIn ptRcpl = some (port, p, s₁) ∧
    s₁.closeTag (p.b 15 0) p.src = (s₂, some t) :=
  ⟨tagState ptRcpl, (tagState ptRcpl).modFab fun x => { x with chipIn := [] }, ((tagState ptRcpl).modFab fun x => { x with chipIn := [] }).freeTag 0, 3, { ptype := ptRcpl, cls := 1 }, {}, by decide +kernel, by decide +kernel⟩

theorem test_witness_CreditAndPacketCommandsComplete_11 : ∃ (s : State) (s₁ s₂ : State) (tag : Fin 65536) (r : TagRec),
    r = s.fab.tags.get { dest := 0xFFFFFFFF } tag ∧
    (r.dest ≠ 0xFFFFFFFF ∧ r.quarantined = false) ∧
    s₁ = s.advanceTo r.deadline ∧
    (s₂ = (s₁.modFab fun x => { x with tags := x.tags.put tag { r with quarantined := true, epoch := s₁.epoch } }).showTags) :=
  ⟨tagState ptWack, _, _, 0, _, rfl, by decide +kernel, rfl, rfl⟩

theorem test_witness_CreditAndPacketCommandsComplete_12 : ∃ (s : State) (s₁ : State) (requester : Fin 11),
    s.fab.tagWait.get 0 requester ≠ 0 ∧
    s.fab.tagRaised.contains requester.val = false ∧
    s₁ = s.advanceTo (s.fab.tagWait.get 0 requester - 1 + 160000) :=
  ⟨{ fab := { tagWait := [(1, 5)] } }, _, 1, by decide +kernel, by decide +kernel, rfl⟩

theorem test_witness_TableAndTimeCommandsComplete_1 : ∃ (s : State) (group : Fin 8) (old : List Nat) (t : Nat),
    s.fab.fences.get ([], 0) group = (old, t + 1) ∧
    (old.all (fun p => s.portState p == 8 || (s.port p).retry.all fun e => e.2.cls == 0) = true) :=
  ⟨{ fab := { fences := [(0, ([], 5))] } }, 0, [], 4, by decide +kernel, by decide +kernel⟩

theorem test_witness_TableAndTimeCommandsComplete_2 : ∃ (s : State) (group : Fin 8) (old : List Nat) (t : Nat),
    s.fab.fences.get ([], 0) group = (old, t + 1) ∧
    (old.all (fun p => s.portState p == 8 || (s.port p).retry.all fun e => e.2.cls == 0) = false) :=
  ⟨{ fab := { fences := [(0, ([0], 5))] }, ports := [(0, { retry := [(7, 2 ^ 4)] })] }, 0, [0], 4, by decide +kernel, by decide +kernel⟩

theorem test_witness_TableAndTimeCommandsComplete_3 : ∃ (s : State) (port : Fin 32),
    s.portState port = 5 :=
  ⟨{ regs := regsOf [(R.lnkStatus 0, 5)] }, 0, by decide +kernel⟩

theorem test_witness_TableAndTimeCommandsComplete_4 : ∃ (s : State) (s₁ s₂ : State) (port : Nat) (p : Pkt) (n : Nbr),
    s.takeIn ptRollcall = some (port, p, s₁) ∧
    (p.data.take 1).map (·.toNat) = [1] ∧
    n = { valid := true, bytes := BitVec.ofNat 512 (leNat p.data) } ∧
    (s₂ = s₁.modFab fun x => { x with nbr := x.nbr.set {} port n }) ∧
    s₁.fab.nbr.get {} port = n :=
  ⟨nbrState, nbrState.modFab fun x => { x with chipIn := [] }, _, 3, { ptype := ptRollcall, cls := 1, data := [1] }, _, by decide +kernel, by decide +kernel, rfl, rfl, by decide +kernel⟩

theorem test_witness_TableAndTimeCommandsComplete_5 : ∃ (s : State) (s₁ s₂ : State) (port : Nat) (p : Pkt) (n : Nbr),
    s.takeIn ptRollcall = some (port, p, s₁) ∧
    (p.data.take 1).map (·.toNat) = [1] ∧
    n = { valid := true, bytes := BitVec.ofNat 512 (leNat p.data) } ∧
    s₁.fab.nbr.get {} port ≠ n ∧
    (s₂ = (s₁.modFab fun x => { x with nbr := x.nbr.set {} port n }).intEvent 496 0) :=
  ⟨inState { ptype := ptRollcall, cls := 1, data := [1] }, (inState { ptype := ptRollcall, cls := 1, data := [1] }).modFab fun x => { x with chipIn := [] }, _, 3, { ptype := ptRollcall, cls := 1, data := [1] }, _, by decide +kernel, by decide +kernel, rfl, by decide +kernel, rfl⟩

theorem test_witness_TableAndTimeCommandsComplete_6 : ∃ (s : State) (s₁ : State),
    s.rollDone = false ∧
    s₁ = s.setBit R.fabCtrl 0 true ∧
    s₁.fld R.mgtStartStatus 3 0 ≠ 6 :=
  ⟨{}, _, by decide +kernel, rfl, by decide +kernel⟩

theorem test_witness_TableAndTimeCommandsComplete_7 : ∃ (s : State) (s₁ : State),
    s.rollDone = false ∧
    s₁ = s.setBit R.fabCtrl 0 true ∧
    s₁.fld R.mgtStartStatus 3 0 = 6 :=
  ⟨{ regs := regsOf [(R.mgtStartStatus, 6)] }, _, by decide +kernel, rfl, by decide +kernel⟩

theorem test_witness_TableAndTimeCommandsComplete_8 : ∃ (s : State) (t : State) (chip : Fin 1048576),
    s.rollDone = false ∧
    (t = (s.wr R.fabChipId (BitVec.ofNat 64 chip)).modFab fun x => { x with assigned := true }) ∧
    (s.fab.assigned = false ∨ s.chip ≠ chip) :=
  ⟨{}, _, 7, by decide +kernel, rfl, by decide +kernel⟩

theorem test_witness_TableAndTimeCommandsComplete_9 : ∃ (s : State) (value : Word) (i t : Nat),
    (s.bit R.fabStatus 1 = false ∧ s.bit R.fabCtrl 2 = false) ∧
    i = s.fld R.fabTblSel 11 0 ∧
    t = s.fld R.fabTblSel 13 12 ∧
    (t ≤ 1 ∧ i < 1024) :=
  ⟨{}, 5, _, _, by decide +kernel, rfl, rfl, by decide +kernel⟩

theorem test_witness_TableAndTimeCommandsComplete_10 : ∃ (s : State) (value : Word),
    (s.bit R.fabStatus 1 = false ∧ s.bit R.fabCtrl 2 = false) ∧
    s.fld R.fabTblSel 13 12 = 2 :=
  ⟨{ regs := regsOf [(R.fabTblSel, 0x2000)] }, 5, by decide +kernel, by decide +kernel⟩

theorem test_witness_TableAndTimeCommandsComplete_11 : ∃ (s : State),
    s.bit R.fabCtrl 2 = false ∧
    s.bit R.fabStatus 1 = false :=
  ⟨{}, by decide +kernel, by decide +kernel⟩

theorem test_witness_TableAndTimeCommandsComplete_12 : ∃ (s : State) (s₁ : State) (b : Nat),
    s.bit R.fabStatus 1 = true ∧
    s₁ = s.localTo (s.fab.copyAt + uclk 6144) ∧
    b = s₁.activeBank :=
  ⟨{ regs := regsOf [(R.fabStatus, 2)] }, _, _, by decide +kernel, rfl, rfl⟩

theorem test_witness_TableAndTimeCommandsComplete_13 : ∃ (s : State),
    s.bit R.fabCtrl 2 = false ∧
    s.epoch < (s.rd R.fabSwapEpoch).toNat :=
  ⟨{ regs := regsOf [(R.fabSwapEpoch, 9)] }, by decide +kernel, by decide +kernel⟩

theorem test_witness_TableAndTimeCommandsComplete_14 : ∃ (s : State) (s₁ s₂ s₃ s₄ : State),
    (s₁ = if s.fab.epochSeen < s.epoch then s else s.advanceTo ((s.epoch + 1) * 2 ^ s.fld R.fabEpochCfg 5 0)) ∧
    (s₂ = s₁.modFab fun x => { x with epochSeen := s₁.epoch }) ∧
    (s₃ = (if s₂.bit R.fabCtrl 2 = true ∧ (s₂.rd R.fabSwapEpoch).toNat ≤ s₂.epoch then s₂.swapBanks else s₂).switchKeys) ∧
    (s₄ = (s₃.modFab fun x => { x with tags := x.tags.filter fun t => !(t.2.quarantined && t.2.epoch + 2 ≤ s₃.epoch) }).showTags) :=
  ⟨{}, _, _, _, _, rfl, rfl, rfl, rfl⟩

theorem test_witness_TableAndTimeCommandsComplete_15 : ∃ (s : State) (s₁ s₂ : State),
    s.bit R.fabTimeCfg 0 = false ∧
    (s.bit R.fabTimeCfg 24 = true ∨ s.fab.sync.alt = true) ∧
    (s₁ = match s.fab.sync.lastSent with | some t => s.advanceTo (t + s.syncTicks) | none => s) ∧
    (s₂ = s₁.modSync fun y => { y with missed := if y.lastSent.isSome ∧ y.outstanding.isSome then y.missed + 1 else y.missed, lastSent := some s₁.now, outstanding := some s₁.now }) :=
  ⟨{ regs := regsOf [(R.fabTimeCfg, 0x1000000)] }, _, _, by decide +kernel, by decide +kernel, rfl, rfl⟩

theorem test_witness_TableAndTimeCommandsComplete_16 : ∃ (s : State) (s₁ : State) (port : Nat) (p : Pkt),
    s.takeIn ptTsyncReq = some (port, p, s₁) :=
  ⟨(inState { ptype := ptTsyncReq, cls := 1  }), ((inState { ptype := ptTsyncReq, cls := 1  }).modFab fun x => { x with chipIn := [] }), 3, { ptype := ptTsyncReq, cls := 1  }, by decide +kernel⟩

theorem test_witness_TableAndTimeCommandsComplete_17 : ∃ (s : State) (s₁ : State) (port up t₁ t₂ t₃ corr : Nat) (p : Pkt),
    s.takeIn ptTsyncRsp = some (port, p, s₁) ∧
    t₁ = leNat ((p.data.drop (8 * 0)).take 8) ∧
    t₂ = leNat ((p.data.drop (8 * 1)).take 8) ∧
    t₃ = leNat ((p.data.drop (8 * 2)).take 8) ∧
    corr = leNat ((p.data.drop (8 * 3)).take 8) ∧
    up = min (Config.corrUp corr) corr ∧
    s₁.fab.sync.outstanding = some t₁ ∧
    p.body ≤ t₁ + 160000 :=
  ⟨tsyncWaits, tsyncWaits.modFab fun x => { x with chipIn := [] }, 3, _, 5, 0, 0, 0, { ptype := ptTsyncRsp, cls := 1, data := [5] }, by decide +kernel, rfl, rfl, rfl, rfl, rfl, by decide +kernel, by decide +kernel⟩

theorem test_witness_TableAndTimeCommandsComplete_18 : ∃ (s : State),
    3 ≤ s.fab.sync.missed ∧
    s.bit R.fabStatus 3 = false ∧
    s.bit R.fabTimeAlt 20 = true ∧
    s.fab.sync.alt = false :=
  ⟨{ regs := regsOf [(R.fabTimeAlt, 0x100000)], fab := { sync := { missed := 3 } } }, by decide +kernel, by decide +kernel, by decide +kernel, by decide +kernel⟩

theorem test_witness_TableAndTimeCommandsComplete_19 : ∃ (s : State) (s₁ : State),
    3 ≤ s.fab.sync.missed ∧
    s.bit R.fabStatus 3 = false ∧
    s.bit R.fabTimeAlt 20 = false ∧
    s₁ = s.setBit R.fabStatus 3 true :=
  ⟨{ fab := { sync := { missed := 3 } } }, _, by decide +kernel, by decide +kernel, by decide +kernel, rfl⟩

theorem test_witness_TableAndTimeCommandsComplete_20 : ∃ (s : State) (s₁ : State),
    s.bit R.fabStatus 3 = true ∧
    s.fab.sync.lost = false ∧
    s₁ = s.advanceTo (s.fab.sync.holdoverSince + 16000000) :=
  ⟨{ regs := regsOf [(R.fabStatus, 8)] }, _, by decide +kernel, by decide +kernel, rfl⟩

theorem test_witness_LinkStartUpCommandsComplete_1 : ∃ (s : State) (port : Fin 32) (reach : Nat),
    s.portState port = 0 ∧
    s.bit (R.lnkPortCfg port) 0 = true ∧
    s.bit R.pwrDomainState (42 + port.val / 8) = true ∧
    s.cartReach port = some reach ∧
    (reach = 1 ∨ s.bit (R.cartCStatus port) 5 = false) :=
  ⟨{ regs := regsOf [(R.lnkPortCfg 0, 1), (R.pwrDomainState, 0x40000000000)] }, 0, 1, by decide +kernel, by decide +kernel, by decide +kernel, by decide +kernel, by decide +kernel⟩

theorem test_witness_LinkStartUpCommandsComplete_2 : ∃ (s : State) (port : Fin 32) (reach : Nat),
    s.portState port = 0 ∧
    s.bit (R.lnkPortCfg port) 0 = true ∧
    s.bit R.pwrDomainState (42 + port.val / 8) = true ∧
    s.cartReach port = some reach ∧
    reach ≠ 1 ∧
    s.bit (R.cartCStatus port) 5 = true :=
  ⟨{ regs := regsOf [(R.lnkPortCfg 0, 0x21), (R.pwrDomainState, 0x40000000000), (R.cartCStatus 0, 0x2B)] }, 0, 2, by decide +kernel, by decide +kernel, by decide +kernel, by decide +kernel, by decide +kernel, by decide +kernel⟩

theorem test_witness_LinkStartUpCommandsComplete_3 : ∃ (s : State) (port : Fin 32),
    s.portState port = 1 :=
  ⟨{ regs := regsOf [(R.lnkStatus 0, 1)] }, 0, by decide +kernel⟩

theorem test_witness_LinkStartUpCommandsComplete_4 : ∃ (s : State) (port : Fin 32),
    s.portState port = 1 :=
  ⟨{ regs := regsOf [(R.lnkStatus 0, 1)] }, 0, by decide +kernel⟩

theorem test_witness_LinkStartUpCommandsComplete_5 : ∃ (s : State) (port : Fin 32) (trained : Fin 32) (m : Nat),
    s.portState port = 2 ∧
    (m = if s.standbyWired port then trained.val else trained.val % 16) ∧
    m ≠ 0 :=
  ⟨{ regs := regsOf [(R.lnkStatus 0, 2)] }, 0, 15, _, by decide +kernel, rfl, by decide +kernel⟩

theorem test_witness_LinkStartUpCommandsComplete_6 : ∃ (s : State) (port : Fin 32) (trained : Fin 32),
    s.portState port = 2 ∧
    trained.val = 0 :=
  ⟨{ regs := regsOf [(R.lnkStatus 0, 2)] }, 0, 0, by decide +kernel, by decide +kernel⟩

theorem test_witness_LinkStartUpCommandsComplete_7 : ∃ (s : State) (port : Fin 32) (locked : Fin 32) (m : Nat),
    s.portState port = 3 ∧
    m = s.portMask port &&& locked.val ∧
    m ≠ 0 :=
  ⟨{ regs := regsOf [(R.lnkStatus 0, 0xF3)] }, 0, 15, _, by decide +kernel, rfl, by decide +kernel⟩

theorem test_witness_LinkStartUpCommandsComplete_8 : ∃ (s : State) (port : Fin 32) (locked : Fin 32) (m : Nat),
    (s.portState port = 6 ∧ (s.port port).phase = 1) ∧
    m = s.portMask port &&& locked.val ∧
    m ≠ 0 :=
  ⟨{ regs := regsOf [(R.lnkStatus 0, 0xF6)], ports := [(0, { phase := 1 })] }, 0, 15, _, by decide +kernel, rfl, by decide +kernel⟩

theorem test_witness_LinkStartUpCommandsComplete_9 : ∃ (s : State) (s₁ : State) (port : Fin 32) (flit : BitVec 2048) (b : List Byte) (key mask m : Nat) (peer : PeerCfg) (s₂ s₃ s₄ : State),
    s.rxFlit port flit 2 = some s₁ ∧
    b = Flit.payload flit ∧
    leNat (b.take 1) = 1 ∧
    s₁.inConfig port = true ∧
    key = mField b 8 8 ∧
    mask = mField b 3 1 % 32 ∧
    peer = { port := mField b 2 1, mask, reach := mField b 5 1, key, bulk := mField b 16 2, control := mField b 18 2, response := mField b 20 2 } ∧
    s₂ = s₁.wr (R.lnkPeerKey port) (BitVec.ofNat 64 key) ∧
    key ≠ s₂.nodeKey ∧
    (mField b 1 1 = 1 ∧ s₂.minWidth port ≤ maskCount mask ∧ mField b 5 1 = s₂.fld (R.lnkStatus port) 10 9) ∧
    s₃ = s₂.setBit (R.lnkStatus port) 11 (s₂.nodeKey < key) ∧
    m = s₃.portMask port &&& mask ∧
    (s₄ = if m = 0 then s₃ else s₃.setMask port m) :=
  ⟨cfgState, (cfgState.rxFlit 0 (mkFlit 2 [1, 1, 0, 15, 0, 0, 0, 0, 7]) 2).getD {}, 0, mkFlit 2 [1, 1, 0, 15, 0, 0, 0, 0, 7], _, _, _, _, _, _, _, _, by decide +kernel, rfl, by decide +kernel, by decide +kernel, rfl, rfl, rfl, rfl, by decide +kernel, by decide +kernel, rfl, rfl, rfl⟩

theorem test_witness_LinkStartUpCommandsComplete_10 : ∃ (s : State) (s₁ : State) (port : Fin 32) (flit : BitVec 2048) (b : List Byte),
    s.rxFlit port flit 2 = some s₁ ∧
    b = Flit.payload flit ∧
    leNat (b.take 1) = 2 ∧
    s₁.inConfig port = true ∧
    mField b 8 8 = s₁.nodeKey :=
  ⟨cfgState, (cfgState.rxFlit 0 (mkFlit 2 (2 :: natLE 15 (2 ^ 119))) 2).getD {}, 0, mkFlit 2 (2 :: natLE 15 (2 ^ 119)), _, by decide +kernel, rfl, by decide +kernel, by decide +kernel, by decide +kernel⟩

theorem test_witness_LinkStartUpCommandsComplete_11 : ∃ (s : State) (port : Fin 32),
    s.portState port = 3 :=
  ⟨{ regs := regsOf [(R.lnkStatus 0, 3)] }, 0, by decide +kernel⟩

theorem test_witness_LinkStartUpCommandsComplete_12 : ∃ (s : State) (port : Fin 32),
    s.portState port = 4 :=
  ⟨{ regs := regsOf [(R.lnkStatus 0, 4)] }, 0, by decide +kernel⟩

theorem test_witness_LinkStartUpCommandsComplete_13 : ∃ (s : State) (port : Fin 32),
    s.portState port = 6 ∧
    (s.port port).phase = 2 :=
  ⟨{ regs := regsOf [(R.lnkStatus 0, 0xF6)], ports := [(0, { phase := 2 })] }, 0, by decide +kernel, by decide +kernel⟩

theorem test_witness_LinkStartUpCommandsComplete_14 : ∃ (s : State) (port : Fin 32),
    s.portState port = 5 :=
  ⟨{ regs := regsOf [(R.lnkStatus 0, 5)] }, 0, by decide +kernel⟩

theorem test_witness_LinkStartUpCommandsComplete_15 : ∃ (s : State) (s₁ : State) (port : Fin 32) (flit : BitVec 2048) (b : List Byte) (s₂ : State),
    s.rxFlit port flit 2 = some s₁ ∧
    b = Flit.payload flit ∧
    leNat (b.take 1) = 4 ∧
    (s₁.portState port = 5 ∨ s₁.portState port = 7) ∧
    mField b 16 1 = 1 ∧
    s₂ = (s₁.noteRetrain port).sendLink port (msgKeyed 5 0 (mField b 8 8) 0) :=
  ⟨actState, (actState.rxFlit 0 (mkFlit 2 (4 :: natLE 16 (2 ^ 120))) 2).getD {}, 0, mkFlit 2 (4 :: natLE 16 (2 ^ 120)), _, _, by decide +kernel, rfl, by decide +kernel, by decide +kernel, by decide +kernel, rfl⟩

theorem test_witness_LinkStartUpCommandsComplete_16 : ∃ (s : State) (s₁ : State) (port : Fin 32) (flit : BitVec 2048) (b : List Byte) (s₂ : State),
    s.rxFlit port flit 2 = some s₁ ∧
    b = Flit.payload flit ∧
    leNat (b.take 1) = 4 ∧
    (s₁.portState port = 5 ∨ s₁.portState port = 7) ∧
    mField b 16 1 ≠ 1 ∧
    s₂ = (s₁.noteRetrain port).sendLink port (msgKeyed 5 0 (mField b 8 8) 0) :=
  ⟨actState, (actState.rxFlit 0 (mkFlit 2 (4 :: natLE 16 (2 ^ 121))) 2).getD {}, 0, mkFlit 2 (4 :: natLE 16 (2 ^ 121)), _, _, by decide +kernel, rfl, by decide +kernel, by decide +kernel, by decide +kernel, rfl⟩

theorem test_witness_LinkStartUpCommandsComplete_17 : ∃ (s : State) (s₁ : State) (port : Fin 32) (flit : BitVec 2048) (b : List Byte),
    s.rxFlit port flit 2 = some s₁ ∧
    b = Flit.payload flit ∧
    leNat (b.take 1) = 5 ∧
    (s₁.portState port = 6 ∧ (s₁.port port).phase = 0) ∧
    mField b 8 8 = s₁.nodeKey ∧
    (s₁.port port).full = false :=
  ⟨retState, (retState.rxFlit 0 (mkFlit 2 (5 :: natLE 15 (2 ^ 119))) 2).getD {}, 0, mkFlit 2 (5 :: natLE 15 (2 ^ 119)), _, by decide +kernel, rfl, by decide +kernel, by decide +kernel, by decide +kernel, by decide +kernel⟩

theorem test_witness_LinkStartUpCommandsComplete_18 : ∃ (s : State) (s₁ : State) (port : Fin 32) (flit : BitVec 2048) (b : List Byte),
    s.rxFlit port flit 2 = some s₁ ∧
    b = Flit.payload flit ∧
    leNat (b.take 1) = 5 ∧
    (s₁.portState port = 6 ∧ (s₁.port port).phase = 0) ∧
    mField b 8 8 = s₁.nodeKey ∧
    (s₁.port port).full = true :=
  ⟨{ regs := regsOf [(R.lnkStatus 0, 0xF6)], ports := [(0, { full := true })] }, (State.rxFlit { regs := regsOf [(R.lnkStatus 0, 0xF6)], ports := [(0, { full := true })] } 0 (mkFlit 2 (5 :: natLE 15 (2 ^ 119))) 2).getD {}, 0, mkFlit 2 (5 :: natLE 15 (2 ^ 119)), _, by decide +kernel, rfl, by decide +kernel, by decide +kernel, by decide +kernel, by decide +kernel⟩

theorem test_witness_LinkStartUpCommandsComplete_19 : ∃ (s : State) (port : Fin 32),
    s.portState port = 6 ∧
    (s.port port).phase < 2 :=
  ⟨retState, 0, by decide +kernel, by decide +kernel⟩

theorem test_witness_LinkStartUpCommandsComplete_20 : ∃ (s : State) (port : Fin 32) (lane : Fin 5) (loss : Bool) (ucw m : Nat) (s₀ s₁ s₂ s₃ : State),
    s₀ = s.count (R.lnkFecUcw port lane) ucw ∧
    (s₀.portState port = 5 ∨ s₀.portState port = 7) ∧
    s.portMask port / 2 ^ lane.val % 2 = 1 ∧
    (loss = true ∨ s₀.fld (R.lnkLaneThresh port) 23 16 < ucw) ∧
    (s₁ = ((s₀.intEvent (448 + port) 1).linkRaise port 0x5003 lane).modLedger fun l => { l with spares := bump l.spares (600 + port) 1 }) ∧
    (s₂ = s₁.modPort port fun x => { x with badMask := x.badMask ||| 2 ^ lane.val }) ∧
    m = s.portMask port - (s.portMask port &&& (s₂.port port).badMask) ∧
    maskCount m < s₂.minWidth port :=
  ⟨{ regs := regsOf [(R.lnkStatus 0, 0x15)] }, 0, 0, true, 1, _, _, _, _, {}, rfl, by decide +kernel, by decide +kernel, by decide +kernel, rfl, rfl, rfl, by decide +kernel⟩

theorem test_witness_LinkStartUpCommandsComplete_21 : ∃ (s : State) (port : Fin 32) (lane : Fin 5) (loss : Bool) (ucw m : Nat) (s₀ s₁ s₂ s₃ : State),
    s₀ = s.count (R.lnkFecUcw port lane) ucw ∧
    (s₀.portState port = 5 ∨ s₀.portState port = 7) ∧
    s.portMask port / 2 ^ lane.val % 2 = 1 ∧
    (loss = true ∨ s₀.fld (R.lnkLaneThresh port) 23 16 < ucw) ∧
    (s₁ = ((s₀.intEvent (448 + port) 1).linkRaise port 0x5003 lane).modLedger fun l => { l with spares := bump l.spares (600 + port) 1 }) ∧
    (s₂ = s₁.modPort port fun x => { x with badMask := x.badMask ||| 2 ^ lane.val }) ∧
    m = s.portMask port - (s.portMask port &&& (s₂.port port).badMask) ∧
    s₂.minWidth port ≤ maskCount m ∧
    (s₃ = (s₂.startStandby port).modPort port fun x => { x with wantMask := some m, slots := 0 }) :=
  ⟨actState, 0, 0, true, 1, _, _, _, _, _, rfl, by decide +kernel, by decide +kernel, by decide +kernel, rfl, rfl, rfl, by decide +kernel, rfl⟩

theorem test_witness_LinkStartUpCommandsComplete_22 : ∃ (s : State) (port : Fin 32) (lane : Fin 5) (ucw : Nat) (s₀ : State),
    s₀ = s.count (R.lnkFecUcw port lane) ucw ∧
    ucw ≤ s₀.fld (R.lnkLaneThresh port) 23 16 :=
  ⟨actState, 0, 0, 0, _, rfl, by decide +kernel⟩

theorem test_witness_LinkStartUpCommandsComplete_23 : ∃ (s : State) (s₁ s₂ : State) (port : Fin 32) (flit : BitVec 2048) (b : List Byte) (m gone : Nat),
    s.rxFlit port flit 2 = some s₁ ∧
    b = Flit.payload flit ∧
    leNat (b.take 1) = 6 ∧
    m = mField b 3 1 % 32 ∧
    (1 ≤ maskCount m ∧ maskCount m ≤ 4) ∧
    s₁.portState port = 5 ∧
    gone = s₁.portMask port - (s₁.portMask port &&& m) ∧
    (s₂ = s₁.modPort port fun x => { x with badMask := x.badMask ||| gone }) :=
  ⟨actState, (actState.rxFlit 0 (mkFlit 2 [6, 0, 0, 15]) 2).getD {}, _, 0, mkFlit 2 [6, 0, 0, 15], _, _, _, by decide +kernel, rfl, by decide +kernel, rfl, by decide +kernel, by decide +kernel, rfl, rfl⟩

theorem test_witness_LinkStartUpCommandsComplete_24 : ∃ (s : State) (s₁ : State) (port : Fin 32) (flit : BitVec 2048) (b : List Byte),
    s.rxFlit port flit 2 = some s₁ ∧
    b = Flit.payload flit ∧
    leNat (b.take 1) = 7 ∧
    s₁.portState port = 7 ∧
    (s₁.port port).wantMask = some (mField b 3 1) :=
  ⟨widState, (widState.rxFlit 0 (mkFlit 2 [7, 0, 0, 15]) 2).getD {}, 0, mkFlit 2 [7, 0, 0, 15], _, by decide +kernel, rfl, by decide +kernel, by decide +kernel, by decide +kernel⟩

theorem test_witness_LinkStartUpCommandsComplete_25 : ∃ (s : State) (port : Fin 32),
    s.portState port = 7 :=
  ⟨{ regs := regsOf [(R.lnkStatus 0, 7)] }, 0, by decide +kernel⟩

theorem test_witness_LinkStartUpCommandsComplete_26 : ∃ (s : State) (port : Fin 32) (s₁ s₂ : State) (x : Port) (m : Nat),
    x = s.port port ∧
    x.standby = 1 ∧
    s.portState port = 5 ∧
    m = s.portMask port ||| 16 ∧
    (s₁ = s.modLedger fun l => { l with spares := bump l.spares (632 + port) 1 }) ∧
    s₂ = s₁.setPort port { x with standby := 0, wantMask := some m, slots := 0 } :=
  ⟨{ regs := regsOf [(R.lnkStatus 0, 5)], ports := [(0, { standby := 1 })] }, 0, _, _, _, _, rfl, by decide +kernel, by decide +kernel, rfl, rfl, rfl⟩

theorem test_witness_LinkStartUpCommandsComplete_27 : ∃ (s : State) (port : Fin 32),
    (s.port port).standby = 1 :=
  ⟨{ ports := [(0, { standby := 1 })] }, 0, by decide +kernel⟩

theorem test_witness_LinkTrafficCommandsComplete_1 : ∃ (s : State) (port : Fin 32) (x : Port) (m : List Byte) (rest : List (List Byte)),
    x = s.port port ∧
    x.linkOut = m :: rest ∧
    s.portState port = 5 :=
  ⟨{ regs := regsOf [(R.lnkStatus 0, 5)], ports := [(0, { linkOut := [[1]] })] }, 0, _, [1], [], rfl, by decide +kernel, by decide +kernel⟩

theorem test_witness_LinkTrafficCommandsComplete_2 : ∃ (s s₁ : State) (port : Fin 32) (x : Port) (n : Nat) (f : Flit) (rest : List (Nat × Flit)),
    x = s.port port ∧
    x.linkOut = [] ∧
    s.portState port = 5 ∧
    x.resend = (n, f) :: rest ∧
    x.uncharged.contains n = false ∧
    s₁ = s.setPort port { x with resend := rest } :=
  ⟨{ regs := regsOf [(R.lnkStatus 0, 5)], ports := [(0, { resend := [(1, 1)] })] }, _, 0, _, 1, 1, [], rfl, by decide +kernel, by decide +kernel, by decide +kernel, by decide +kernel, rfl⟩

theorem test_witness_LinkTrafficCommandsComplete_3 : ∃ (s s₁ s₂ : State) (port : Fin 32) (x : Port) (n c : Nat) (f : Flit) (rest : List (Nat × Flit)),
    x = s.port port ∧
    x.linkOut = [] ∧
    s.portState port = 5 ∧
    x.resend = (n, f) :: rest ∧
    x.uncharged.contains n = true ∧
    c = Flit.cls f ∧
    s.credits port c ≠ 0 ∧
    (s₁ = s.setPort port { x with resend := rest, uncharged := x.uncharged.erase n }) ∧
    s₂ = s₁.setFld (R.lnkCredit port) (8 * c + 7) (8 * c) (s₁.credits port c - 1) :=
  ⟨{ regs := regsOf [(R.lnkStatus 0, 5), (R.lnkCredit 0, 3)], ports := [(0, { resend := [(1, 1)], uncharged := [1] })] }, _, _, 0, _, 1, _, 1, [], rfl, by decide +kernel, by decide +kernel, by decide +kernel, by decide +kernel, rfl, by decide +kernel, rfl, rfl⟩

theorem test_witness_LinkTrafficCommandsComplete_4 : ∃ (s : State) (port : Fin 32) (x : Port) (c : Nat) (q : Pkt),
    x = s.port port ∧
    x.linkOut = [] ∧
    s.portState port = 5 ∧
    (x.resend = [] ∧ x.cont = []) ∧
    s.nextClass port = some c ∧
    (x.txq.find? (fun q => q.cls == c && s.mayLeave q) = some q) ∧
    s.sliceEnc q.slice = false :=
  ⟨{ regs := regsOf [(R.lnkStatus 0, 5), (R.lnkCredit 0, 0x010101)], ports := [(0, { txq := [{ ptype := 1, cls := 1 }] })] }, 0, _, 1, { ptype := 1, cls := 1 }, rfl, by decide +kernel, by decide +kernel, by decide +kernel, by decide +kernel, by decide +kernel, by decide +kernel⟩

theorem test_witness_LinkTrafficCommandsComplete_5 : ∃ (s : State) (port : Fin 32) (x : Port),
    x = s.port port ∧
    x.linkOut = [] ∧
    s.portState port = 5 ∧
    (x.resend = [] ∧ x.cont = []) ∧
    s.nextClass port = none ∧
    x.txq = [] :=
  ⟨{ regs := regsOf [(R.lnkStatus 0, 5)] }, 0, _, rfl, by decide +kernel, by decide +kernel, by decide +kernel, by decide +kernel, by decide +kernel⟩

theorem test_witness_LinkTrafficCommandsComplete_6 : ∃ (s : State) (port : Fin 32) (flit : BitVec 2048) (locked : Bool) (s₁ : State) (x : Port),
    s.portState port = 5 ∧
    s.rxFlit port flit 1 = some s₁ ∧
    x = s₁.port port ∧
    Flit.cls flit = 0 ∧
    Flit.seq flit = x.expected ∧
    x.oweBulk < 160 :=
  ⟨actState, 0, mkFlit 1 [], true, (actState.rxFlit 0 (mkFlit 1 []) 1).getD {}, _, by decide +kernel, by decide +kernel, rfl, by decide +kernel, by decide +kernel, by decide +kernel⟩

theorem test_witness_LinkTrafficCommandsComplete_7 : ∃ (s : State) (port : Fin 32) (flit : BitVec 2048) (locked : Bool) (s₁ : State),
    s.portState port = 5 ∧
    s.rxFlit port flit 1 = some s₁ ∧
    Flit.cls flit ≠ 3 ∧
    Flit.seq flit ≠ (s₁.port port).expected ∧
    (s₁.port port).reqOpen = false :=
  ⟨actState, 0, mkFlit (1 + 7 * 2 ^ 18) [], true, (actState.rxFlit 0 (mkFlit (1 + 7 * 2 ^ 18) []) 1).getD {}, by decide +kernel, by decide +kernel, by decide +kernel, by decide +kernel, by decide +kernel⟩

theorem test_witness_LinkTrafficCommandsComplete_8 : ∃ (s : State) (port : Fin 32) (flit : BitVec 2048) (s₁ : State),
    s.rxFlit port flit 0 = some s₁ :=
  ⟨{}, 0, mkFlit 0 [], (({} : State).rxFlit 0 (mkFlit 0 []) 0).getD {}, by decide +kernel⟩

theorem test_witness_LinkTrafficCommandsComplete_9 : ∃ (s : State) (port : Fin 32) (flit : BitVec 2048),
    s.rxFlit port flit 0 = none ∧
    Flit.crcOk flit = false :=
  ⟨{}, 0, 1, by decide +kernel, by decide +kernel⟩

theorem test_witness_LinkTrafficCommandsComplete_10 : ∃ (s : State) (s₁ : State) (port : Fin 32) (flit : BitVec 2048) (b : List Byte) (x : Port) (rest : List (Nat × Flit)),
    s.rxFlit port flit 2 = some s₁ ∧
    b = Flit.payload flit ∧
    leNat (b.take 1) = 3 ∧
    s₁.portState port = 5 ∧
    x = s₁.port port ∧
    (x.retry.dropWhile (fun r => r.1 ≠ mField b 1 2 % 4096) = rest) ∧
    rest ≠ [] :=
  ⟨rtyState, (rtyState.rxFlit 0 (mkFlit 2 [3, 7, 0]) 2).getD {}, 0, mkFlit 2 [3, 7, 0], _, _, [(7, 9)], by decide +kernel, rfl, by decide +kernel, by decide +kernel, rfl, by decide +kernel, by decide +kernel⟩

theorem test_witness_LinkTrafficCommandsComplete_11 : ∃ (s : State) (port : Fin 32) (locked : Bool),
    s.portState port = 5 ∧
    (s.port port).reqOpen = true ∧
    ((s.port port).reqCount < 8 ∨ locked = false) :=
  ⟨{ regs := regsOf [(R.lnkStatus 0, 5)], ports := [(0, { reqOpen := true })] }, 0, true, by decide +kernel, by decide +kernel, by decide +kernel⟩

theorem test_witness_LinkTrafficCommandsComplete_12 : ∃ (s s₁ : State) (port : Fin 32),
    s.portState port = 5 ∧
    (s.port port).reqOpen = true ∧
    8 ≤ (s.port port).reqCount ∧
    (s₁ = ((s.advanceTo ((s.port port).reqAt + 6400)).linkRaise port 0x5002 0xFF).modLedger fun l => { l with errors := bump l.errors (208 + port) 1 }) :=
  ⟨{ regs := regsOf [(R.lnkStatus 0, 5)], ports := [(0, { reqOpen := true, reqCount := 8 })] }, _, 0, by decide +kernel, by decide +kernel, by decide +kernel, rfl⟩

theorem test_witness_LinkTrafficCommandsComplete_13 : ∃ (s : State) (port : Fin 32) (lane : Fin 5) (corrected : Nat) (s₁ : State),
    s₁ = s.count (R.lnkFecCorr port lane) corrected ∧
    s₁.fld (R.lnkLaneThresh port) 15 0 < corrected :=
  ⟨{}, 0, 0, 99999, _, rfl, by decide +kernel⟩

theorem test_witness_LinkTrafficCommandsComplete_14 : ∃ (s : State) (s₁ : State) (port : Fin 32) (flit : BitVec 2048) (b : List Byte),
    s.rxFlit port flit 2 = some s₁ ∧
    b = Flit.payload flit ∧
    leNat (b.take 1) = 8 :=
  ⟨actState, (actState.rxFlit 0 (mkFlit 2 [8]) 2).getD {}, 0, mkFlit 2 [8], _, by decide +kernel, rfl, by decide +kernel⟩

theorem test_witness_LinkTrafficCommandsComplete_15 : ∃ (s : State) (port : Fin 32) (r : Nat) (s₁ : State),
    (s.port port).draining = some r ∧
    (s₁ = if (s.port port).retry = [] then s else s.advanceTo ((s.port port).drainAt + 32000)) :=
  ⟨{ ports := [(0, { draining := some 1 })] }, 0, 1, _, by decide +kernel, rfl⟩

theorem test_witness_LinkTrafficCommandsComplete_17 : ∃ (s : State) (port : Fin 32) (s₁ : State),
    s.bit (R.cartCStatus port) 0 = false ∧
    s.boardPort port = false ∧
    s₁ = (s.setBit (R.cartCStatus port) 0 true).intEvent (480 + port / 4) (port % 4) :=
  ⟨{}, 0, _, by decide +kernel, by decide +kernel, rfl⟩

theorem test_witness_LinkTrafficCommandsComplete_18 : ∃ (s : State) (port : Fin 32) (s₁ s₂ : State),
    s.bit (R.cartCStatus port) 0 = true ∧
    s.boardPort port = false ∧
    s₁ = ((s.setBit (R.cartCStatus port) 0 false).setBit (R.cartCStatus port) 1 false).intEvent (480 + port / 4) (port % 4) ∧
    s₁.portState port ≠ 0 ∧
    s₂ = s₁.linkRaise port 0x5005 0xFF :=
  ⟨{ regs := regsOf [(R.cartCStatus 0, 1), (R.lnkStatus 0, 5)] }, 0, _, _, by decide +kernel, by decide +kernel, rfl, by decide +kernel, rfl⟩

theorem test_witness_LinkTrafficCommandsComplete_19 : ∃ (s : State) (port : Fin 32) (read : CartRead) (start : Bool),
    s.bit (R.cartCStatus port) 0 = true ∧
    s.boardPort port = false ∧
    (s.cart port).pausedUntil ≤ s.now ∧
    read.busOk = true ∧
    s.bit (R.cartCStatus port) 1 = false :=
  ⟨{ regs := regsOf [(R.cartCStatus 0, 1)] }, 0, goodRead, false, by decide +kernel, by decide +kernel, by decide +kernel, by decide +kernel, by decide +kernel⟩

theorem test_witness_LinkTrafficCommandsComplete_20 : ∃ (s : State) (port : Fin 32) (read : CartRead) (start : Bool) (s₁ : State),
    s.bit (R.cartCStatus port) 0 = true ∧
    s.boardPort port = false ∧
    (s.cart port).pausedUntil ≤ s.now ∧
    read.busOk = true ∧
    s.bit (R.cartCStatus port) 1 = true ∧
    read.failed = false ∧
    s₁ = s.payMatings port :=
  ⟨{ regs := regsOf [(R.cartCStatus 0, 3)] }, 0, goodRead, false, _, by decide +kernel, by decide +kernel, by decide +kernel, by decide +kernel, by decide +kernel, by decide +kernel, rfl⟩

theorem test_witness_LinkTrafficCommandsComplete_21 : ∃ (s : State) (port : Fin 32),
    s.bit (R.cartCStatus port) 1 = true ∧
    s.fld (R.cartCStatus port) 3 2 = 3 :=
  ⟨{ regs := regsOf [(R.cartCStatus 0, 14)] }, 0, by decide +kernel, by decide +kernel⟩

theorem test_witness_CollectiveAndCheckpointCommandsComplete_1 : ∃ (s : State) (h : Fin 2) (upsets : List Upset) (s₁ s₂ s₃ s₄ : State) (q x n rank : Nat) (c : Card) (nb mb : List Byte) (ms : List Nat),
    s₁ = s.memUpset upsets ∧
    q = s₁.fld (R.colReqQ h) 11 0 ∧
    q ≠ 0xFFF ∧
    s₁.coll h = none ∧
    s₁.qEn q = true ∧
    s₁.qClass q = 7 ∧
    s₁.enginesHeld = false ∧
    s₁.qHead q = some c ∧
    x = s₁.qCtx q ∧
    s₂ = s₁.takeCard q ∧
    s₂.collOk q c = true ∧
    s₂.memRead c.cGroup 4 = (s₃, nb, none) ∧
    n = leNat nb ∧
    2 ≤ n ∧
    n ≤ 65536 ∧
    c.cElems % n = 0 ∧
    s₃.inPartition x c.cGroup (4 + 4 * n) = true ∧
    s₃.collRegions x n c = true ∧
    s₃.memRead (c.cGroup + 4) (4 * n) = (s₄, mb, none) ∧
    ms = (chunks 4 mb (n + 1)).map leNat ∧
    ms.findIdx? (· == s₄.chip) = some rank :=
  ⟨collReqState, 0, [], _, _, ((collReqState.takeCard 1100).memRead 0 4).1, ((((collReqState.takeCard 1100).memRead 0 4).1).memRead 4 8).1, _, _, _, 0, collCard, [2, 0, 0, 0], [0, 0, 0, 0, 5, 0, 0, 0], _, rfl, rfl, by decide +kernel, by decide +kernel, by decide +kernel, by decide +kernel, by decide +kernel, by decide +kernel, rfl, rfl, by decide +kernel, by decide +kernel, rfl, by decide +kernel, by decide +kernel, by decide +kernel, by decide +kernel, by decide +kernel, by decide +kernel, rfl, by decide +kernel⟩

theorem test_witness_CollectiveAndCheckpointCommandsComplete_2 : ∃ (s : State) (h : Fin 2) (upsets : List Upset) (s₁ s₂ s₃ : State) (r : CollRun) (m : Card) (k c : Nat) (g : Grant) (bs : List Byte),
    s₁ = s.memUpset upsets ∧
    s₁.coll h = some r ∧
    s₁.enginesHeld = false ∧
    s₁.qHead r.card.cRxq = some m ∧
    s₂ = s₁.takeCard r.card.cRxq ∧
    r.fits m = true ∧
    r.sameEw m = true ∧
    k = m.get 32 4 ∧
    c = m.get 36 4 ∧
    s₂.collGrant r = some g ∧
    s₂.collLanded h r g (r.elems k c * collElem (r.fmt k)) = (s₃, bs, none) :=
  ⟨collRuns, 0, [], _, _, ((collRuns.takeCard 1100).collLanded 0 collRun { first := 0, count := 1, chip := 5 } 4).1, collRun, collNote, _, _, { first := 0, count := 1, chip := 5 }, [0, 0, 0, 0], rfl, by decide +kernel, by decide +kernel, by decide +kernel, rfl, by decide +kernel, by decide +kernel, rfl, rfl, by decide +kernel, by decide +kernel⟩

theorem test_witness_CollectiveAndCheckpointCommandsComplete_3 : ∃ (s : State) (h : Fin 2) (r : CollRun),
    s.coll h = some r ∧
    r.got ≠ r.expected :=
  ⟨{ fab := { coll0 := some collRun } }, 0, collRun, by decide +kernel, by decide +kernel⟩

theorem test_witness_CollectiveAndCheckpointCommandsComplete_4 : ∃ (s : State) (h : Fin 2) (upsets : List Upset) (s₁ s₂ s₃ s₄ s₅ : State) (q x n pos : Nat) (c : Card) (r : CkptRun) (bs nb mb : List Byte) (ps : List Nat),
    s₁ = s.memUpset upsets ∧
    q = s₁.fld (R.halfCkptReqQ h) 11 0 ∧
    q ≠ 0xFFF ∧
    s₁.ckpt h = none ∧
    s₁.qEn q = true ∧
    s₁.qClass q = 7 ∧
    s₁.enginesHeld = false ∧
    s₁.qHead q = some c ∧
    x = s₁.qCtx q ∧
    s₂ = (s₁.takeCard q).newRequest.wr (R.halfCkptId h) (BitVec.ofNat 64 (c.get 32 8)) ∧
    c.tag = 0xFC ∧
    c.ctx = x ∧
    s₂.inPartition x (c.get 24 8) 128 = true ∧
    s₂.memRead (c.get 24 8) 128 = (s₃, bs, none) ∧
    r = { card := c, no := s₂.fab.engSeq, ctx := x, desc := bs, peers := [], pos := 0 } ∧
    s₃.ckptOk r = true ∧
    s₃.inPartition x (r.d 24 8) 4 = true ∧
    s₃.memRead (r.d 24 8) 4 = (s₄, nb, none) ∧
    n = leNat nb ∧
    1 ≤ n ∧
    n ≤ 65536 ∧
    s₄.inPartition r.ctx (r.d 24 8) (4 + 4 * n) = true ∧
    s₄.memRead (r.d 24 8 + 4) (4 * n) = (s₅, mb, none) ∧
    ps = (chunks 4 mb (n + 1)).map leNat ∧
    (((ps.zip (ps.drop 1)).all fun p => decide (p.1 < p.2)) = true) ∧
    ps.findIdx? (· == s₅.chip) = some pos :=
  ⟨ckptReqState, 0, [], _, _, (((ckptReqState.takeCard 1100).newRequest.wr (R.halfCkptId 0) 0).memRead 0 128).1, ((((ckptReqState.takeCard 1100).newRequest.wr (R.halfCkptId 0) 0).memRead 0 128).1.memRead 256 4).1, (((((ckptReqState.takeCard 1100).newRequest.wr (R.halfCkptId 0) 0).memRead 0 128).1.memRead 256 4).1.memRead 260 4).1, _, _, _, 0, ckptCard, _, (((ckptReqState.takeCard 1100).newRequest.wr (R.halfCkptId 0) 0).memRead 0 128).2.1, [1, 0, 0, 0], [0, 0, 0, 0], _, rfl, rfl, by decide +kernel, by decide +kernel, by decide +kernel, by decide +kernel, by decide +kernel, by decide +kernel, rfl, rfl, by decide +kernel, by decide +kernel, by decide +kernel, by decide +kernel, rfl, by decide +kernel, by decide +kernel, by decide +kernel, rfl, by decide +kernel, by decide +kernel, by decide +kernel, by decide +kernel, rfl, by decide +kernel, by decide +kernel⟩

theorem test_witness_CollectiveAndCheckpointCommandsComplete_5 : ∃ (s : State) (h : Fin 2) (r z : CkptRun) (c : Card) (s₁ : State) (i p : Nat),
    s.ckpt h = some r ∧
    s.enginesHeld = false ∧
    s.qHead r.noticeq = some c ∧
    s₁ = s.takeCard r.noticeq ∧
    i = c.accession - r.first ∧
    r.peers.findIdx? (· == c.srcChip) = some p ∧
    c.tag = 0xFB ∧
    c.get 20 4 = r.region ∧
    c.get 24 8 = r.id ∧
    r.first ≤ c.accession ∧
    i < r.nShards ∧
    r.writing = false ∧
    z = { r with notices := r.notices.set [] (r.n * i + p) (natLE 32 (c.get 32 32)) } :=
  ⟨ckptRuns, 0, ckptRun, _, Card.put (Card.put 0 0 1 0xFB) 12 4 5, _, _, 1, by decide +kernel, by decide +kernel, by decide +kernel, rfl, rfl, by decide +kernel, by decide +kernel, by decide +kernel, by decide +kernel, by decide +kernel, by decide +kernel, by decide +kernel, rfl⟩

theorem test_witness_CollectiveAndCheckpointCommandsComplete_6 : ∃ (s : State) (h : Fin 2) (r : CkptRun),
    s.ckpt h = some r ∧
    r.reading = false ∧
    r.writing = false ∧
    s.enginesHeld = false :=
  ⟨{ recov := { ckpt0 := some { ckptRun with reading := false } } }, 0, { ckptRun with reading := false }, by decide +kernel, by decide +kernel, by decide +kernel, by decide +kernel⟩

theorem test_witness_MemoryAndSparingCommandsComplete_1 : ∃ (s : State) (granule : Fin 512) (value : Word) (k : Nat) (s₁ : State),
    k = R.smemcGranule granule ∧
    bits value 11 10 ≠ 3 ∧
    (s.granValid granule && s.ctxBusy (s.granOwner granule)) = false ∧
    bits value 9 9 = 1 ∧
    s.ctxBusy (bits value 8 0) = false ∧
    (∀ t < 4, s.bit R.pwrDomainState (32 + granule.val / 256 * 4 + t) = true) ∧
    (s.granValid granule = false ∨ s.granOwner granule ≠ bits value 8 0 ∨ s.granClass granule ≠ bits value 11 10) ∧
    s₁ = ((s.setFld k 8 0 (bits value 8 0)).setBit k 9 true).setFld k 11 10 (bits value 11 10) :=
  ⟨{ regs := regsOf [(R.pwrDomainState, 0xFF00000000)] }, 5, 0x203, _, _, rfl, by decide +kernel, by decide +kernel, by decide +kernel, by decide +kernel, by decide +kernel, by decide +kernel, rfl⟩

theorem test_witness_MemoryAndSparingCommandsComplete_2 : ∃ (s : State) (granule : Fin 512) (value : Word) (k : Nat),
    k = R.smemcGranule granule ∧
    bits value 11 10 ≠ 3 ∧
    (s.granValid granule && s.ctxBusy (s.granOwner granule)) = false ∧
    bits value 9 9 = 0 :=
  ⟨{}, 5, 3, _, rfl, by decide +kernel, by decide +kernel, by decide +kernel⟩

theorem test_witness_MemoryAndSparingCommandsComplete_3 : ∃ (s : State) (tier : Fin 8) (bank : Fin 290) (s₁ : State) (k : Nat) (ks : List Nat),
    bank.val < 288 ∧
    s.spareOf tier bank = none ∧
    s.smem.failed.contains (tier.val, bank.val) = false ∧
    (s₁ = s.modLedger fun l => { l with spares := bump l.spares (584 + tier) 1 }) ∧
    ((s₁.freeSpares tier).drop (s₁.smem.failed.filter fun f => f.1 == tier.val).length = k :: ks) ∧
    s₁.smem.rebuilds.get none tier = none :=
  ⟨{}, 0, 9, _, 0, [1], by decide +kernel, by decide +kernel, by decide +kernel, rfl, by decide +kernel, by decide +kernel⟩

theorem test_witness_MemoryAndSparingCommandsComplete_4 : ∃ (s : State) (tier : Fin 8) (bank : Fin 290) (s₁ s₂ : State),
    bank.val < 288 ∧
    s.spareOf tier bank = none ∧
    s.smem.failed.contains (tier.val, bank.val) = false ∧
    (s₁ = s.modLedger fun l => { l with spares := bump l.spares (584 + tier) 1 }) ∧
    ((s₁.freeSpares tier).drop (s₁.smem.failed.filter fun f => f.1 == tier.val).length = []) ∧
    s₂ = { s₁ with smem := { s₁.smem with failed := s₁.smem.failed ++ [(tier.val, bank.val)] } } :=
  ⟨{ regs := regsOf [(R.smemSpareBank 0 0, 0x200), (R.smemSpareBank 0 1, 0x200)] }, 0, 9, _, _, by decide +kernel, by decide +kernel, by decide +kernel, rfl, by decide +kernel, rfl⟩

theorem test_witness_MemoryAndSparingCommandsComplete_5 : ∃ (s : State) (tier : Fin 8) (bank : Fin 290) (k : Nat),
    288 ≤ bank.val ∧
    k = R.smemSpareBank tier (bank - 288) ∧
    s.fld k 10 9 = 0 :=
  ⟨{}, 0, 288, _, by decide +kernel, rfl, by decide +kernel⟩

theorem test_witness_MemoryAndSparingCommandsComplete_6 : ∃ (s : State) (tier : Fin 8) (r : Rebuild),
    s.smem.rebuilds.get none tier = some r :=
  ⟨{ smem := { rebuilds := [(0, some { bank := 1, spare := 0 })] } }, 0, { bank := 1, spare := 0 }, by decide +kernel⟩

theorem test_witness_MemoryAndSparingCommandsComplete_7 : ∃ (s : State) (tier : Fin 8) (r : Rebuild) (rows : Fin 16385),
    s.smem.rebuilds.get none tier = some r ∧
    rows.val < 16384 ∧
    r.row < rows.val :=
  ⟨{ smem := { rebuilds := [(0, some { bank := 1, spare := 0 })] } }, 0, { bank := 1, spare := 0 }, 5, by decide +kernel, by decide +kernel, by decide +kernel⟩

theorem test_witness_MemoryAndSparingCommandsComplete_8 : ∃ (s : State) (tier : Fin 8) (bank : Fin 290) (row : Fin 16384) (n : Nat) (s₁ : State) (m : SmemState),
    n = s.spareRows tier bank ∧
    n ≠ 0 ∧
    bank.val < 288 ∧
    (s₁ = s.copyRow ((List.range 64).map fun w => wordKey tier bank row w)) ∧
    m = { s₁.smem with spareRows := s₁.smem.spareRows.set 64 (512 * tier + bank) (n - 1), rowMap := s₁.smem.rowMap.set 0 ((512 * tier + bank) * 16384 + row) (65 - n) } :=
  ⟨{}, 0, 1, 2, _, _, _, rfl, by decide +kernel, by decide +kernel, rfl, rfl⟩

theorem test_witness_MemoryAndSparingCommandsComplete_9 : ∃ (s : State) (tier : Fin 8) (bank : Fin 290) (row : Fin 16384),
    s.spareRows tier bank = 0 :=
  ⟨{ smem := { spareRows := [(1, 0)] } }, 0, 1, 2, by decide +kernel⟩

theorem test_witness_MemoryAndSparingCommandsComplete_10 : ∃ (s : State) (addr : Nat) (passEnd : Bool) (upsets : List Upset) (s₁ : State),
    s.bit R.smemcScrubCfg 0 = true ∧
    (s₁ = (if 2 ^ 40 ≤ addr then (s.memUpset upsets).scrubParity ((addr - 2 ^ 40) / 8 * 8) else (s.memUpset upsets).scrubWord (addr / 8 * 8))) :=
  ⟨{ regs := regsOf [(R.smemcScrubCfg, 1)] }, 0, true, [], _, by decide +kernel, rfl⟩

theorem test_witness_MemoryAndSparingCommandsComplete_11 : ∃ (s : State) (addr w : Nat) (s₁ : State),
    w = addr / 8 * 8 ∧
    s.smem.owed.contains w = true ∧
    s₁ = { s with smem := { s.smem with owed := s.smem.owed.erase w } } ∧
    (s₁.memHealth w = 1 ∨ s₁.rebuildable w = true) :=
  ⟨{ smem := { owed := [8], ecc := [(8, 1)] } }, 9, _, _, rfl, by decide +kernel, rfl, by decide +kernel⟩

theorem test_witness_MemoryAndSparingCommandsComplete_12 : ∃ (s : State) (pod : Fin 32) (slot i sp v : Nat) (s₁ s₂ s₃ : State),
    (s.recov.retiring.find? (fun k => k / 5 == pod.val) = some slot) ∧
    (((podUnits pod).any fun u => s.unitState u != 3) = false) ∧
    s₁ = s.retireEnds slot ∧
    s₁.bit (R.podSlotMap pod) 15 = false ∧
    s₁.recov.badSpares.contains pod.val = false ∧
    ((List.range 4).find? (fun i => s₁.fld (R.podSlotMap pod) (3 * i + 2) (3 * i) == slot % 5) = some i) ∧
    sp = s₁.fld (R.podSlotMap pod) 14 12 ∧
    s₂ = ((s₁.setFld (R.podSlotMap pod) (3 * i + 2) (3 * i) sp).setFld (R.podSlotMap pod) 14 12 (slot % 5)).setBit (R.podSlotMap pod) 15 true ∧
    v = (s₂.rd (R.podSlotMap pod)).toNat % 65536 ∧
    (s₃ = ((s₂.modLedger fun l => { l with spares := (bump l.spares pod 1).set 0 (32 + pod) v }).newSlot pod i).returnUnits pod) :=
  ⟨{ regs := regsOf ((podUnits 0).map fun u => (R.udState u, 3)), recov := { retiring := [0] } }, 0, 0, 0, _, _, _, _, _, by decide +kernel, by decide +kernel, rfl, by decide +kernel, by decide +kernel, by decide +kernel, rfl, rfl, rfl, rfl⟩

theorem test_witness_MemoryAndSparingCommandsComplete_13 : ∃ (s : State) (pod : Fin 32) (slot : Nat) (testOk : Bool) (s₁ : State),
    (s.recov.retiring.find? (fun k => k / 5 == pod.val) = some slot) ∧
    (((podUnits pod).any fun u => s.unitState u != 3) = false) ∧
    s₁ = s.retireEnds slot ∧
    (s₁.bit (R.podSlotMap pod) 15 = true ∨ testOk = false) :=
  ⟨{ regs := regsOf ((podUnits 0).map fun u => (R.udState u, 3)), recov := { retiring := [0] } }, 0, 0, false, _, by decide +kernel, by decide +kernel, rfl, by decide +kernel⟩

theorem test_witness_MemoryAndSparingCommandsComplete_14 : ∃ (s : State) (core : Fin 128) (arr : Fin 4) (failing : List Nat) (a : Nat) (s₁ : State),
    a = 4 * core.val + arr.val ∧
    ((s.recov.selfTests.any fun e => e.1 == a) = true) ∧
    (((unitsOf core).any fun u => s.hasJob u) = false) ∧
    (s₁ = { s with recov := { s.recov with selfTests := s.recov.selfTests.filter (fun e => e.1 != a) } }) :=
  ⟨{ recov := { selfTests := [(0, 0)] } }, 0, 0, [], _, _, rfl, by decide +kernel, by decide +kernel, rfl⟩

theorem test_witness_MemoryAndSparingCommandsComplete_15 : ∃ (s : State) (s₁ : State),
    s.recov.repairs.contains 3 = true ∧
    (((List.range 171).any fun u => s.unitState u == 1) = false) ∧
    (s₁ = ((s.setBit R.qmStatus 1 true).setBit R.qmStatus 2 false).modLedger fun l => { l with spares := bump l.spares 664 1 }) :=
  ⟨{ recov := { repairs := [3] } }, _, by decide +kernel, by decide +kernel, rfl⟩

theorem test_witness_MemoryAndSparingCommandsComplete_16 : ∃ (s : State) (s₁ : State),
    (s₁ = { s with recov := { s.recov with events := s.recov.events.filter (fun e => decide (s.ltime < e.2.2 + dayTicks)), fired := s.recov.fired.filter (fun e => decide (s.ltime < e.2.2 + dayTicks)) } }) :=
  ⟨{}, _, rfl⟩

theorem test_witness_MemoryAndSparingCommandsComplete_17 : ∃ (s : State),
    s.fld R.mgtRecState 1 0 = 2 ∧
    s.recov.repairs = [] ∧
    s.causeCleared = true :=
  ⟨{ regs := regsOf [(R.mgtRecState, 2), (R.mgtRecCause, 0x6007), (R.fabStatus, 4)] }, by decide +kernel, by decide +kernel, by decide +kernel⟩

theorem test_witness_MemoryAndSparingCommandsComplete_19 : ∃ (s : State) (pool : Fin 128) (g₀ g : Grant) (rest : List Grant),
    s.openGrants pool = g₀ :: rest ∧
    (g = rest.foldl (fun a b => if b.time < a.time then b else a) g₀) :=
  ⟨{ smem := { pools := [(0, { grants := [{ first := 0, count := 1, chip := 0 }] })] } }, 0, { first := 0, count := 1, chip := 0 }, _, [], by decide +kernel, rfl⟩

theorem test_witness_ContextCommandsComplete_1 : ∃ (s : State) (ctx : Fin 512) (s₁ s₂ s₃ : State),
    s.start.ready = true ∧
    (s.bit R.trustLifecycle 2 = false ∨ s.fld R.trustLifecycle 1 0 ≠ 1) ∧
    s.ctxState ctx = 0 ∧
    s₁ = (s.clearRegs ((List.range 11).map (R.ctxselAcc ctx) ++ (List.range 12).map (R.trustselCMeas ctx))).wr (R.ctxselCCause ctx) 0 ∧
    s₂ = { s₁ with recov := { s₁.recov with energy := s₁.recov.energy.set 0 ctx 0 } } ∧
    s₃ = { s₂ with obs := { s₂.obs with origin := s₂.obs.origin.set 0 ctx s₂.ltime } } :=
  ⟨{ regs := regsOf [(R.ctxselCState 3, 0)], start := { ready := true } }, 3, _, _, _, by decide +kernel, by decide +kernel, by decide +kernel, rfl, rfl, rfl⟩

theorem test_witness_ContextCommandsComplete_2 : ∃ (s : State) (ctx : Fin 512),
    s.start.ready = true ∧
    s.ctxState ctx = 1 :=
  ⟨{ regs := regsOf [(R.ctxselCState 3, 1)], start := { ready := true } }, 3, by decide +kernel, by decide +kernel⟩

theorem test_witness_ContextCommandsComplete_3 : ∃ (s : State) (ctx : Fin 512),
    s.start.ready = true ∧
    s.ctxState ctx = 2 :=
  ⟨{ regs := regsOf [(R.ctxselCState 3, 2)], start := { ready := true } }, 3, by decide +kernel, by decide +kernel⟩

theorem test_witness_ContextCommandsComplete_4 : ∃ (s : State) (ctx : Fin 512),
    s.start.ready = true ∧
    (s.ctxState ctx = 2 ∨ s.ctxState ctx = 3) :=
  ⟨{ regs := regsOf [(R.ctxselCState 3, 2)], start := { ready := true } }, 3, by decide +kernel, by decide +kernel⟩

theorem test_witness_ContextCommandsComplete_5 : ∃ (s : State) (ctx : Fin 512) (word : Nat → Nat) (s₁ : State),
    s.start.ready = true ∧
    s.ctxState ctx = 1 ∧
    s.ctxEnabled ctx = false ∧
    (word = fun i => ((s.partition ctx).filter fun g => g / 32 == i).foldl (fun a g => a + 2 ^ (g % 32)) 0) ∧
    (s₁ = (List.range 16).foldl (fun (st : State) i => st.wr (R.ctxselCGranules ctx i) (BitVec.ofNat 64 (word i))) s) :=
  ⟨{ regs := regsOf [(R.ctxselCState 3, 1)], start := { ready := true } }, 3, _, _, by decide +kernel, by decide +kernel, by decide +kernel, rfl, rfl⟩

theorem test_witness_ContextCommandsComplete_6 : ∃ (s : State) (ctx : Fin 512),
    s.start.ready = true ∧
    s.ctxState ctx = 5 ∧
    s.heldAgain ctx = true :=
  ⟨{ regs := regsOf [(R.ctxselCState 3, 5)], start := { ready := true } }, 3, by decide +kernel, by decide +kernel, by decide +kernel⟩

theorem test_witness_ContextCommandsComplete_7 : ∃ (s : State) (ctx : Fin 512) (hs : List Nat) (s₁ s₂ s₃ s₄ : State),
    s.start.ready = true ∧
    (s.ctxState ctx = 1 ∨ s.ctxState ctx = 5) ∧
    (hs = (s.progs.filter fun p => p.2.ctx == ctx.val).map (·.1)) ∧
    (s₁ = { s with progs := s.progs.filter (fun p => p.2.ctx != ctx.val), wintab := s.wintab.filter (fun w => !hs.contains (w.1 / 16)) }) ∧
    (s₂ = ((s₁.ctxSeqs ctx).foldl (fun (st : State) q => (st.setSeq q {}).setSeqState q 0) s₁).withdraw ctx) ∧
    (s₃ = (s₂.partition ctx).foldl (fun (st : State) g => st.returnGranule g) s₂) ∧
    s₄ = (s₃.setBit (R.trustselCSigpol ctx) 5 false).setBit (R.obsselCBufBase ctx) 0 false :=
  ⟨{ regs := regsOf [(R.ctxselCState 3, 1)], start := { ready := true } }, 3, _, _, _, _, _, by decide +kernel, by decide +kernel, rfl, rfl, rfl, rfl, rfl⟩

theorem test_witness_ContextCommandsComplete_8 : ∃ (s : State) (ctx : Fin 512) (s₁ : State),
    s.ctxState ctx = 4 ∧
    (s.ctxUnits ctx).isEmpty = true ∧
    s₁ = (s.closeSlots ctx).withdraw ctx ∧
    s₁.slotsIdle ctx = true :=
  ⟨{ regs := regsOf [(R.ctxselCState 3, 4)] }, 3, _, by decide +kernel, by decide +kernel, rfl, by decide +kernel⟩

theorem test_witness_ContextCommandsComplete_9 : ∃ (s : State) (ctx : Fin 512),
    s.ctxState ctx = 3 ∧
    (s.ctxUnits ctx).isEmpty = true ∧
    (((s.ctxSeqs ctx).all fun q => !s.bit (R.stgSeqCtrl q) 0) = true) :=
  ⟨{ regs := regsOf [(R.ctxselCState 3, 3)] }, 3, by decide +kernel, by decide +kernel, by decide +kernel⟩

theorem test_witness_ContextCommandsComplete_10 : ∃ (s : State) (ctx : Fin 512) (s₁ : State),
    s.ctxState ctx = 6 ∧
    s₁ = (s.accountMove ctx).spillOut ctx :=
  ⟨{ regs := regsOf [(R.ctxselCState 3, 6)] }, 3, _, by decide +kernel, rfl⟩

theorem test_witness_ContextCommandsComplete_11 : ∃ (s : State) (ctx : Fin 512) (image : List (Nat × List Byte)) (s₁ : State),
    s.ctxState ctx = 7 ∧
    s₁ = s.accountMove ctx :=
  ⟨{ regs := regsOf [(R.ctxselCState 3, 7)] }, 3, [], _, by decide +kernel, rfl⟩

theorem test_witness_ObservabilityCommandsComplete_1 : ∃ (s : State),
    s.bit R.obsCtrl 1 = false ∧
    s.now < (s.rd R.obsFreezeAt).toNat :=
  ⟨{ regs := regsOf [(R.obsFreezeAt, 100)] }, by decide +kernel, by decide +kernel⟩

theorem test_witness_ObservabilityCommandsComplete_2 : ∃ (s : State) (t : Nat) (s₁ s₂ : State),
    s.bit R.obsCtrl 2 = true ∧
    t = (s.rd R.obsFreezeAt).toNat ∧
    s₁ = (s.advanceTo t).freezeCopy ∧
    (s₂ = s₁.sysRecord 0x20 1 0x3FF s₁.now [(8, t), (1, Config.freezeScope (s₁.fld R.obsFreezeScope 9 0)), (1, if s₁.bit R.fabStatus 2 then 0 else 1)]) :=
  ⟨{ regs := regsOf [(R.obsCtrl, 4), (R.obsFreezeAt, 100)] }, _, _, _, by decide +kernel, rfl, rfl, rfl⟩

theorem test_witness_ObservabilityCommandsComplete_3 : ∃ (s : State) (s₁ : State),
    s₁ = { s with obs := { s.obs with freeze := none } } :=
  ⟨{}, _, rfl⟩

theorem test_witness_ObservabilityCommandsComplete_4 : ∃ (s : State),
    s.bit R.obsCtrl 0 = true ∧
    s.bit R.obsCtrl 1 = true :=
  ⟨{ regs := regsOf [(R.obsCtrl, 3)] }, by decide +kernel, by decide +kernel⟩

theorem test_witness_ObservabilityCommandsComplete_5 : ∃ (s : State),
    s.bit R.obsCtrl 0 = true ∧
    s.bit R.obsCtrl 1 = true :=
  ⟨{ regs := regsOf [(R.obsCtrl, 3)] }, by decide +kernel, by decide +kernel⟩

theorem test_witness_ObservabilityCommandsComplete_6 : ∃ (s : State) (s₁ : State),
    s.bit R.obsSbufBase 0 = false ∧
    s.sysRing (s.fld R.obsSbufBase 33 12 * 4096) (s.fld R.obsSbufSize 33 12 * 4096) = true ∧
    s₁ = (s.setBit R.obsSbufBase 0 true).wr R.obsSbufWr 0 :=
  ⟨{ regs := regsOf [(R.obsSbufSize, 4096)] }, _, by decide +kernel, by decide +kernel, rfl⟩

theorem test_witness_ObservabilityCommandsComplete_7 : ∃ (s : State) (ctx : Fin 512) (s₁ : State),
    s.bit (R.obsselCBufBase ctx) 0 = false ∧
    s.ctxRing ctx (s.fld (R.obsselCBufBase ctx) 33 12 * 4096) (s.fld (R.obsselCBufSize ctx) 33 12 * 4096) = true ∧
    s₁ = (s.setBit (R.obsselCBufBase ctx) 0 true).wr (R.obsselCBufWr ctx) 0 :=
  ⟨{ regs := regsOf [(R.obsselCBufSize 0, 4096), (R.smemcGranule 0, 0x200)] }, 0, _, by decide +kernel, by decide +kernel, rfl⟩

theorem test_witness_ObservabilityCommandsComplete_8 : ∃ (s : State) (ctx : Fin 512) (value : Word),
    (((List.range 4).all fun k => eventCode (bits value (8 * k + 7) (8 * k))) = true) :=
  ⟨{}, 0, 0x02020202, by decide +kernel⟩

theorem test_witness_ObservabilityCommandsComplete_9 : ∃ (s : State),
    bits (s.rd R.obsDumpCfg) 10 10 = 0 ∧
    s.ctxRing (bits (s.rd R.obsDumpCfg) 8 0) (s.fld R.obsDumpBuf 33 12 * 4096) (s.fld R.obsDumpSize 33 12 * 4096) = true :=
  ⟨{ regs := regsOf [(R.obsDumpSize, 4096), (R.smemcGranule 0, 0x200)] }, by decide +kernel, by decide +kernel⟩

theorem test_witness_ObservabilityCommandsComplete_10 : ∃ (s : State) (u base size : Nat) (bs : List Byte × Nat),
    s.obs.dumpUnit = some u ∧
    s.hasJob u = true ∧
    (s.job u).torn = false ∧
    s.unitState u = 2 ∧
    (((unitCores u).all fun c => (s.core c).drained) = true) ∧
    base = s.fld R.obsDumpBuf 33 12 * 4096 ∧
    size = s.fld R.obsDumpSize 33 12 * 4096 ∧
    (bs = (unitCores u).foldl (fun (a : List Byte × Nat) c => match (s.core c).dumpLast with | some (iseq, call, d, len) => (a.1 ++ s.coreDump u c (a.2 + 1) iseq call d len, a.2 + 1) | none => a) ([], 0)) :=
  ⟨{ regs := regsOf [(R.udState 0, 2)], obs := { dumpUnit := some 0 } }, 0, _, _, _, by decide +kernel, by decide +kernel, by decide +kernel, by decide +kernel, by decide +kernel, rfl, rfl, rfl⟩

theorem test_witness_ObservabilityCommandsComplete_11 : ∃ (s : State) (ledg : Ledger) (s₁ s₂ : State),
    ledg = s.obs.ledger ∧
    (s₁ = s.modLedger fun l => if ledg.useB then { l with copyA := ledg.image (ledg.gen + 1), gen := ledg.gen + 1, useB := false } else { l with copyB := ledg.image (ledg.gen + 1), gen := ledg.gen + 1, useB := true }) ∧
    s₂ = { s₁ with obs := { s₁.obs with saved := s₁.obs.ledger } } :=
  ⟨{}, _, _, _, rfl, rfl, rfl⟩

theorem test_witness_PowerAndClockCommandsComplete_1 : ∃ (s : State) (t : Nat) (vout : Bool) (s₁ : State),
    s.power.trip = false ∧
    t = s.fld R.clkCclkStatus 5 3 ∧
    t ≠ s.curStep ∧
    (s.curStep < t ∨ vout = true) ∧
    s₁ = ((s.setFld R.clkCclkStatus 2 0 t).setBit R.clkCclkStatus 6 false).commandVout (stepMv t) :=
  ⟨{ regs := regsOf [(R.clkCclkStatus, 8)] }, 1, false, _, by decide +kernel, by decide +kernel, by decide +kernel, by decide +kernel, rfl⟩

theorem test_witness_PowerAndClockCommandsComplete_2 : ∃ (s : State) (powers : List Nat) (s₁ : State),
    s₁ = (s.recordSample powers).judgePeak powers :=
  ⟨{}, [], _, rfl⟩

theorem test_witness_PowerAndClockCommandsComplete_3 : ∃ (s : State) (value : Word) (en : Nat → State → State),
    (en = fun d st => if (value.toNat / 2 ^ d % 2 == 1) = st.bit R.pwrDomainEn d then st else if (value.toNat / 2 ^ d % 2 == 1) = true then st.setBit R.pwrDomainEn d true else if st.mayOff d then (st.setBit R.pwrDomainEn d false).domainOff d else st.intEvent 498 7) :=
  ⟨{}, 1, _, rfl⟩

theorem test_witness_PowerAndClockCommandsComplete_4 : ∃ (s : State) (domain : Fin 48),
    s.bit R.pwrDomainEn domain = true ∧
    s.bit R.pwrDomainState domain = false ∧
    (s.power.trip = false ∨ tripDomains.contains domain.val = false) :=
  ⟨{ regs := regsOf [(R.pwrDomainEn, 1)] }, 0, by decide +kernel, by decide +kernel, by decide +kernel⟩

theorem test_witness_PowerAndClockCommandsComplete_5 : ∃ (s : State) (domain : Fin 48),
    s.bit R.pwrDomainEn domain = true ∧
    s.bit R.pwrDomainState domain = false ∧
    (s.power.trip = false ∨ tripDomains.contains domain.val = false) :=
  ⟨{ regs := regsOf [(R.pwrDomainEn, 1)] }, 0, by decide +kernel, by decide +kernel, by decide +kernel⟩

theorem test_witness_PowerAndClockCommandsComplete_6 : ∃ (s : State) (domain : Fin 48),
    s.bit R.pwrDomainState domain = true :=
  ⟨{ regs := regsOf [(R.pwrDomainState, 1)] }, 0, by decide +kernel⟩

theorem test_witness_PowerAndClockCommandsComplete_7 : ∃ (s : State) (readings rs : List Nat) (t d th : Nat) (s₁ s₂ s₃ : State),
    (rs = (List.range 48).map fun d => min 4095 (readings.getD d 0)) ∧
    (t, d) = hottest rs ∧
    (s₁ = (rs.zipIdx.foldl (fun (st : State) r => st.wr (R.pwrTemp r.2) (BitVec.ofNat 64 r.1)) s).wr R.pwrTempMax (BitVec.ofNat 64 (t + 4096 * d))) ∧
    th = 8 * s₁.fld R.pwrThrottleTemp 6 0 ∧
    (s₂ = { s₁ with power := { s₁.power with hot := decide (th ≤ t), cool := rs.all (fun r => decide (r + 24 < th)) } }) ∧
    (s₃ = (if th ≤ t ∧ s.fld R.pwrTempMax 11 0 < th then ((s₂.demand 2 (min 4 (s₂.curStep + 1))).powerRaise 0x8002 1 d d t).applyLimits else s₂)) :=
  ⟨{ regs := regsOf [(R.pwrThrottleTemp, 105)] }, [8], _, 8, 0, _, _, _, _, rfl, by decide +kernel, rfl, rfl, rfl, rfl⟩

theorem test_witness_PowerAndClockCommandsComplete_8 : ∃ (s : State),
    s.power.hot = true :=
  ⟨{ power := { hot := true } }, by decide +kernel⟩

theorem test_witness_PowerAndClockCommandsComplete_9 : ∃ (s : State),
    s.power.hot = false ∧
    s.power.cool = true :=
  ⟨{ power := { cool := true } }, by decide +kernel, by decide +kernel⟩

theorem test_witness_PowerAndClockCommandsComplete_10 : ∃ (s : State) (volts : List Nat) (near : Nat → State → Bool) (s₁ s₂ : State),
    (s₁ = (List.range 9).foldl (fun (st : State) r => if (r = 8 ∨ st.start.armed = true) ∧ r < volts.length then st.judgeRail r (volts.getD r 0) else st) s) ∧
    (near = fun r st => decide (volts.getD r 0 ≤ 1000 * st.power.vset + 10000 ∧ 1000 * st.power.vset ≤ volts.getD r 0 + 10000)) ∧
    (s₂ = (if near 0 s₁ = true ∧ near 1 s₁ = true then { s₁ with power := { s₁.power with vold := s₁.power.vset } } else s₁)) :=
  ⟨{}, [], _, _, _, rfl, rfl, rfl⟩

theorem test_witness_PowerAndClockCommandsComplete_11 : ∃ (s : State),
    s.power.brake = false :=
  ⟨{}, by decide +kernel⟩

theorem test_witness_PowerAndClockCommandsComplete_14 : ∃ (s : State) (n b : Nat) (s₁ s₂ s₃ : State),
    s.power.vset = 850 ∧
    s₁ = s.count R.pwrVmaxUsed 1 ∧
    n = s₁.fld R.pwrVmaxUsed 31 0 ∧
    (s₂ = s₁.modLedger fun l => { l with life := l.life.set 0 14 n }) ∧
    b = s₂.fld R.pwrVmaxBudget 31 0 ∧
    (s₃ = (if n * 10 = b * 9 then s₂.powerRaise 0x8007 4 0xFF 0xFF 0 else s₂)) :=
  ⟨{ power := { vset := 850 }, regs := regsOf [(R.pwrVmaxBudget, 9)] }, _, _, _, _, _, by decide +kernel, rfl, rfl, rfl, rfl, rfl⟩

theorem test_witness_PowerAndClockCommandsComplete_16 : ∃ (s : State) (ref : Bool) (s₁ : State),
    s.bit R.clkPllStatus 0 = true ∧
    s₁ = (s.setBit R.clkPllStatus 0 false).setBit R.clkPllStatus 1 true :=
  ⟨{ regs := regsOf [(R.clkPllStatus, 1)] }, true, _, by decide +kernel, rfl⟩

end
end

namespace Sys2Proof

/-! Two's-complement patterns (R39): `signed` is the library's balanced remainder modulo `2 ^ w`, and `pat` is its
inverse on the integers in range. -/

theorem signed_eq_bmod {w : Nat} (hw : 0 < w) (v : Nat) : signed w v = (v : Int).bmod (2 ^ w) := by
  obtain ⟨k, rfl⟩ : ∃ k, w = k + 1 := ⟨w - 1, by omega⟩
  have hpow : 2 ^ (k + 1) = 2 * 2 ^ k := Nat.pow_succ'
  rw [signed, Int.bmod_def, ← Int.natCast_emod, Nat.add_sub_cancel, hpow]
  split <;> split <;> omega

theorem neg_le_signed {w : Nat} (hw : 0 < w) (v : Nat) : -((2 ^ w : Nat) / 2 : Int) ≤ signed w v := by
  rw [signed_eq_bmod hw]
  exact Int.le_bmod (Nat.two_pow_pos w)

theorem signed_lt {w : Nat} (hw : 0 < w) (v : Nat) : signed w v < ((2 ^ w : Nat) + 1) / 2 := by
  rw [signed_eq_bmod hw]
  exact Int.bmod_lt (Nat.two_pow_pos w)

/-- A pattern that fits its width is congruent to the integer it stands for. -/
theorem signed_emod {w v : Nat} (hw : 0 < w) (hv : v < 2 ^ w) : signed w v % (2 ^ w : Nat) = v := by
  rw [signed_eq_bmod hw, Int.bmod_emod, ← Int.natCast_emod, Nat.mod_eq_of_lt hv]

theorem natCast_pat (w : Nat) (n : Int) : (pat w n : Int) = n % (2 ^ w : Nat) :=
  Int.toNat_of_nonneg (Int.emod_nonneg n (Int.ofNat_ne_zero.mpr (Nat.ne_of_gt (Nat.two_pow_pos w))))

theorem pat_lt (w : Nat) (n : Int) : pat w n < 2 ^ w := by
  have hlt := Int.emod_lt_of_pos n (Int.natCast_pos.mpr (Nat.two_pow_pos w))
  rw [← natCast_pat] at hlt
  exact Int.ofNat_lt.mp hlt

/-- Every integer in the range of the width is the value of its pattern. -/
theorem signed_pat {w : Nat} {n : Int} (hw : 0 < w) (hlo : -((2 ^ w : Nat) / 2 : Int) ≤ n)
    (hhi : n < ((2 ^ w : Nat) + 1) / 2) : signed w (pat w n) = n := by
  rw [signed_eq_bmod hw, natCast_pat, Int.emod_bmod, Int.bmod_eq_of_le hlo hhi]

theorem Fmt.decode_int8 (v : Nat) : Fmt.decode .int8 v = ofInt (signed 8 v) 0 := rfl
theorem Fmt.decode_mxint8 (v : Nat) : Fmt.decode .mxint8 v = ofInt (signed 8 v) (-6) := rfl
theorem Fmt.decode_int32 (v : Nat) : Fmt.decode .int32 v = ofInt (signed 32 v) 0 := rfl

/-- Settles O33: a pattern stands for `signed` of it, and an integer in range is the value of its `pat`. -/
theorem integerFormatsRule : Obligations.IntegerFormatsRule := by
  refine ⟨fun p hp => ?int8Pattern, fun n hlo hhi => ?int8Value, fun p hp => ?int32Pattern, fun n hlo hhi => ?int32Value⟩
  case int8Pattern =>
    have hlo := neg_le_signed (w := 8) (by decide) p
    have hhi := signed_lt (w := 8) (by decide) p
    exact ⟨signed 8 p, hlo, by omega, (signed_emod (w := 8) (by decide) hp).symm, Fmt.decode_int8 p, Fmt.decode_mxint8 p⟩
  case int8Value =>
    have hval : signed 8 (pat 8 n) = n := signed_pat (by decide) hlo (by omega)
    refine ⟨pat 8 n, pat_lt 8 n, ?_, ?_⟩
    · rw [Fmt.decode_int8, hval]
    · rw [Fmt.decode_mxint8, hval]
  case int32Pattern =>
    have hlo := neg_le_signed (w := 32) (by decide) p
    have hhi := signed_lt (w := 32) (by decide) p
    exact ⟨signed 32 p, hlo, by omega, (signed_emod (w := 32) (by decide) hp).symm, Fmt.decode_int32 p⟩
  case int32Value =>
    have hval : signed 32 (pat 32 n) = n := signed_pat (by decide) hlo (by omega)
    exact ⟨pat 32 n, pat_lt 32 n, by rw [Fmt.decode_int32, hval]⟩

end Sys2Proof

namespace Sys2Proof.Machine

/-! The decoding of stage-memory addresses (R207, R208): the fields of Table 8-1 are read off by arithmetic once, and the
granule is a function of the tier and the row. -/

theorem smRow_lt (a : Nat) : smRow a < 16384 := Nat.mod_lt _ (by decide)

/-- Bits [33:25] of an address are its half and the upper bits of its row. -/
theorem smGranule_eq_rowGranule (a : Nat) : smGranule a = rowGranule (smTier a) (smRow a) := by
  unfold smGranule rowGranule smTier smRow
  omega

theorem smGranule_eq_div {a : Nat} (ha : a < 2 ^ 34) : smGranule a = a / 2 ^ 25 :=
  Nat.mod_eq_of_lt (Nat.div_lt_of_lt_mul ha)

/-- A granule is 64 rows of one half. -/
theorem rowGranule_eq_iff {t r g : Nat} (hr : r < 16384) :
    rowGranule t r = g ↔ t / 4 = g / 256 ∧ 64 * (g % 256) ≤ r ∧ r ≤ 64 * (g % 256) + 63 := by
  unfold rowGranule
  omega

section

variable {t b r w : Nat}

theorem smAddr_div_row_bytes (hw : w < 64) :
    smAddr t b r w / 512 = t / 4 * 2 ^ 24 + r * 2 ^ 10 + b % 8 * 128 + b / 8 * 4 + t % 4 := by
  unfold smAddr
  omega

theorem smAddr_div_channel (hw : w < 64) :
    smAddr t b r w / 2048 = t / 4 * 2 ^ 22 + r * 2 ^ 8 + b % 8 * 32 + b / 8 := by
  unfold smAddr
  omega

theorem smAddr_div_bank (hb : b < 256) (hw : w < 64) :
    smAddr t b r w / 65536 = t / 4 * 2 ^ 17 + r * 8 + b % 8 := by
  unfold smAddr
  omega

theorem smAddr_div_row (hb : b < 256) (hw : w < 64) : smAddr t b r w / 2 ^ 19 = t / 4 * 2 ^ 14 + r := by
  unfold smAddr
  omega

theorem smAddr_div_half (hb : b < 256) (hr : r < 16384) (hw : w < 64) : smAddr t b r w / 2 ^ 33 = t / 4 := by
  unfold smAddr
  omega

theorem smTier_smAddr (ht : t < 8) (hb : b < 256) (hr : r < 16384) (hw : w < 64) : smTier (smAddr t b r w) = t := by
  rw [smTier, smAddr_div_half hb hr hw, smAddr_div_row_bytes hw]
  omega

theorem smChannel_smAddr (hb : b < 256) (hw : w < 64) : smChannel (smAddr t b r w) = b / 8 := by
  rw [smChannel, smAddr_div_channel hw]
  omega

theorem smBankIn_smAddr (hb : b < 256) (hw : w < 64) : smBankIn (smAddr t b r w) = b % 8 := by
  rw [smBankIn, smAddr_div_bank hb hw]
  omega

theorem smBank_smAddr (hb : b < 256) (hw : w < 64) : smBank (smAddr t b r w) = b := by
  rw [smBank, smChannel_smAddr hb hw, smBankIn_smAddr hb hw, Nat.div_add_mod]

theorem smRow_smAddr (hb : b < 256) (hr : r < 16384) (hw : w < 64) : smRow (smAddr t b r w) = r := by
  rw [smRow, smAddr_div_row hb hw]
  omega

end

/-- Settles O32: the granule is `rowGranule` of the tier and the row, and `smAddr` is taken apart into its fields. -/
theorem granuleNumberRule : Obligations.GranuleNumberRule := by
  refine ⟨fun a ha => ⟨smGranule_eq_div ha, fun g _ => ?rows⟩, fun t ht b hb r hr w hw => ?word, by decide⟩
  case rows =>
    rw [smGranule_eq_rowGranule]
    exact rowGranule_eq_iff (smRow_lt a)
  case word =>
    have htier := smTier_smAddr ht hb hr hw
    have hrow := smRow_smAddr (t := t) hb hr hw
    refine ⟨?_, htier, smBank_smAddr hb hw, hrow⟩
    rw [smGranule_eq_rowGranule, htier, hrow, rowGranule]

/-! The enabling of a credit pool (R225). -/

section

variable {s : State} {i k : Nat}

theorem regsWf_setFld (h : regsWf s.regs = true) (hi lo x : Nat) : regsWf (s.setFld k hi lo x).regs = true :=
  regsWf_set h

theorem regsWf_setBit (h : regsWf s.regs = true) (j : Nat) (v : Bool) : regsWf (s.setBit k j v).regs = true :=
  regsWf_set h

/-- A pool's record shows in POOL_STATE and POOL_WAIT and in no other register. -/
theorem rd_setPool_ne (h : regsWf s.regs = true) (hstate : k ≠ R.poolPoolState i) (hwait : k ≠ R.poolPoolWait i)
    (p : Pool) : (s.setPool i p).rd k = s.rd k :=
  calc (s.setPool i p).rd k
    _ = (s.setFld (R.poolPoolState i) 31 25 (p.grants.filter fun g => !g.closed).length).rd k :=
      rd_setFld_ne (regsWf_setFld h _ _ _) hwait
    _ = s.rd k := rd_setFld_ne h hstate

theorem rd_startFree_ne (h : regsWf s.regs = true) (hstate : k ≠ R.poolPoolState i) : (s.startFree i).rd k = s.rd k :=
  rd_setFld_ne h hstate

theorem regsWf_startFree (h : regsWf s.regs = true) : regsWf (s.startFree i).regs = true := regsWf_setFld h _ _ _

theorem poolPoolCfg_ne_poolPoolState (i : Nat) : R.poolPoolCfg i ≠ R.poolPoolState i := by
  unfold R.poolPoolCfg R.poolPoolState regKey
  omega

theorem poolPoolCfg_ne_poolPoolWait (i : Nat) : R.poolPoolCfg i ≠ R.poolPoolWait i := by
  unfold R.poolPoolCfg R.poolPoolWait regKey
  omega

theorem poolPoolCfg_ne_smemcStatus (i : Nat) : R.poolPoolCfg i ≠ R.smemcStatus := by
  unfold R.poolPoolCfg R.smemcStatus regKey
  omega

theorem poolEn_setPool (h : regsWf s.regs = true) (p : Pool) : (s.setPool i p).poolEn i = s.poolEn i := by
  unfold State.poolEn State.bit State.fld
  rw [rd_setPool_ne h (poolPoolCfg_ne_poolPoolState i) (poolPoolCfg_ne_poolPoolWait i)]

theorem poolEn_startFree (h : regsWf s.regs = true) : (s.startFree i).poolEn i = s.poolEn i := by
  unfold State.poolEn State.bit State.fld
  rw [rd_startFree_ne h (poolPoolCfg_ne_poolPoolState i)]

/-- The three conditions of R225, as a proposition. -/
theorem poolEnableOk_iff : s.poolEnableOk i = true ↔
    s.poolBase i % s.slotSize i = 0 ∧ s.poolBase i + s.poolSlots i * s.slotSize i ≤ smSize ∧
      ∀ g ∈ granulesOf (s.poolBase i) (s.poolSlots i * s.slotSize i),
        s.granValid g = true ∧ s.granOwner g = s.poolCtx i ∧ s.granClass g = 2 := by
  simp [State.poolEnableOk, and_assoc]

theorem poolOn_of_ok (hoff : s.poolEn i = false) (hok : s.poolEnableOk i = true) :
    s.poolOn i = ((s.setBit (R.poolPoolCfg i) 0 true).startFree i).setPool i {} := by
  simp [State.poolOn, hoff, hok]

theorem poolOn_of_not_ok (hoff : s.poolEn i = false) (hbad : s.poolEnableOk i = false) :
    s.poolOn i = s.setBit R.smemcStatus 1 true := by
  simp [State.poolOn, hoff, hbad]

/-- An enable sets EN exactly when its conditions hold. -/
theorem poolEn_poolOn (h : regsWf s.regs = true) (hoff : s.poolEn i = false) :
    (s.poolOn i).poolEn i = s.poolEnableOk i := by
  cases hok : s.poolEnableOk i with
  | true =>
    have hset := regsWf_setBit (k := R.poolPoolCfg i) h 0 true
    rw [poolOn_of_ok hoff hok, poolEn_setPool (regsWf_startFree hset), poolEn_startFree hset]
    exact bit_setBit h (by decide) true
  | false =>
    rw [poolOn_of_not_ok hoff hok, ← hoff]
    exact bit_setBit_ne h (poolPoolCfg_ne_smemcStatus i) true

/-- An enable that fails its conditions sets POOL_CFG_ERR. -/
theorem poolCfgErr_poolOn (h : regsWf s.regs = true) (hoff : s.poolEn i = false) (hbad : s.poolEnableOk i = false) :
    (s.poolOn i).bit R.smemcStatus 1 = true := by
  rw [poolOn_of_not_ok hoff hbad]
  exact bit_setBit h (by decide) true

/-- While a pool is enabled, only a write of EN = 0 to POOL_CFG has an effect. -/
theorem poolWrite_of_enabled {ag : Nat} {h : RegHit} {w m : Word}
    (hon : s.poolEn (64 * (h.home - 393) + h.i) = true)
    (hkeep : h.row.off = 0x100 → bits (s.merged h w m) 0 0 = 1) : s.poolWrite ag h w m = s := by
  by_cases hcfg : h.row.off = 0x100
  · simp [State.poolWrite, hon, hcfg, hkeep hcfg]
  · simp [State.poolWrite, hon, hcfg]

end

/-- Settles O21: a pool that is off follows the two outcomes of `poolOn`, and a write to an enabled one is dropped. -/
theorem poolEnableRule : Obligations.PoolEnableRule :=
  ⟨fun _ _ ⟨_, _, hregs⟩ hoff => ⟨poolEnableOk_iff, poolEn_poolOn hregs hoff, poolCfgErr_poolOn hregs hoff⟩,
    fun _ _ _ _ _ => poolWrite_of_enabled⟩

end Sys2Proof.Machine

namespace Sys2Proof.Machine

/-! Rings (R239): the two pointers of a queue, the length they spell, and what an enqueue and a dequeue change. -/

theorem qselQptr_ne_qselQcfg (q : Nat) : R.qselQptr q ≠ R.qselQcfg q := by
  unfold R.qselQptr R.qselQcfg regKey
  omega

theorem qselQring_ne_qselQcfg (q : Nat) : R.qselQring q ≠ R.qselQcfg q := by
  unfold R.qselQring R.qselQcfg regKey
  omega

theorem qselQring_ne_qselQptr (q : Nat) : R.qselQring q ≠ R.qselQptr q := by
  unfold R.qselQring R.qselQptr regKey
  omega

/-- Below twice the depth, a pointer is a lap bit and a place in the ring. -/
theorem lap_and_place {x d : Nat} (hx : x < 2 * d) :
    (x < d ∧ x / d = 0 ∧ x % d = x) ∨ (d ≤ x ∧ x / d = 1 ∧ x % d = x - d) := by
  rcases Nat.lt_or_ge x d with hlow | hhigh
  · exact .inl ⟨hlow, Nat.div_eq_of_lt hlow, Nat.mod_eq_of_lt hlow⟩
  · have hplace : x - d < d := by omega
    refine .inr ⟨hhigh, ?_, by rw [Nat.mod_eq_sub_mod hhigh, Nat.mod_eq_of_lt hplace]⟩
    rw [Nat.div_eq_sub_div (by omega) hhigh, Nat.div_eq_of_lt hplace]

/-- A write of a value other than the default is read back from any table, in canonical form or not. -/
theorem Tab.get_set_self_of_ne {α : Type} [DecidableEq α] {d x : α} {t : Tab α} {k : Nat} (hx : x ≠ d) :
    (Tab.set d t k x).get d k = x := by
  rw [Tab.set, if_neg hx, Tab.get_put_self]

theorem Tab.get_set_ne_of_ne {α : Type} [DecidableEq α] {d x : α} {t : Tab α} {j k : Nat} (hx : x ≠ d) (hj : j ≠ k) :
    (Tab.set d t k x).get d j = t.get d j := by
  rw [Tab.set, if_neg hx, Tab.get_put_ne hj]

section

variable {s : State} {q : Nat}

/-! ### The depth and the length of a ring -/

theorem sixteen_le_qDepth (h : 4 ≤ s.qLog q) : 16 ≤ s.qDepth q :=
  Nat.pow_le_pow_right (n := 2) (by decide) h

theorem qDepth_le_4096 (h : s.qLog q ≤ 12) : s.qDepth q ≤ 4096 :=
  Nat.pow_le_pow_right (n := 2) (by decide) h

/-- A pointer that wraps at twice the depth fits the 13 bits of its field. -/
theorem wrapped_lt (h : s.qLog q ≤ 12) (n : Nat) : n % (2 * s.qDepth q) < 2 ^ 13 := by
  have hpos : 0 < s.qDepth q := Nat.two_pow_pos _
  have hwrap : n % (2 * s.qDepth q) < 2 * s.qDepth q := Nat.mod_lt _ (by omega)
  have hle := qDepth_le_4096 h
  omega

/-- The length is how far WR is ahead of RD, modulo twice the depth. -/
theorem qLen_eq (hwr : s.qWr q < 2 * s.qDepth q) (hrd : s.qRd q < 2 * s.qDepth q) :
    s.qLen q = if s.qRd q ≤ s.qWr q then s.qWr q - s.qRd q else s.qWr q + 2 * s.qDepth q - s.qRd q := by
  have hsum : s.qWr q + 2 * s.qDepth q - s.qRd q < 2 * (2 * s.qDepth q) := by omega
  rcases lap_and_place hsum with ⟨hbehind, _, hmod⟩ | ⟨hahead, _, hmod⟩
  · rw [State.qLen, hmod, if_neg (by omega)]
  · rw [State.qLen, hmod, if_pos (by omega)]
    omega

theorem qEmpty_iff : s.qEmpty q = true ↔ s.qWr q = s.qRd q := by simp [State.qEmpty]

theorem qLen_eq_zero_iff (hwr : s.qWr q < 2 * s.qDepth q) (hrd : s.qRd q < 2 * s.qDepth q) :
    s.qLen q = 0 ↔ s.qWr q = s.qRd q := by
  rw [qLen_eq hwr hrd]
  split <;> omega

/-- A ring is full when its pointers name the same place on different laps. -/
theorem qFull_iff (hwr : s.qWr q < 2 * s.qDepth q) (hrd : s.qRd q < 2 * s.qDepth q) :
    s.qFull q = true ↔
      s.qWr q % s.qDepth q = s.qRd q % s.qDepth q ∧ s.qWr q / s.qDepth q ≠ s.qRd q / s.qDepth q := by
  have hwlap := lap_and_place hwr
  have hrlap := lap_and_place hrd
  rw [State.qFull, decide_eq_true_iff, qLen_eq hwr hrd]
  split <;> omega

/-- The head card stands at RD. -/
theorem head?_qCards (hwr : s.qWr q < 2 * s.qDepth q) (hrd : s.qRd q < 2 * s.qDepth q) :
    (s.qCards q).head? =
      if s.qWr q = s.qRd q then none else some (s.qm.store.get 0 (s.qSlot q (s.qRd q))) := by
  rw [State.qCards, List.head?_map, List.head?_range]
  by_cases hempty : s.qWr q = s.qRd q
  · rw [if_pos hempty, if_pos ((qLen_eq_zero_iff hwr hrd).2 hempty), Option.map_none]
  · rw [if_neg hempty, if_neg fun hzero => hempty ((qLen_eq_zero_iff hwr hrd).1 hzero), Option.map_some,
      Nat.add_zero]

/-! ### Enqueue -/

/-- Of the registers, an enqueue changes WR alone. -/
theorem fld_qPush (c : Card) (k hi lo : Nat) : (s.qPush q c).fld k hi lo =
    (s.setFld (R.qselQptr q) 12 0 ((s.qWr q + 1) % (2 * s.qDepth q))).fld k hi lo := by
  unfold State.qPush
  dsimp only
  split <;> rfl

theorem qPush_store (c : Card) :
    (s.qPush q c).qm.store = s.qm.store.set 0 (s.qSlot q (s.qWr q)) c := by
  unfold State.qPush
  dsimp only
  split <;> rfl

theorem qWr_qPush (h : regsWf s.regs = true) (hlog : s.qLog q ≤ 12) (c : Card) :
    (s.qPush q c).qWr q = (s.qWr q + 1) % (2 * s.qDepth q) :=
  calc (s.qPush q c).qWr q
    _ = (s.qWr q + 1) % (2 * s.qDepth q) % 2 ^ 13 :=
      (fld_qPush c _ _ _).trans (fld_setFld h (by decide) (by decide))
    _ = (s.qWr q + 1) % (2 * s.qDepth q) := Nat.mod_eq_of_lt (wrapped_lt hlog _)

theorem qRd_qPush (h : regsWf s.regs = true) (c : Card) : (s.qPush q c).qRd q = s.qRd q :=
  (fld_qPush c _ _ _).trans (fld_setFld_other h (by decide) (by decide) (by decide) (by decide))

/-! ### Dequeue -/

/-- Of the registers, a dequeue changes RD alone. -/
theorem fld_qPop (k hi lo : Nat) : (s.qPop q).fld k hi lo =
    (s.setFld (R.qselQptr q) 28 16 ((s.qRd q + 1) % (2 * s.qDepth q))).fld k hi lo := rfl

theorem qPop_store : (s.qPop q).qm.store = s.qm.store := rfl

theorem qRd_qPop (h : regsWf s.regs = true) (hlog : s.qLog q ≤ 12) :
    (s.qPop q).qRd q = (s.qRd q + 1) % (2 * s.qDepth q) :=
  calc (s.qPop q).qRd q
    _ = (s.qRd q + 1) % (2 * s.qDepth q) % 2 ^ 13 :=
      (fld_qPop _ _ _).trans (fld_setFld h (by decide) (by decide))
    _ = (s.qRd q + 1) % (2 * s.qDepth q) := Nat.mod_eq_of_lt (wrapped_lt hlog _)

theorem qWr_qPop (h : regsWf s.regs = true) : (s.qPop q).qWr q = s.qWr q :=
  (fld_qPop _ _ _).trans (fld_setFld_other h (by decide) (by decide) (by decide) (by decide))

/-! ### Enable -/

/-- An enable that meets its conditions clears WR, then RD, and sets EN. -/
theorem queueOn_of_ok (hoff : s.qEn q = false) (hok : s.queueEnableOk q = true) :
    s.queueOn q =
      ((s.setFld (R.qselQptr q) 12 0 0).setFld (R.qselQptr q) 28 16 0).setBit (R.qselQcfg q) 0 true := by
  simp [State.queueOn, hoff, hok]

/-- An enable requires a depth of 16 to 4,096 cards. -/
theorem qLog_of_queueEnableOk (hok : s.queueEnableOk q = true) : 4 ≤ s.qLog q ∧ s.qLog q ≤ 12 := by
  simp only [State.queueEnableOk, Bool.and_eq_true, decide_eq_true_eq] at hok
  obtain ⟨⟨⟨⟨⟨_, hlow⟩, hhigh⟩, _⟩, _⟩, _⟩ := hok
  exact ⟨hlow, hhigh⟩

/-- Clearing both pointers leaves the register file in canonical form. -/
theorem regsWf_clearPtrs (h : regsWf s.regs = true) :
    regsWf ((s.setFld (R.qselQptr q) 12 0 0).setFld (R.qselQptr q) 28 16 0).regs = true :=
  regsWf_setFld (regsWf_setFld h 12 0 0) 28 16 0

theorem qEn_queueOn (h : regsWf s.regs = true) (hoff : s.qEn q = false) (hok : s.queueEnableOk q = true) :
    (s.queueOn q).qEn q = true := by
  rw [queueOn_of_ok hoff hok]
  exact bit_setBit (regsWf_clearPtrs h) (by decide) true

theorem qWr_queueOn (h : regsWf s.regs = true) (hoff : s.qEn q = false) (hok : s.queueEnableOk q = true) :
    (s.queueOn q).qWr q = 0 := by
  rw [queueOn_of_ok hoff hok]
  unfold State.qWr State.setBit
  rw [fld_setFld_ne (regsWf_clearPtrs h) (qselQptr_ne_qselQcfg q),
    fld_setFld_other (regsWf_setFld h 12 0 0) (by decide) (by decide) (by decide) (by decide),
    fld_setFld h (by decide) (by decide), Nat.zero_mod]

theorem qRd_queueOn (h : regsWf s.regs = true) (hoff : s.qEn q = false) (hok : s.queueEnableOk q = true) :
    (s.queueOn q).qRd q = 0 := by
  rw [queueOn_of_ok hoff hok]
  unfold State.qRd State.setBit
  rw [fld_setFld_ne (regsWf_clearPtrs h) (qselQptr_ne_qselQcfg q),
    fld_setFld (regsWf_setFld h 12 0 0) (by decide) (by decide), Nat.zero_mod]

theorem qLog_queueOn (h : regsWf s.regs = true) (hoff : s.qEn q = false) (hok : s.queueEnableOk q = true) :
    (s.queueOn q).qLog q = s.qLog q := by
  rw [queueOn_of_ok hoff hok]
  unfold State.qLog State.setBit
  rw [fld_setFld_ne (regsWf_clearPtrs h) (qselQring_ne_qselQcfg q),
    fld_setFld_ne (regsWf_setFld h 12 0 0) (qselQring_ne_qselQptr q), fld_setFld_ne h (qselQring_ne_qselQptr q)]

end

/-- Settles O18: an enable clears both pointers; on an enabled ring the length decides empty, full and the head, and
an enqueue and a dequeue each move one field of QPTR. -/
theorem queueRingRule : Obligations.QueueRingRule := by
  refine ⟨fun s q ⟨_, _, hregs⟩ hoff hok => ?enable, fun s q ⟨_, _, hregs⟩ hlow hhigh hwr hrd => ?ring⟩
  case enable =>
    rw [qLog_queueOn hregs hoff hok]
    exact ⟨qEn_queueOn hregs hoff hok, qWr_queueOn hregs hoff hok, qRd_queueOn hregs hoff hok,
      qLog_of_queueEnableOk hok⟩
  case ring =>
    refine ⟨rfl, sixteen_le_qDepth hlow, qDepth_le_4096 hhigh, fun _ => rfl, qEmpty_iff, qFull_iff hwr hrd,
      fun c hc => ?enqueue, head?_qCards hwr hrd, qRd_qPop hregs hhigh, qWr_qPop hregs, qPop_store⟩
    case enqueue =>
      rw [qPush_store]
      exact ⟨Tab.get_set_self_of_ne hc, fun _ hk => Tab.get_set_ne_of_ne hc hk, qWr_qPush hregs hhigh c,
        qRd_qPush hregs c⟩

end Sys2Proof.Machine

namespace Sys2Proof

/-! The bytes of a card (R283): a field of whole bytes is a base-256 number of the card, taken apart and put together
byte by byte. -/

/-- A digit of a number cut to `n` digits is the number's own. -/
theorem mod_pow_div_mod_byte {x n i : Nat} (hi : i < n) : x % 256 ^ n / 256 ^ i % 256 = x / 256 ^ i % 256 := by
  have hsplit : 256 ^ n = 256 ^ i * (256 * 256 ^ (n - i - 1)) := by
    rw [← Nat.pow_succ', ← Nat.pow_add, show i + (n - i - 1 + 1) = n by omega]
  rw [hsplit, Nat.mod_mul_right_div_self, Nat.mod_mul_right_mod]

/-- A number's lowest `n` bytes, read little-endian, are the number modulo `256 ^ n`. -/
theorem Machine.leNat_range_bytes (n x : Nat) :
    leNat ((List.range n).map fun i => BitVec.ofNat 8 (x / 256 ^ i % 256)) = x % 256 ^ n := by
  induction n generalizing x with
  | zero => simp [leNat, Nat.mod_one]
  | succ n ih =>
    have htail (i : Nat) : x / 256 ^ (i + 1) = x / 256 / 256 ^ i := by rw [Nat.pow_succ', Nat.div_div_eq_div_mul]
    simp only [List.range_succ_eq_map, List.map_cons, List.map_map, Function.comp_def, leNat, Nat.succ_eq_add_one, htail]
    rw [ih, Nat.pow_succ', Nat.mod_mul]
    simp

namespace Card

variable {c : Card} {b n v k : Nat}

theorem get_eq_div_mod (hn : 0 < n) : c.get b n = c.toNat / 256 ^ b % 256 ^ n := by
  rw [get, bits, show 8 * (b + n) - 1 + 1 - 8 * b = 8 * n by omega, Nat.pow_mul, Nat.pow_mul]

theorem get_lt (hn : 0 < n) : c.get b n < 256 ^ n := by
  rw [get_eq_div_mod hn]
  exact Nat.mod_lt _ (Nat.pow_pos (by decide))

/-- A byte within a field is a digit of the field. -/
theorem get_byte {i : Nat} (hi : i < n) : c.get (b + i) 1 = c.get b n / 256 ^ i % 256 := by
  rw [get_eq_div_mod Nat.one_pos, get_eq_div_mod (by omega), mod_pow_div_mod_byte hi, Nat.pow_add, Nat.pow_one,
    Nat.div_div_eq_div_mul]

/-- A field is the little-endian number of its bytes. -/
theorem leNat_bytes_eq_get (hn : 0 < n) :
    Machine.leNat ((List.range n).map fun i => BitVec.ofNat 8 (c.get (b + i) 1)) = c.get b n := by
  have hbytes : ((List.range n).map fun i => BitVec.ofNat 8 (c.get (b + i) 1)) =
      (List.range n).map fun i => BitVec.ofNat 8 (c.get b n / 256 ^ i % 256) :=
    List.map_congr_left fun i hi => by rw [get_byte (List.mem_range.mp hi)]
  rw [hbytes, Machine.leNat_range_bytes, Nat.mod_eq_of_lt (get_lt hn)]

/-- A field of bytes reads as it was put. -/
theorem get_put (hn : 0 < n) (hend : b + n ≤ 64) : (c.put b n v).get b n = v % 256 ^ n := by
  rw [get, put, bits_setBits (by omega) (by omega), show 8 * (b + n) - 1 + 1 - 8 * b = 8 * n by omega, Nat.pow_mul]

/-- A put of `n` bytes at `b` replaces exactly those bytes. -/
theorem get_put_byte (hn : 0 < n) (hend : b + n ≤ 64) :
    (c.put b n v).get k 1 = if b ≤ k ∧ k < b + n then v / 256 ^ (k - b) % 256 else c.get k 1 := by
  split
  case isTrue hin =>
    obtain ⟨i, rfl⟩ := Nat.exists_eq_add_of_le hin.1
    have hi : i < n := by omega
    rw [get_byte hi, get_put hn hend, mod_pow_div_mod_byte hi, Nat.add_sub_cancel_left]
  case isFalse hout =>
    rcases Nat.lt_or_ge k b with hbelow | habove
    · exact bits_setBits_below (by omega) (by omega) (by omega) (by omega)
    · exact bits_setBits_above (by omega) (by omega) (by omega)

end Card

end Sys2Proof

namespace Sys2Proof.Machine

/-! The card instructions (R283) and the loader's check of their words (R303). -/

section

variable {s : State} {q : Fin 4}

theorem seqDo_of_ready {q op : Nat} (h : s.seqReady q op = true) (f : State → BitVec 32 → State) :
    s.seqDo q op f = f (s.seqBegin q op) (s.seqWord q) := if_pos h

theorem exec_cget_of_ready (h : s.seqReady q 0x1A = true) :
    exec (.cget q) s = .next ((s.seqBegin q 0x1A).seqPut q (s.seqWord q) (BitVec.ofNat 64
      (((s.seqBegin q 0x1A).seqCard q (swN (s.seqWord q))).get (bits (s.seqWord q) 9 4) (2 ^ bits (s.seqWord q) 3 2)))) :=
  congrArg Host.Outcome.next (seqDo_of_ready h _)

theorem exec_cput_of_ready (h : s.seqReady q 0x1B = true) :
    exec (.cput q) s = .next (((s.seqBegin q 0x1B).setSeqCard q (swN (s.seqWord q))
      (((s.seqBegin q 0x1B).seqCard q (swN (s.seqWord q))).put (bits (s.seqWord q) 9 4) (2 ^ bits (s.seqWord q) 3 2)
        ((s.seqBegin q 0x1B).g q (swB (s.seqWord q))).toNat)).seqNext q) :=
  congrArg Host.Outcome.next (seqDo_of_ready h _)

theorem exec_cclr_of_ready (h : s.seqReady q 0x1C = true) (hform : bits (s.seqWord q) 0 0 = 0) :
    exec (.cclr q) s = .next ((((s.seqBegin q 0x1C).setSeqCard q (swN (s.seqWord q)) 0).setOrigin q
      (swN (s.seqWord q)) 0xFFF).seqNext q) :=
  congrArg Host.Outcome.next ((if_pos hform).trans (seqDo_of_ready h _))

theorem exec_ccopy_of_ready (h : s.seqReady q 0x1C = true) (hform : bits (s.seqWord q) 0 0 = 1) :
    exec (.ccopy q) s = .next ((((s.seqBegin q 0x1C).setSeqCard q (swN (s.seqWord q))
      ((s.seqBegin q 0x1C).seqCard q (swM (s.seqWord q)))).setOrigin q (swN (s.seqWord q))
      ((s.seqBegin q 0x1C).seqOrigin q (swM (s.seqWord q)))).seqNext q) :=
  congrArg Host.Outcome.next ((if_pos hform).trans (seqDo_of_ready h _))

end

theorem mem_chk {bad : Bool} {code e : Nat} : e ∈ chk bad code ↔ bad = true ∧ e = code := by
  cases bad <;> simp [chk]

/-- The loader finds SC_IMM in a CGET or CPUT word whose offset is misaligned or whose bytes leave the card. -/
theorem scImm_mem_wordBad {n level : Nat} {tails : List Bool} {w : BitVec 32} (hop : swOp w = 0x1A ∨ swOp w = 0x1B)
    (hoff : bits w 9 4 % 2 ^ bits w 3 2 ≠ 0 ∨ 64 < bits w 9 4 + 2 ^ bits w 3 2) : 0x030B ∈ wordBad n tails level w := by
  rcases hop with hcget | hcput
  · simp [wordBad, hcget, wordMask, mem_chk, hoff]
  · simp [wordBad, hcput, wordMask, mem_chk, hoff]

/-- Settles O20: each instruction is its equation at a ready word, and the card's bytes follow from `leNat_bytes_eq_get`
for CGET and `get_put_byte` for CPUT. -/
theorem cardInstructionRule : Obligations.CardInstructionRule := by
  refine ⟨?cget, ?cput, ?cclr, ?ccopy, fun _ _ _ _ => scImm_mem_wordBad⟩
  case cget =>
    rintro s _ q _ rfl hready rfl -
    rw [Card.leNat_bytes_eq_get (Nat.two_pow_pos _), exec_cget_of_ready hready]
  case cput =>
    rintro s _ q _ _ _ rfl hready rfl rfl rfl hend
    exact ⟨_, exec_cput_of_ready hready, fun k _ => Card.get_put_byte (Nat.two_pow_pos _) hend⟩
  case cclr =>
    rintro s _ q _ rfl hready rfl hform
    exact exec_cclr_of_ready hready hform
  case ccopy =>
    rintro s _ q _ rfl hready rfl hform
    exact exec_ccopy_of_ready hready hform

end Sys2Proof.Machine

namespace Sys2Proof.Machine

/-! ### What every step keeps -/

/-- Every command keeps what `Good` says, one law of its meaning per arm of `exec`. -/
theorem exec_keeps {k : Key} {s : State} (h : Good k s) (c : Instr) : Keeps k (exec c s) :=
  match c with
  | .bundleIssue .. => execBundleIssue_keeps h _ _ _
  | .podFlagWaitRequest .. => execPodFlagWaitRequest_keeps h _ _
  | .mmaOs .. => execMmaOs_keeps h _ _ _
  | .mmaWs .. => execMmaWs_keeps h _ _ _
  | .mmaWt .. => execMmaWt_keeps h _ _ _
  | .ewmul .. => execEwmul_keeps h _ _
  | .accDrain .. => execAccDrain_keeps h _ _ _
  | .tileDrain .. => execTileDrain_keeps h _
  | .vmap .. => execVmap_keeps h _ _
  | .vred .. => execVred_keeps h _ _
  | .delivery .. => execDelivery_keeps h _ _ _ _
  | .ld .. => execLd_keeps h _
  | .st .. => execSt_keeps h _
  | .stSignal .. => execStSignal_keeps h _
  | .stSignalDelivery .. => execStSignalDelivery_keeps h _
  | .scnt .. => execScnt_keeps h _ _
  | .scas .. => execScas_keeps h _ _
  | .smcnt .. => execSmcnt_keeps h _
  | .smcas .. => execSmcas_keeps h _
  | .completionPoint .. => execCompletionPoint_keeps h _ _
  | .stageMemoryResponse .. => execStageMemoryResponse_keeps h _ _ _ _
  | .eccWriteBack .. => execEccWriteBack_keeps h _ _
  | .jobEnd .. => execJobEnd_keeps h _ _
  | .parkRequest .. => execParkRequest_keeps h _ _
  | .parkPoint .. => execParkPoint_keeps h _ _ _
  | .parkTimeout .. => execParkTimeout_keeps h _ _
  | .resume .. => execResume_keeps h _
  | .syncDeadlock .. => execSyncDeadlock_keeps h _ _ _ _
  | .bundleLimit .. => execBundleLimit_keeps h _
  | .settle .. => execSettle_keeps h _
  | .dbgBundleLimit .. => execDbgBundleLimit_keeps h _ _
  | .agSel .. => execAgSel_keeps h _ _
  | .dbgAddr .. => execDbgAddr_keeps h _ _
  | .jobDispatch => execJobDispatch_keeps h
  | .jobWatchdog .. => execJobWatchdog_keeps h _ _
  | .snapUnit .. => execSnapUnit_keeps h _ _
  | .enqueue .. => execEnqueue_keeps h _ _ _
  | .dequeue .. => execDequeue_keeps h _ _ _
  | .queueEnable .. => execQueueEnable_keeps h _
  | .queueDisable .. => execQueueDisable_keeps h _
  | .flush => execFlush_keeps h
  | .card .. => execCard_keeps h _
  | .leadCardEnqueue => execLeadCardEnqueue_keeps h
  | .readinessSignal .. => execReadinessSignal_keeps h _
  | .retire .. => execRetire_keeps h _
  | .replayReq .. => execReplayReq_keeps h _
  | .replayNak .. => execReplayNak_keeps h _
  | .shelfSetEnable .. => execShelfSetEnable_keeps h _
  | .assemblerEnable .. => execAssemblerEnable_keeps h _
  | .serveReq .. => execServeReq_keeps h _
  | .batchDeadline .. => execBatchDeadline_keeps h _
  | .batchClose .. => execBatchClose_keeps h _
  | .nop .. => execNop_keeps h _
  | .alu .. => execAlu_keeps h _
  | .addi .. => execAddi_keeps h _
  | .stgLi .. => execStgLi_keeps h _
  | .liw .. => execLiw_keeps h _
  | .stgBr .. => execStgBr_keeps h _
  | .stgCall .. => execStgCall_keeps h _
  | .stgRet .. => execStgRet_keeps h _
  | .halt .. => execHalt_keeps h _
  | .ldd .. => execLdd_keeps h _
  | .std .. => execStd_keeps h _
  | .lds .. => execLds_keeps h _ _
  | .sts .. => execSts_keeps h _
  | .mcas .. => execMcas_keeps h _ _
  | .mcnt .. => execMcnt_keeps h _ _
  | .time .. => execTime_keeps h _
  | .watch .. => execWatch_keeps h _
  | .waite .. => execWaite_keeps h _
  | .tset .. => execTset_keeps h _
  | .timerExpiry .. => execTimerExpiry_keeps h _
  | .ewait .. => execEwait_keeps h _
  | .deq .. => execDeq_keeps h _
  | .enq .. => execEnq_keeps h _
  | .cget .. => execCget_keeps h _
  | .cput .. => execCput_keeps h _
  | .cclr .. => execCclr_keeps h _
  | .ccopy .. => execCcopy_keeps h _
  | .qflush .. => execQflush_keeps h _
  | .rxdeq .. => execRxdeq_keeps h _
  | .rxdrop .. => execRxdrop_keeps h _
  | .disp .. => execDisp_keeps h _
  | .tbind .. => execTbind_keeps h _
  | .tnext .. => execTnext_keeps h _ _
  | .jlink .. => execJlink_keeps h _
  | .pwin .. => execPwin_keeps h _
  | .xreq .. => execXreq_keeps h _
  | .xstat .. => execXstat_keeps h _
  | .xmove .. => execXmove_keeps h _ _
  | .xbind .. => execXbind_keeps h _
  | .xdone .. => execXdone_keeps h _
  | .xfree .. => execXfree_keeps h _
  | .crel .. => execCrel_keeps h _
  | .xcard .. => execXcard_keeps h _
  | .mmr .. => execMmr_keeps h _
  | .mmw .. => execMmw_keeps h _
  | .run .. => execRun_keeps h _
  | .runClear .. => execRunClear_keeps h _
  | .xtimeout .. => execXtimeout_keeps h _ _
  | .creditReq => execCreditReq_keeps h
  | .creditGrant .. => execCreditGrant_keeps h _
  | .creditReply => execCreditReply_keeps h
  | .poolEnable .. => execPoolEnable_keeps h _
  | .poolDisable .. => execPoolDisable_keeps h _
  | .write => execWrite_keeps h
  | .wack => execWack_keeps h
  | .rreq => execRreq_keeps h
  | .rcpl => execRcpl_keeps h
  | .reqTimeout .. => execReqTimeout_keeps h _
  | .tagExhaust .. => execTagExhaust_keeps h _
  | .fence .. => execFence_keeps h _
  | .rollcall => execRollcall_keeps h
  | .rollcallSend .. => execRollcallSend_keeps h _
  | .rollcallDone => execRollcallDone_keeps h
  | .chipId .. => execChipId_keeps h _
  | .tblData .. => execTblData_keeps h _
  | .copy => execCopy_keeps h
  | .copyEnd => execCopyEnd_keeps h
  | .arm => execArm_keeps h
  | .epochTick => execEpochTick_keeps h
  | .tsyncSend => execTsyncSend_keeps h
  | .tsyncReq => execTsyncReq_keeps h
  | .tsyncRsp => execTsyncRsp_keeps h
  | .timeHoldover => execTimeHoldover_keeps h
  | .timeLost => execTimeLost_keeps h
  | .collectiveRequest .. => execCollectiveRequest_keeps h _ _
  | .chunkNotice .. => execChunkNotice_keeps h _ _
  | .collPeerLost .. => execCollPeerLost_keeps h _
  | .portEnable .. => execPortEnable_keeps h _
  | .detect .. => execDetect_keeps h _ _
  | .calibrate .. => execCalibrate_keeps h _ _
  | .align .. => execAlign_keeps h _ _
  | .config .. => execConfig_keeps h _ _
  | .configAck .. => execConfigAck_keeps h _ _
  | .transmitFlit .. => execTransmitFlit_keeps h _
  | .dataFlit .. => execDataFlit_keeps h _ _
  | .idleFlit .. => execIdleFlit_keeps h _ _
  | .retryReq .. => execRetryReq_keeps h _ _
  | .retryReqResend .. => execRetryReqResend_keeps h _ _
  | .retrain .. => execRetrain_keeps h _
  | .retrainReq .. => execRetrainReq_keeps h _ _
  | .retrainAck .. => execRetrainAck_keeps h _ _
  | .fastRetrainTimeout .. => execFastRetrainTimeout_keeps h _
  | .laneFailed .. => execLaneFailed_keeps h _ _ _
  | .widthReq .. => execWidthReq_keeps h _ _
  | .widthAck .. => execWidthAck_keeps h _ _
  | .widthChangeTimeout .. => execWidthChangeTimeout_keeps h _
  | .standbyCalibrated .. => execStandbyCalibrated_keeps h _ _
  | .fecDegraded .. => execFecDegraded_keeps h _ _ _
  | .drain .. => execDrain_keeps h _ _
  | .retireDrainEnd .. => execRetireDrainEnd_keeps h _
  | .restart .. => execRestart_keeps h _
  | .cartPrsAssert .. => execCartPrsAssert_keeps h _
  | .cartAbsent .. => execCartAbsent_keeps h _
  | .cartPoll .. => execCartPoll_keeps h _ _ _
  | .laserHour .. => execLaserHour_keeps h _
  | .create .. => execCreate_keeps h _
  | .resumeCtx .. => execResumeCtx_keeps h _
  | .haltCtx .. => execHaltCtx_keeps h _
  | .teardown .. => execTeardown_keeps h _
  | .ctxHalted .. => execCtxHalted_keeps h _
  | .spill .. => execSpill_keeps h _
  | .spillDone .. => execSpillDone_keeps h _ _
  | .restore .. => execRestore_keeps h _
  | .restoreDone .. => execRestoreDone_keeps h _ _ _
  | .release .. => execRelease_keeps h _
  | .energyApportion .. => execEnergyApportion_keeps h _
  | .thresholdEvaluation => execThresholdEvaluation_keeps h
  | .slotRetired .. => execSlotRetired_keeps h _ _
  | .arraySelfTest .. => execArraySelfTest_keeps h _ _ _
  | .qmSwitched .. => execQmSwitched_keeps h _
  | .d2dLost => execD2dLost_keeps h
  | .pllLost .. => execPllLost_keeps h _
  | .ctrlStoreUe => execCtrlStoreUe_keeps h
  | .mcWatchdog => execMcWatchdog_keeps h
  | .rejoin => execRejoin_keeps h
  | .reclaim => execReclaim_keeps h
  | .grantAge .. => execGrantAge_keeps h _
  | .checkpointRequest .. => execCheckpointRequest_keeps h _ _
  | .digestNotice .. => execDigestNotice_keeps h _
  | .noticeWaitEnd .. => execNoticeWaitEnd_keeps h _
  | .cclkStepEdge .. => execCclkStepEdge_keeps h _
  | .powerSample .. => execPowerSample_keeps h _
  | .temperatureRead .. => execTemperatureRead_keeps h _
  | .thermalLimiterInterval => execThermalLimiterInterval_keeps h
  | .supplySample .. => execSupplySample_keeps h _
  | .pwrBrakeAssert => execPwrBrakeAssert_keeps h
  | .pwrBrakeRelease => execPwrBrakeRelease_keeps h
  | .ringOscillatorMeasure .. => execRingOscillatorMeasure_keeps h _
  | .vmaxMinute => execVmaxMinute_keeps h
  | .domainEn .. => execDomainEn_keeps h _
  | .domainOn .. => execDomainOn_keeps h _ _
  | .freezeArm => execFreezeArm_keeps h
  | .freeze => execFreeze_keeps h
  | .unfreeze => execUnfreeze_keeps h
  | .ns2Sample .. => execNs2Sample_keeps h _
  | .dumpArm => execDumpArm_keeps h
  | .dumpCopy => execDumpCopy_keeps h
  | .bufferEnable .. => execBufferEnable_keeps h _
  | .profileWrite .. => execProfileWrite_keeps h _ _
  | .ledgerWrite .. => execLedgerWrite_keeps h _
  | .sync .. => execSync_keeps h _
  | .granuleWrite .. => execGranuleWrite_keeps h _ _
  | .zeroFillEnd .. => execZeroFillEnd_keeps h _
  | .scrub .. => execScrub_keeps h _ _ _
  | .spareRow .. => execSpareRow_keeps h _ _ _
  | .bankRebuild .. => execBankRebuild_keeps h _ _
  | .rebuildDone .. => execRebuildDone_keeps h _
  | .loadData .. => execLoadData_keeps h _ _ _
  | .load .. => execLoad_keeps h _ _ _ _ _ _ _
  | .unload .. => execUnload_keeps h _ _
  | .regRead .. => execRegRead_keeps h _ _
  | .regWrite .. => execRegWrite_keeps h _ _ _
  | .mgmtEnq .. => execMgmtEnq_keeps h _ _ _
  | .mgmtDeq .. => execMgmtDeq_keeps h _ _ _
  | .sbufRead .. => execSbufRead_keeps h _ _ _
  | .mctpMessage .. => execMctpMessage_keeps h _ _ _ _
  | .entdaa .. => execEntdaa_keeps h _
  | .pldmFirmwareUpdate .. => execPldmFirmwareUpdate_keeps h _ _
  | .getVersion .. => execGetVersion_keeps h _
  | .getCapabilities .. => execGetCapabilities_keeps h _
  | .negotiateAlgorithms .. => execNegotiateAlgorithms_keeps h _ _
  | .getDigests .. => execGetDigests_keeps h _
  | .getCertificate .. => execGetCertificate_keeps h _ _ _ _
  | .challenge .. => execChallenge_keeps h _ _ _
  | .getMeasurements .. => execGetMeasurements_keeps h _ _
  | .keyExchange .. => execKeyExchange_keeps h _ _
  | .finish .. => execFinish_keeps h _ _ _
  | .heartbeat .. => execHeartbeat_keeps h _
  | .keyUpdate .. => execKeyUpdate_keeps h _
  | .endSession .. => execEndSession_keeps h _
  | .getCtxMeasurement .. => execGetCtxMeasurement_keeps h _ _ _
  | .pqSign .. => execPqSign_keeps h _ _
  | .commitSvn .. => execCommitSvn_keeps h _
  | .setKey .. => execSetKey_keeps h _ _ _ _ _
  | .clearKey .. => execClearKey_keeps h _ _ _
  | .setEnc .. => execSetEnc_keeps h _ _ _
  | .armTx .. => execArmTx_keeps h _ _ _ _
  | .dbgNonce => execDbgNonce_keeps h
  | .debugToken .. => execDebugToken_keeps h _ _
  | .dbgLock => execDbgLock_keeps h
  | .secureBoot .. => execSecureBoot_keeps h _
  | .bypass => execBypass_keeps h
  | .idcode => execIdcode_keeps h
  | .samplePreload .. => execSamplePreload_keeps h _ _
  | .extest => execExtest_keeps h
  | .bar0Access .. => execBar0Access_keeps h _ _ _ _
  | .bar2Read .. => execBar2Read_keeps h _ _ _
  | .bar2Write .. => execBar2Write_keeps h _ _ _
  | .hostCompletion .. => execHostCompletion_keeps h _ _ _ _
  | .hostCplTimeout .. => execHostCplTimeout_keeps h _
  | .hostLinkDown => execHostLinkDown_keeps h
  | .snpdata .. => execSnpdata_keeps h _
  | .snpinv .. => execSnpinv_keeps h _
  | .snpcur .. => execSnpcur_keeps h _
  | .goWritepull .. => execGoWritepull_keeps h _
  | .goWritepulldrop .. => execGoWritepulldrop_keeps h _
  | .goErrWritepull .. => execGoErrWritepull_keeps h _
  | .doorbell .. => execDoorbell_keeps h _
  | .ringIndexRead .. => execRingIndexRead_keeps h _
  | .h2dCardRetry .. => execH2dCardRetry_keeps h _
  | .d2hCard .. => execD2hCard_keeps h _ _
  | .ringIndexWrite .. => execRingIndexWrite_keeps h _
  | .ringReadRetry .. => execRingReadRetry_keeps h _
  | .ringEnable .. => execRingEnable_keeps h _ _
  | .ringInterrupt .. => execRingInterrupt_keeps h _
  | .qstopLevelChange .. => execQstopLevelChange_keeps h _ _
  | .qstopInputFault => execQstopInputFault_keeps h
  | .qstopRdy .. => execQstopRdy_keeps h _
  | .faultClear => execFaultClear_keeps h
  | .powerOnReset => execPowerOnReset_keeps h
  | .coldReset .. => execColdReset_keeps h _
  | .warmReset .. => execWarmReset_keeps h _ _ _
  | .hostReset => execHostReset_keeps h
  | .resetRelease .. => execResetRelease_keeps h _ _ _
  | .thermalHoldEnd => execThermalHoldEnd_keeps h
  | .rootLock => execRootLock_keeps h
  | .phaseRom .. => execPhaseRom_keeps h _
  | .phaseFirmware .. => execPhaseFirmware_keeps h _ _
  | .phaseUncore .. => execPhaseUncore_keeps h _ _
  | .phaseMemory .. => execPhaseMemory_keeps h _ _ _ _
  | .phaseCores .. => execPhaseCores_keeps h _ _ _
  | .phaseLinks .. => execPhaseLinks_keeps h _
  | .intForce .. => execIntForce_keeps h _ _ _
  | .intEnable .. => execIntEnable_keeps h _ _ _
  | .lock .. => execLock_keeps h _ _
  | .readLatch .. => execReadLatch_keeps h _ _ _
  | .registerWrite .. => execRegisterWrite_keeps h _ _ _ _ _
  | .hostLinkUp .. => execHostLinkUp_keeps h _ _ _
  | .cxlCacheResponse .. => execCxlCacheResponse_keeps h _ _ _
  | .msiXUnmask .. => execMsiXUnmask_keeps h _ _
  | .domainFail .. => execDomainFail_keeps h _
  | .configTimeout .. => execConfigTimeout_keeps h _
  | .stageMemoryWriteBack .. => execStageMemoryWriteBack_keeps h _

/-- A step from a canonical state completes, takes the front command off the queue, and keeps the fuses and the
canonical form: an empty queue idles, and the front command is one that `exec_keeps` speaks of. -/
theorem step_keeps {s : State} (h : s.memOk) : Keeps ⟨s.pending.tail, s.trust.fuses⟩ (step s) := by
  obtain ⟨hmem, hspad, hregs⟩ := h
  unfold step
  split
  next hidle => exact ⟨s, rfl, by rw [hidle]; rfl, rfl, hmem, hspad, hregs⟩
  next c rest hfront =>
    have hgood : Good ⟨rest, s.trust.fuses⟩ { s with pending := rest } := ⟨rfl, rfl, hmem, hspad, hregs⟩
    rw [hfront]
    exact exec_keeps hgood c

theorem good_of_step {s t : State} (h : s.memOk) (ht : step s = .next t) : Good ⟨s.pending.tail, s.trust.fuses⟩ t := by
  obtain ⟨u, hu, hgood⟩ := step_keeps h
  obtain rfl : u = t := Host.Outcome.next.inj (hu.symm.trans ht)
  exact hgood

/-- Settles O12: `step_keeps` answers a next state. -/
theorem everyStepCompletes : Obligations.EveryStepCompletes := fun _ h =>
  let ⟨t, ht, _⟩ := step_keeps h
  ⟨t, ht⟩

/-- Settles O13: the tables of a good state are canonical. -/
theorem stepsKeepTheCanonicalForm : Obligations.StepsKeepTheCanonicalForm := fun _ _ h ht =>
  (good_of_step h ht).2.2

/-- Settles O14: the key of `good_of_step` is the queue's rest and the fuses. -/
theorem stepsTakeOneCommandAndKeepTheFuses : Obligations.StepsTakeOneCommandAndKeepTheFuses := fun _ _ h ht =>
  let ⟨hpending, hfuses, _⟩ := good_of_step h ht
  ⟨hpending, hfuses⟩

end Sys2Proof.Machine

namespace Sys2Proof.Machine

/-! ### What counters, event notes and word health leave alone -/

/-- The state without what a note of an event or an error may touch: registers, messages to the host, observations and
the health of words. -/
def State.still (s : State) : State :=
  { s with regs := [], host := {}, recov := {}, smem := {}, spadEcc := [], spadOwed := [] }

theorem mem_of_still {s t : State} (h : t.still = s.still) : t.mem = s.mem := (congrArg State.mem h :)
theorem spad_of_still {s t : State} (h : t.still = s.still) : t.spad = s.spad := (congrArg State.spad h :)
theorem cores_of_still {s t : State} (h : t.still = s.still) : t.cores = s.cores := (congrArg State.cores h :)
theorem jobs_of_still {s t : State} (h : t.still = s.still) : t.jobs = s.jobs := (congrArg State.jobs h :)
theorem qm_of_still {s t : State} (h : t.still = s.still) : t.qm = s.qm := (congrArg State.qm h :)
theorem flog_of_still {s t : State} (h : t.still = s.still) : t.flog = s.flog := (congrArg State.flog h :)

/-- What every element of a list leaves alone, a fold over the list leaves alone. -/
theorem foldl_leaves {α β : Type} {g : State → β} {f : State → α → State} (hf : ∀ st a, g (f st a) = g st) (l : List α)
    (s : State) : g (l.foldl f s) = g s := by
  induction l generalizing s with
  | nil => rfl
  | cons a l ih => exact (ih _).trans (hf s a)

theorem still_foldl {α : Type} {f : State → α → State} (hf : ∀ st a, (f st a).still = st.still) (l : List α) (s : State) :
    (l.foldl f s).still = s.still :=
  foldl_leaves hf l s

theorem still_ite {c : Prop} [Decidable c] {s t u : State} (ht : t.still = s.still) (hu : u.still = s.still) :
    (if c then t else u).still = s.still := by
  split <;> assumption

section

variable (s : State)

@[simp] theorem still_wr (k v) : (s.wr k v).still = s.still := rfl
@[simp] theorem still_setFld (k hi lo v) : (s.setFld k hi lo v).still = s.still := rfl
@[simp] theorem still_setBit (k i b) : (s.setBit k i b).still = s.still := rfl
@[simp] theorem still_count (k n) : (s.count k n).still = s.still := rfl
@[simp] theorem still_add64 (k n) : (s.add64 k n).still = s.still := rfl
@[simp] theorem still_observe (kind key) : (s.observe kind key).still = s.still := rfl
@[simp] theorem still_setSpadHealth (c a v) : (s.setSpadHealth c a v).still = s.still := rfl
@[simp] theorem still_setMemHealth (k v) : (s.setMemHealth k v).still = s.still := rfl

@[simp] theorem still_smem (m) : ({ s with smem := m } : State).still = s.still := rfl
@[simp] theorem still_spadOwed (l) : ({ s with spadOwed := l } : State).still = s.still := rfl

@[simp] theorem still_globalEvent (src ev n) : (s.globalEvent src ev n).still = s.still :=
  still_ite rfl (still_foldl (fun st _ => still_ite (still_add64 st _ _) rfl) _ _)

@[simp] theorem still_msixSend (v) : (s.msixSend v).still = s.still :=
  still_ite (still_ite rfl rfl) (still_ite rfl rfl)

@[simp] theorem still_intEvent (pg i) : (s.intEvent pg i).still = s.still :=
  still_ite (still_msixSend _ _) rfl

@[simp] theorem still_coreEvent (c ev n fmt tag) : (s.coreEvent c ev n fmt tag).still = s.still := by
  refine still_ite rfl ?_
  cases s.unitOf c with
  | none => exact still_foldl (fun st _ => still_ite (still_add64 st _ _) rfl) _ _
  | some u =>
    refine (still_ite ?_ rfl).trans ?_
    · exact still_foldl (fun st _ => still_ite (still_add64 st _ _) rfl) _ _
    · exact still_foldl (fun st _ => still_ite (still_add64 st _ _) rfl) _ _

/-! #### Scratchpads -/

@[simp] theorem still_noteSpadEcc (c w) : (s.noteSpadEcc c w).still = s.still := by
  refine still_ite rfl ?_
  rw [still_wr]
  refine (still_ite (still_spadOwed _ _) rfl).trans ?_
  refine (still_ite ?_ rfl).trans ?_
  · rw [still_observe, still_coreEvent]
  · rw [still_intEvent, still_count]

@[simp] theorem still_noteWords (c ws) : (s.noteWords c ws).still = s.still :=
  still_foldl (fun st w => still_noteSpadEcc st c w) _ _

/-! #### Stage memory -/

@[simp] theorem still_tierBytes (ev a n f) : (s.tierBytes ev a n f).still = s.still := by
  induction f generalizing s a n with
  | zero => rfl
  | succ f ih =>
    unfold State.tierBytes
    split
    · rfl
    · exact (ih _ _ _).trans (still_globalEvent s _ _ _)

@[simp] theorem still_noteMemEcc (k v) : (s.noteMemEcc k v).still = s.still := by
  unfold State.noteMemEcc
  dsimp only
  split
  · rfl
  · rw [still_wr]
    by_cases hv : v = 1
    · simp only [if_pos hv, still_observe, still_intEvent, still_globalEvent, still_count]
    · simp only [if_neg hv, still_intEvent, still_count]

@[simp] theorem still_noteWordsBad (ks) : (s.noteWordsBad ks).still = s.still :=
  still_foldl (fun st _ => still_foldl (fun z k => still_noteMemEcc z k _) _ st) _ _

@[simp] theorem still_oweWriteBack (w) : (s.oweWriteBack w).still = s.still := by
  unfold State.oweWriteBack
  split <;> rfl

@[simp] theorem still_rebuildRow (a) : (s.rebuildRow a).still = s.still := by
  unfold State.rebuildRow
  dsimp only
  split
  · rfl
  · rw [still_foldl still_oweWriteBack, still_intEvent, still_globalEvent, still_count]

@[simp] theorem still_memCheck (a n) : (s.memCheck a n).1.still = s.still := by
  unfold State.memCheck
  dsimp only
  rw [still_foldl still_rebuildRow, still_foldl still_oweWriteBack, still_noteWordsBad]

@[simp] theorem still_memRead (a n) : (s.memRead a n).1.still = s.still := by
  unfold State.memRead
  simp

@[simp] theorem still_memUpset (us) : (s.memUpset us).still = s.still :=
  still_foldl (fun st _ => still_ite rfl (still_setMemHealth st _ _)) _ _

@[simp] theorem still_rowWritten (a) : (s.rowWritten a).still = s.still := by
  have hall (st : State) (l : List Nat) : (l.foldl (fun z w => z.setMemHealth w 2) st).still = st.still :=
    still_foldl (fun z w => still_setMemHealth z w 2) _ _
  unfold State.rowWritten
  split
  · rw [still_smem, hall]
  · split
    · refine still_ite ?_ rfl
      rw [still_smem, hall]
    · rfl

@[simp] theorem still_parityUpdate (w known) : (s.parityUpdate w known).still = s.still := by
  unfold State.parityUpdate
  dsimp only
  refine still_ite rfl (still_ite ?_ (still_ite ?_ (still_noteMemEcc _ _ _)))
  · rw [still_setMemHealth, still_noteMemEcc]
  · rw [still_setMemHealth, still_noteMemEcc]

@[simp] theorem still_wordWritten (whole w) : (s.wordWritten whole w).still = s.still := by
  have hcleared (c : Prop) [Decidable c] : (if c then s.setMemHealth w 0 else s).still = s.still :=
    still_ite (still_setMemHealth _ _ _) rfl
  unfold State.wordWritten
  exact still_ite ((still_parityUpdate _ _ _).trans (hcleared _)) (hcleared _)

end

end Sys2Proof.Machine

namespace Sys2Proof.Machine

/-! ### Writes to stage memory and to the scratchpads (O15) -/

section

variable (s : State)

/-- A write changes the bytes it names, and beyond them notes and word health alone. -/
theorem still_memWrite (a : Nat) (bs : List Byte) :
    (s.memWrite a bs).still = { s.still with mem := Tab.writeBytes s.mem a bs } := by
  have hnotes (n : Nat) (ws ks : List Nat) (whole : Nat → Bool) :
      ((ws.foldl (fun (st : State) w => (st.rowWritten w).wordWritten (whole w) w) (s.noteWordsBad ks)).tierBytes
        2 a n (n / 512 + 2)).still = s.still := by
    rw [still_tierBytes, still_foldl (fun st w => by rw [still_wordWritten, still_rowWritten]), still_noteWordsBad]
  exact congrArg (fun z : State => { z with mem := Tab.writeBytes z.mem a bs }) (hnotes _ _ _ _)

theorem mem_memWrite (a : Nat) (bs : List Byte) : (s.memWrite a bs).mem = Tab.writeBytes s.mem a bs :=
  congrArg State.mem (still_memWrite s a bs)

theorem spad_memWrite (a : Nat) (bs : List Byte) : (s.memWrite a bs).spad = s.spad :=
  (congrArg State.spad (still_memWrite s a bs) :)

theorem cores_memWrite (a : Nat) (bs : List Byte) : (s.memWrite a bs).cores = s.cores :=
  (congrArg State.cores (still_memWrite s a bs) :)

theorem spad_spadScatter (c : Nat) (ps : List (Nat × Byte)) :
    (s.spadScatter c ps).spad = ps.foldl (fun t p => t.set 0 (spadKey c p.1) p.2) s.spad := by
  have hnotes (ks ws : List Nat) (whole : Nat → Bool) :
      (ws.foldl (fun (st : State) w => if st.spadHealth c w = 1 ∨ whole w then st.setSpadHealth c w 0 else st)
        (s.noteWords c ks)).still = s.still := by
    rw [still_foldl (fun st w => still_ite (still_setSpadHealth st c w 0) rfl), still_noteWords]
  exact congrArg (fun z : State => ps.foldl (fun t p => t.set 0 (spadKey c p.1) p.2) z.spad) (hnotes _ _ _)

theorem spad_spadWrite_byte (c a : Nat) (b : Byte) : (s.spadWrite c a [b]).spad = s.spad.set 0 (spadKey c a) b :=
  spad_spadScatter s c [(a, b)]

end

theorem spadKey_ne {c d a x : Nat} (ha : a < 524288) (hx : x < 524288) (h : d ≠ c ∨ x ≠ a) : spadKey d x ≠ spadKey c a := by
  unfold spadKey
  omega

/-- Settles O15: a write leaves `Tab.writeBytes` of stage memory, or `Tab.set` of the scratchpads. -/
theorem stageMemoryReadsBackWhatWasWritten : Obligations.StageMemoryReadsBackWhatWasWritten := by
  refine ⟨?stageMemory, ?scratchpad⟩
  case stageMemory =>
    rintro s a bs ⟨hmem, -, -⟩
    rw [mem_memWrite]
    exact ⟨fun i => Tab.get_writeBytes hmem i.isLt, fun x hx => Tab.get_writeBytes_ne hmem hx⟩
  case scratchpad =>
    rintro s c a b ⟨-, hspad, -⟩ ha
    rw [spad_spadWrite_byte]
    exact ⟨Tab.get_set_self hspad, fun d x hx hne => Tab.get_set_ne hspad (spadKey_ne ha hx hne)⟩

/-! ### The zero fill of a granule (O16) -/

section

variable {α : Type} {d : α} {t : Tab α} {k lo hi : Nat}

theorem Tab.get_of_not_listed (h : ∀ e ∈ t, e.1 ≠ k) : Tab.get d t k = d := by
  induction t with
  | nil => rfl
  | cons e t ih =>
    obtain ⟨hhead, htail⟩ := List.forall_mem_cons.mp h
    simp only [Tab.get, if_neg hhead.symm, ih htail, ite_self]

theorem Tab.not_listed_clearRange (hlo : lo ≤ k) (hhi : k < hi) : ∀ e ∈ t.clearRange lo hi, e.1 ≠ k := by
  intro e he
  have hkept := (List.mem_filter.mp he).2
  simp only [Bool.or_eq_true, decide_eq_true_eq] at hkept
  omega

theorem Tab.get_filter_of_kept [DecidableEq α] (hwf : Tab.wf d t = true) {f : Nat × α → Bool}
    (hkeep : ∀ v, f (k, v) = true) : Tab.get d (t.filter f) k = Tab.get d t k := by
  induction t with
  | nil => rfl
  | cons e t ih =>
    simp only [Tab.wf, Bool.and_eq_true] at hwf
    obtain ⟨⟨-, habove⟩, htail⟩ := hwf
    cases hf : f e with
    | true => simp only [List.filter_cons_of_pos hf, Tab.get, ih htail]
    | false =>
      have hne : k ≠ e.1 := fun hk => by simpa [hk, hf] using hkeep e.2
      rw [List.filter_cons_of_neg (by simp [hf]), ih htail]
      simp only [Tab.get, if_neg hne]
      split
      next hlt => exact Tab.get_above habove (Nat.le_of_lt hlt)
      next => rfl

theorem Tab.get_clearRange_outside [DecidableEq α] (hwf : Tab.wf d t = true) (h : k < lo ∨ hi ≤ k) :
    Tab.get d (t.clearRange lo hi) k = Tab.get d t k :=
  Tab.get_filter_of_kept hwf fun _ => by simpa using h

end

section

variable {s : State} {g : Nat} {v : Word}

theorem mem_zeroGranule (s : State) (g : Nat) : (s.zeroGranule g).mem = Tab.clearRange s.mem (g * 2 ^ 25) (g * 2 ^ 25 + 2 ^ 25) := rfl

theorem ecc_zeroGranule (s : State) (g : Nat) : (s.zeroGranule g).smem.ecc =
    (s.smem.ecc.clearRange (g * 2 ^ 25) (g * 2 ^ 25 + 2 ^ 25)).clearRange (2 ^ 40 + g * 2 ^ 25) (2 ^ 40 + (g * 2 ^ 25 + 2 ^ 25)) :=
  rfl

/-- The write that gives a granule to a context fills it. -/
theorem granuleWrite_of_assigned (hclass : bits v 11 10 ≠ 3) (hold : (s.granValid g && s.ctxBusy (s.granOwner g)) = false)
    (hvalid : bits v 9 9 = 1) (hnew : s.ctxBusy (bits v 8 0) = false)
    (hon : ∀ t < 4, s.bit R.pwrDomainState (32 + g / 256 * 4 + t) = true)
    (hchange : s.granValid g = false ∨ s.granOwner g ≠ bits v 8 0 ∨ s.granClass g ≠ bits v 11 10) :
    s.granuleWrite g v = (((((s.setFld (R.smemcGranule g) 8 0 (bits v 8 0)).setBit (R.smemcGranule g) 9 true).setFld
      (R.smemcGranule g) 11 10 (bits v 11 10)).setBit (R.smemcGranule g) 12 true).zeroGranule g) := by
  have hfill : (!s.granValid g || s.granOwner g != bits v 8 0 || s.granClass g != bits v 11 10) = true := by
    simpa [or_assoc] using hchange
  have hoff : ((List.range 4).any fun t => !s.bit R.pwrDomainState (32 + g / 256 * 4 + t)) = false := by
    simpa using hon
  simp [State.granuleWrite, hclass, hold, hvalid, hnew, hfill, hoff]

end

/-- Settles O16: `granuleWrite_of_assigned` ends in `zeroGranule`, which clears the range of the granule. -/
theorem granuleFillClearsExactlyTheGranule : Obligations.GranuleFillClearsExactlyTheGranule := by
  rintro s granule value ⟨hmem, -, -⟩ hclass hold hvalid hnew hon hchange
  have hend : (granule.val + 1) * 2 ^ 25 = granule.val * 2 ^ 25 + 2 ^ 25 := by rw [Nat.add_mul, Nat.one_mul]
  refine ⟨_, congrArg Host.Outcome.next (granuleWrite_of_assigned hclass hold hvalid hnew hon hchange), ?within, ?outside⟩
  case within =>
    intro a hlo hhi
    rw [hend] at hhi
    rw [mem_zeroGranule, ecc_zeroGranule]
    have hcleared : ∀ e ∈ s.smem.ecc.clearRange (granule.val * 2 ^ 25) (granule.val * 2 ^ 25 + 2 ^ 25), e.1 ≠ a :=
      Tab.not_listed_clearRange hlo hhi
    exact ⟨Tab.get_of_not_listed (Tab.not_listed_clearRange hlo hhi),
      Tab.get_of_not_listed fun e he => hcleared e (List.mem_filter.mp he).1⟩
  case outside =>
    intro a ha
    rw [hend] at ha
    simp only [mem_zeroGranule, State.setBit_mem, State.setFld_mem]
    exact Tab.get_clearRange_outside hmem ha

/-! ### STS and LDS (O17) -/

section

variable (s : State) (q : Nat)

@[simp] theorem still_setG (n : Nat) (v : Word) : (s.setG q n v).still = s.still := still_ite rfl rfl
@[simp] theorem still_setSeqPc (v : Nat) : (s.setSeqPc q v).still = s.still := rfl
@[simp] theorem still_setSeqState (v : Nat) : (s.setSeqState q v).still = s.still := rfl
@[simp] theorem still_seqHold : (s.seqHold q).still = s.still := rfl
@[simp] theorem still_account (x n v : Nat) : (s.account x n v).still = s.still := rfl

@[simp] theorem still_seqBegin (op : Nat) : (s.seqBegin q op).still = s.still := by
  have hevent : (if s.seqState q = 2 then s.globalEvent (41 + q) 1 1 else s).still = s.still :=
    still_ite (still_globalEvent s _ _ _) rfl
  unfold State.seqBegin
  dsimp only
  split
  · exact (still_ite (still_account _ _ _ _) rfl).trans hevent
  · exact hevent

@[simp] theorem still_seqBytes (n : Nat) : (s.seqBytes q n).still = s.still := by
  unfold State.seqBytes
  split <;> rfl

@[simp] theorem still_seqFinish (d : Nat) (v : Word) : (s.seqFinish q d v).still = s.still := by
  unfold State.seqFinish
  dsimp only
  split <;> simp only [still_setSeqState, still_setSeqPc, still_setG]

@[simp] theorem still_seqPut (w : BitVec 32) (v : Word) : (s.seqPut q w v).still = s.still := still_seqFinish s q _ v
@[simp] theorem still_seqNext : (s.seqNext q).still = s.still := still_seqFinish s q 0 0

variable {s q} in
theorem still_seqRead_of_some {a : Nat} {t : State} {v : Word} (h : s.seqRead q a = (t, some v)) : t.still = s.still := by
  unfold State.seqRead at h
  dsimp only at h
  split at h
  · exact absurd (Prod.mk.inj h).2 (by simp)
  · rw [← (Prod.mk.inj h).1, still_seqBytes, still_memRead]

end

theorem getElem_natLE {n v i : Nat} (hi : i < (natLE n v).length) : (natLE n v)[i] = BitVec.ofNat 8 (v / 256 ^ i) := by
  induction n generalizing v i with
  | zero => simp [natLE] at hi
  | succ n ih =>
    cases i with
    | zero => simp [natLE]
    | succ i =>
      simp only [natLE, List.getElem_cons_succ]
      rw [ih, Nat.div_div_eq_div_mul, Nat.pow_succ']

theorem length_natLE (n v : Nat) : (natLE n v).length = n := by
  induction n generalizing v with
  | zero => rfl
  | succ n ih => simp [natLE, ih]

section

variable {s : State} {q : Fin 4}

theorem exec_sts_of_ready {w : BitVec 32} {a : Nat} (hw : w = s.seqWord q) (hready : s.seqReady q 0x0C = true)
    (ha : a = ((s.seqBegin q 0x0C).g q (swB w) + swImm18 w).toNat) (halign : a % 8 = 0)
    (hreach : (s.seqBegin q 0x0C).seqReach q a 8 = true) (hwaits : (s.seqBegin q 0x0C).seqWaits q a 8 = false) :
    exec (.sts q) s = .next ((((s.seqBegin q 0x0C).memWrite a
      (natLE 8 ((s.seqBegin q 0x0C).g q (swA w)).toNat)).seqBytes q 8).seqNext q) := by
  subst hw ha
  refine congrArg Host.Outcome.next ((seqDo_of_ready hready _).trans ?_)
  exact (if_neg (not_or.mpr ⟨Classical.not_not.mpr halign, Classical.not_not.mpr hreach⟩)).trans (if_neg (Bool.eq_false_iff.mp hwaits))

/-- An LDS within reach waits for a zero fill, or reads its word. -/
theorem exec_lds_of_ready {w : BitVec 32} {a : Nat} {us : List Upset} {s₂ : State} {v : Word} (hw : w = s.seqWord q)
    (hready : s.seqReady q 0x0B = true) (ha : a = ((s.seqBegin q 0x0B).g q (swB w) + swImm18 w).toNat) (halign : a % 8 = 0)
    (hreach : (s.seqBegin q 0x0B).seqReach q a 8 = true)
    (hread : ((s.seqBegin q 0x0B).memUpset us).seqRead q a = (s₂, some v)) :
    exec (.lds q us) s = .next (if (s.seqBegin q 0x0B).seqWaits q a 8 then (s.seqBegin q 0x0B).seqHold q
      else s₂.seqPut q w v) := by
  subst hw ha
  refine congrArg Host.Outcome.next ((seqDo_of_ready hready _).trans ?_)
  refine (if_neg (not_or.mpr ⟨Classical.not_not.mpr halign, Classical.not_not.mpr hreach⟩)).trans ?_
  rw [hread]

end

/-- Settles O17: STS is a `memWrite` of eight bytes between register writes; an LDS changes notes alone. -/
theorem stsStoresEightBytesAndNoOther : Obligations.StsStoresEightBytesAndNoOther := by
  refine ⟨?sts, ?lds⟩
  case sts =>
    rintro s q a w ⟨hmem, -, -⟩ rfl hready ha halign hreach hwaits
    have hbegin := still_seqBegin s q 0x0C
    have hmem₁ : (s.seqBegin q 0x0C).mem = s.mem := mem_of_still hbegin
    have hwf : Tab.wf 0 (s.seqBegin q 0x0C).mem = true := hmem₁ ▸ hmem
    refine ⟨_, exec_sts_of_ready rfl hready ha halign hreach hwaits, ?_⟩
    have hlast (x : State) : ((x.seqBytes q 8).seqNext q).still = x.still := by simp
    have hstored := (mem_of_still (hlast _)).trans (mem_memWrite (s.seqBegin q 0x0C) a
      (natLE 8 ((s.seqBegin q 0x0C).g q (swA (s.seqWord q))).toNat))
    have hlength := length_natLE 8 ((s.seqBegin q 0x0C).g q (swA (s.seqWord q))).toNat
    refine ⟨fun i => ?written, fun x hx => ?kept, ?spad, ?cores⟩
    case written =>
      have hi : i.val < (natLE 8 ((s.seqBegin q 0x0C).g q (swA (s.seqWord q))).toNat).length := by rw [hlength]; exact i.isLt
      exact (congrArg (Tab.get 0 · (a + i)) hstored).trans ((Tab.get_writeBytes hwf hi).trans (getElem_natLE hi))
    case kept =>
      rw [← hmem₁]
      exact (congrArg (Tab.get 0 · x) hstored).trans (Tab.get_writeBytes_ne hwf (by rwa [hlength]))
    case spad =>
      exact (spad_of_still (hlast _)).trans ((spad_memWrite _ _ _).trans (spad_of_still hbegin))
    case cores =>
      exact (cores_of_still (hlast _)).trans ((cores_memWrite _ _ _).trans (cores_of_still hbegin))
  case lds =>
    intro s t q us ht hready halign hreach hread
    generalize ha : ((s.seqBegin q 0x0B).g q (swB (s.seqWord q)) + swImm18 (s.seqWord q)).toNat = a at halign hreach hread
    obtain ⟨v, hread⟩ := Option.ne_none_iff_exists'.mp hread
    have hpair : ((s.seqBegin q 0x0B).memUpset us).seqRead q a = (_, some v) := Prod.ext rfl hread
    have hstill : t.still = s.still := by
      rw [exec_lds_of_ready rfl hready ha.symm halign hreach hpair] at ht
      obtain rfl := Host.Outcome.next.inj ht
      refine still_ite ?_ ?_
      · rw [still_seqHold, still_seqBegin]
      · rw [still_seqPut, still_seqRead_of_some hpair, still_memUpset, still_seqBegin]
    exact ⟨mem_of_still hstill, spad_of_still hstill⟩

/-! ### Instructions that touch their sequencer alone (O22) -/

/-- The state without its registers. -/
def State.offRegs (s : State) : State := { s with regs := [] }

/-- `t` is `s` but for registers and the own state of sequencer `q`. -/
structure OnlySeq (q : Nat) (s t : State) : Prop where
  rest : { t with regs := [], seqs := [] } = { s with regs := [], seqs := [] }
  others : Tab.wf {} s.seqs = true → ∀ r ≠ q, t.seq r = s.seq r
  wf : Tab.wf {} s.seqs = true → Tab.wf {} t.seqs = true

namespace OnlySeq

variable {q : Nat} {s t u : State}

theorem seqs_of_offRegs (h : t.offRegs = s.offRegs) : t.seqs = s.seqs := (congrArg State.seqs h :)

theorem of_offRegs (h : t.offRegs = s.offRegs) : OnlySeq q s t where
  rest := congrArg (fun x : State => { x with regs := [], seqs := [] }) h
  others _ r _ := by unfold State.seq; rw [seqs_of_offRegs h]
  wf hwf := seqs_of_offRegs h ▸ hwf

/-- Every field but the registers and the sequencers is as before. -/
theorem exists_eq (h : OnlySeq q s t) : ∃ regs seqs, t = { s with regs, seqs } :=
  ⟨t.regs, t.seqs, (congrArg (fun x : State => { x with regs := t.regs, seqs := t.seqs }) h.rest :)⟩

theorem trans (h : OnlySeq q s t) (h' : OnlySeq q t u) : OnlySeq q s u where
  rest := h'.rest.trans h.rest
  others hwf r hr := (h'.others (h.wf hwf) r hr).trans (h.others hwf r hr)
  wf hwf := h'.wf (h.wf hwf)

theorem modSeq (s : State) (f : Seqr → Seqr) : OnlySeq q s (s.modSeq q f) where
  rest := rfl
  others hwf _ hr := Tab.get_set_ne hwf hr
  wf hwf := Tab.wf_set hwf

theorem setSeqPc (s : State) (v : Nat) : OnlySeq q s (s.setSeqPc q v) := of_offRegs rfl

theorem ite {c : Prop} [Decidable c] (h : OnlySeq q s t) (h' : OnlySeq q s u) : OnlySeq q s (if c then t else u) := by
  split <;> assumption

theorem globalEvent (s : State) (src ev n : Nat) : OnlySeq q s (s.globalEvent src ev n) := by
  refine of_offRegs ?_
  unfold State.globalEvent
  split
  · rfl
  · exact foldl_leaves (g := State.offRegs) (fun st i => by dsimp only; split <;> rfl) _ _

theorem seqBegin (s : State) (op : Nat) : OnlySeq q s (s.seqBegin q op) := by
  have hevent : OnlySeq q s (if s.seqState q = 2 then s.globalEvent (41 + q) 1 1 else s) :=
    ite (globalEvent s _ _ _) (of_offRegs rfl)
  unfold State.seqBegin
  dsimp only
  split
  · exact hevent.trans (ite (of_offRegs rfl) (of_offRegs rfl))
  · exact hevent

theorem setSeqState (s : State) (v : Nat) : OnlySeq q s (s.setSeqState q v) := of_offRegs rfl

theorem seqFinish (s : State) (d : Nat) (v : Word) : OnlySeq q s (s.seqFinish q d v) := by
  have hput : OnlySeq q s (s.setG q d v) := ite (of_offRegs rfl) (of_offRegs rfl)
  unfold State.seqFinish
  exact (hput.trans (setSeqPc _ _)).trans (ite (setSeqState _ _) (of_offRegs rfl))

theorem seqDo {f : State → BitVec 32 → State} (hf : ∀ st w, OnlySeq q st (f st w)) (s : State) (op : Nat) :
    OnlySeq q s (s.seqDo q op f) :=
  ite ((seqBegin s op).trans (hf _ _)) (of_offRegs rfl)

end OnlySeq

theorem exec_onlySeq (s : State) (q : Fin 4) :
    ∀ c ∈ [Instr.nop q, .alu q, .addi q, .stgLi q, .liw q, .stgCall q, .stgRet q, .time q, .tset q, .ewait q, .cget q,
      .cput q, .cclr q, .ccopy q], ∃ t, exec c s = .next t ∧ OnlySeq q s t := by
  have hgoto (x : State) (v : Nat) : OnlySeq q x (x.seqGoto q v) := .setSeqPc x v
  have hput (x : State) (w : BitVec 32) (v : Word) : OnlySeq q x (x.seqPut q w v) := .seqFinish x _ v
  have hnext (x : State) : OnlySeq q x (x.seqNext q) := .seqFinish x 0 0
  have hcard (x : State) (n : Nat) (y : Card) : OnlySeq q x (x.setSeqCard q n y) := .modSeq x _
  have horigin (x : State) (n o : Nat) : OnlySeq q x (x.setOrigin q n o) := .modSeq x _
  simp only [List.forall_mem_cons, List.not_mem_nil, false_imp_iff, implies_true, and_true]
  refine ⟨?nop, ?alu, ?addi, ?li, ?liw, ?call, ?ret, ?time, ?tset, ?ewait, ?cget, ?cput, ?cclr, ?ccopy⟩
  case nop => exact ⟨_, rfl, .seqDo (fun x _ => hnext x) s _⟩
  case alu | addi | li | time | cget => exact ⟨_, rfl, .seqDo (fun x w => hput x w _) s _⟩
  case liw => exact ⟨_, rfl, .seqDo (fun x w => (OnlySeq.setSeqPc x _).trans (hput _ w _)) s _⟩
  case call | ret => exact ⟨_, rfl, .seqDo (fun x _ => (OnlySeq.modSeq x _).trans (hgoto _ _)) s _⟩
  case tset => exact ⟨_, rfl, .seqDo (fun x _ => (OnlySeq.modSeq x _).trans (hnext _)) s _⟩
  case ewait =>
    refine ⟨_, rfl, .seqDo (fun x _ => .ite (hnext x) ?_) s _⟩
    exact (OnlySeq.ite (.globalEvent x _ _ _) (.of_offRegs rfl)).trans (.setSeqState _ _)
  case cput => exact ⟨_, rfl, .seqDo (fun x w => (hcard x _ _).trans (hnext _)) s _⟩
  case cclr | ccopy =>
    exact ⟨_, rfl, .ite (.seqDo (fun x w => ((hcard x _ _).trans (horigin _ _ _)).trans (hnext _)) s _) (.of_offRegs rfl)⟩

/-- Settles O22: each meaning is a chain of updates that touch registers and the sequencer's own state alone. -/
theorem sequencerInstructionsTouchOnlyTheirSequencer : Obligations.SequencerInstructionsTouchOnlyTheirSequencer := by
  intro s t q c _ hwf hc ht
  obtain ⟨x, hx, honly⟩ := exec_onlySeq s q c hc
  obtain rfl := Host.Outcome.next.inj (hx.symm.trans ht)
  have hothers (r : Fin 4) (hr : r ≠ q) := honly.others hwf r (Fin.val_ne_of_ne hr)
  have hcanonical := honly.wf hwf
  obtain ⟨regs, seqs, rfl⟩ := honly.exists_eq
  exact ⟨rfl, rfl, rfl, rfl, rfl, rfl, rfl, rfl, rfl, rfl, rfl, rfl, rfl, rfl, hothers, hcanonical⟩

end Sys2Proof.Machine

namespace Sys2Proof.Machine

/-! ### SPDM requests (O4, O23) -/

/-- The state without the SPDM session and the counter of free values. -/
def State.offSession (s : State) : State := { s with freeCtr := 0, trust := { s.trust with spdm := {} } }

section

variable {s t : State}

theorem exists_of_offSession (h : t.offSession = s.offSession) :
    ∃ (z : Spdm) (n : Nat), t = { s with freeCtr := n, trust := { s.trust with spdm := z } } :=
  ⟨t.trust.spdm, t.freeCtr, (congrArg (fun x : State =>
    { x with freeCtr := t.freeCtr, trust := { x.trust with spdm := t.trust.spdm } }) h :)⟩

theorem offSession_ite {c : Prop} [Decidable c] {u : State} (ht : t.offSession = s.offSession)
    (hu : u.offSession = s.offSession) : (if c then t else u).offSession = s.offSession := by
  split <;> assumption

theorem offSession_spdm (tr need : Nat) {f : State → State} (hf : (f s).offSession = s.offSession) :
    (s.spdm tr need f).offSession = s.offSession :=
  offSession_ite rfl (offSession_ite rfl hf)

theorem offSession_inSession {f : State → State} (hf : (f s).offSession = s.offSession) :
    (s.inSession f).offSession = s.offSession :=
  offSession_ite hf rfl

end

theorem exec_offSession (s : State) (tr : Fin 2) (b : Bool) (slot : Fin 8) (o l : BitVec 16) (nc : BitVec 256) (ix : BitVec 8)
    (rt : Option (List Byte)) (x : Fin 512) (ts : List Byte) :
    ∀ c ∈ [Instr.getVersion tr, .getCapabilities tr, .negotiateAlgorithms tr b, .getDigests tr, .getCertificate tr slot o l,
      .challenge tr slot nc, .getMeasurements tr ix, .keyExchange tr slot, .finish tr b rt, .heartbeat tr, .keyUpdate tr,
      .endSession tr, .getCtxMeasurement tr x nc, .pqSign tr ts], ∃ t, exec c s = .next t ∧ t.offSession = s.offSession := by
  simp only [List.forall_mem_cons, List.not_mem_nil, false_imp_iff, implies_true, and_true]
  refine ⟨?version, ?capabilities, ?algorithms, ?digests, ?certificate, ?challenge, ?measurements, ?exchange,
    ?finish, ?heartbeat, ?keyUpdate, ?endSession, ?ctxMeasurement, ?pqSign⟩
  case version | capabilities | digests | ctxMeasurement | pqSign => exact ⟨_, rfl, offSession_spdm _ _ rfl⟩
  case algorithms | certificate | challenge | exchange => exact ⟨_, rfl, offSession_spdm _ _ (offSession_ite rfl rfl)⟩
  case measurements =>
    exact ⟨_, rfl, offSession_spdm _ _ (offSession_ite rfl (offSession_ite rfl (offSession_ite rfl rfl)))⟩
  case finish => exact ⟨_, rfl, offSession_spdm _ _ (offSession_ite rfl (offSession_ite rfl rfl))⟩
  case heartbeat | keyUpdate | endSession => exact ⟨_, rfl, offSession_spdm _ _ (offSession_inSession rfl)⟩

/-- Settles O23: each request answers within the session, whether or not the responder takes it. -/
theorem attestationAnswersChangeNoOtherState : Obligations.AttestationAnswersChangeNoOtherState := by
  intro s t tr b slot o l nc ix rt x ts c hc ht
  obtain ⟨u, hu, hsame⟩ := exec_offSession s tr b slot o l nc ix rt x ts c hc
  obtain rfl := Host.Outcome.next.inj (hu.symm.trans ht)
  exact exists_of_offSession hsame

section

variable {s : State} {t : Fin 2}

/-- A transport carries its messages: transport 0, or 1 over a host link that is up. -/
theorem not_uncarried (hfirm : s.firmware = true) (hlink : t = 0 ∨ s.hostUp = true) :
    ¬ (¬ s.firmware ∨ (t.val = 1 ∧ ¬ s.hostUp)) := by
  rcases hlink with rfl | hup
  · simp [hfirm]
  · simp [hfirm, hup]

/-- The responder takes a request that its transport carries in a phase that allows it. -/
theorem spdm_of_phase {need : Nat} (hfirm : s.firmware = true) (hlink : t = 0 ∨ s.hostUp = true)
    (hphase : need ≤ s.trust.spdm.phase) (f : State → State) : s.spdm t need f = f s :=
  (if_neg (not_uncarried hfirm hlink)).trans (if_neg (Nat.not_lt.mpr hphase))

end

/-- Settles O4: the responder takes each request (`spdm_of_phase`) and answers as its meaning says. -/
theorem attestationAndSessionCommandsComplete : Obligations.AttestationAndSessionCommandsComplete := by
  refine ⟨?version, ?capabilities, ?algorithms, ?digests, ?certificate, ?challenge, ?measurement, ?measurements, ?exchange,
    ?finish, ?heartbeat, ?keyUpdate, ?endSession, ?ctxMeasurement, ?pqSign⟩
  case version | capabilities | algorithms | digests =>
    intro s t hfirm hlink hphase
    exact congrArg Host.Outcome.next (spdm_of_phase hfirm hlink hphase _)
  case certificate =>
    intro s t o l hfirm hlink hphase
    exact congrArg Host.Outcome.next (spdm_of_phase hfirm hlink hphase _)
  case challenge =>
    intro s t nonce hfirm hlink hphase
    exact congrArg Host.Outcome.next (spdm_of_phase hfirm hlink hphase _)
  case measurement =>
    intro s t index hfirm hlink hphase hlow hhigh
    refine congrArg Host.Outcome.next ((spdm_of_phase hfirm hlink hphase _).trans ?_)
    exact (if_neg (by omega)).trans (if_pos ⟨hlow, hhigh⟩)
  case measurements =>
    intro s t hfirm hlink hphase
    exact congrArg Host.Outcome.next (spdm_of_phase hfirm hlink hphase _)
  case exchange =>
    intro s t s₁ r hfirm hlink hphase hdraw
    refine congrArg Host.Outcome.next ((spdm_of_phase hfirm hlink hphase _).trans ?_)
    rw [hdraw]
    rfl
  case finish =>
    intro s t root q hfirm hlink hphase hexchange hq
    refine congrArg Host.Outcome.next ((spdm_of_phase hfirm hlink hphase _).trans ?_)
    subst hq
    exact if_neg (by simp [hexchange])
  case heartbeat | keyUpdate | endSession =>
    intro s t hfirm hlink hphase hsession
    exact congrArg Host.Outcome.next ((spdm_of_phase hfirm hlink hphase _).trans (if_pos hsession))
  case ctxMeasurement =>
    intro s t x nonce hfirm hlink hphase
    exact congrArg Host.Outcome.next (spdm_of_phase hfirm hlink hphase _)
  case pqSign =>
    intro s t ts hfirm hlink hphase
    exact congrArg Host.Outcome.next (spdm_of_phase hfirm hlink hphase _)

end Sys2Proof.Machine

namespace Sys2Proof

/-! ### CRC-32 and flits (O28) -/

theorem crcBit_lt {c : Nat} (h : c < 2 ^ 32) : crcBit c < 2 ^ 32 := by
  unfold crcBit
  split
  · exact Nat.xor_lt_two_pow (by omega) (by decide)
  · omega

theorem crcByte_lt {c : Nat} (h : c < 2 ^ 32) (b : Byte) : crcByte c b < 2 ^ 32 := by
  have hb : b.toNat < 2 ^ 32 := Nat.lt_trans b.isLt (by decide)
  unfold crcByte
  iterate 8 apply crcBit_lt
  exact Nat.xor_lt_two_pow h hb

theorem crcGo_cons (b : Byte) (bs : List Byte) (c : Nat) : crcGo (b :: bs) c = crcGo bs (crcByte c b) := by
  conv => lhs; unfold crcGo
  generalize crcByte c b = x
  cases x <;> rfl

theorem crcGo_lt {c : Nat} (h : c < 2 ^ 32) (bs : List Byte) : crcGo bs c < 2 ^ 32 := by
  induction bs generalizing c with
  | nil => exact h
  | cons b bs ih => rw [crcGo_cons]; exact ih (crcByte_lt h b)

theorem crc32_lt (bs : List Byte) : crc32 bs < 2 ^ 32 :=
  Nat.xor_lt_two_pow (crcGo_lt (by decide) bs) (by decide)

namespace Machine

theorem leNat_lt (bs : List Byte) : leNat bs < 2 ^ (8 * bs.length) := by
  induction bs with
  | nil => simp [leNat]
  | cons b bs ih =>
    have hb : b.toNat < 256 := b.isLt
    simp only [leNat, List.length_cons, Nat.mul_add, Nat.mul_one, Nat.pow_add]
    omega

theorem leNat_append (bs cs : List Byte) : leNat (bs ++ cs) = leNat bs + 2 ^ (8 * bs.length) * leNat cs := by
  induction bs with
  | nil => simp [leNat]
  | cons b bs ih =>
    have hpow : 2 ^ (8 * (bs.length + 1)) = 256 * 2 ^ (8 * bs.length) := by
      rw [Nat.mul_add, Nat.pow_add, Nat.mul_comm]
    rw [List.cons_append, leNat, leNat, ih, List.length_cons, hpow, Nat.mul_add, Nat.mul_assoc, Nat.add_assoc]

/-- The bytes of a list's number are the list. -/
theorem natLE_leNat (bs : List Byte) : natLE bs.length (leNat bs) = bs := by
  induction bs with
  | nil => rfl
  | cons b bs ih =>
    have hb : b.toNat < 256 := b.isLt
    have hhead : BitVec.ofNat 8 (b.toNat + 256 * leNat bs) = b := BitVec.eq_of_toNat_eq (by simp; omega)
    have htail : (b.toNat + 256 * leNat bs) / 256 = leNat bs := by omega
    simp only [List.length_cons, natLE, leNat, hhead, htail, ih]

theorem leNat_natLE (n v : Nat) : leNat (natLE n v) = v % 256 ^ n := by
  induction n generalizing v with
  | zero => simp [natLE, leNat, Nat.mod_one]
  | succ n ih => rw [natLE, leNat, ih, Nat.pow_succ', Nat.mod_mul, BitVec.toNat_ofNat]

theorem toNat_ofBytes {bs : List Byte} (h : bs.length = 256) : (Flit.ofBytes bs).toNat = leNat bs := by
  have hlt := leNat_lt bs
  rw [h] at hlt
  exact (BitVec.toNat_ofNat _ _).trans (Nat.mod_eq_of_lt (by simpa only [Nat.reduceMul] using hlt))

theorem bytes_ofBytes {bs : List Byte} (h : bs.length = 256) : (Flit.ofBytes bs).bytes = bs := by
  unfold Flit.bytes
  rw [toNat_ofBytes h, ← h, natLE_leNat]

/-- The first 252 bytes of a flit as it is formed: header, payload, padding. -/
def flitHead (hdr : Nat) (payload : List Byte) : List Byte :=
  natLE 12 hdr ++ payload ++ List.replicate (240 - payload.length) 0

section

variable {payload : List Byte} (h : payload.length ≤ 240) (hdr : Nat)
include h

theorem length_flitHead : (flitHead hdr payload).length = 252 := by
  simp [flitHead, length_natLE]
  omega

theorem length_flit : (flitHead hdr payload ++ natLE 4 (crc32 (flitHead hdr payload))).length = 256 := by
  rw [List.length_append, length_flitHead h, length_natLE]

theorem bytes_mkFlit : (mkFlit hdr payload).bytes = flitHead hdr payload ++ natLE 4 (crc32 (flitHead hdr payload)) :=
  bytes_ofBytes (length_flit h hdr)

/-- The last four bytes of a formed flit are the CRC of the others. -/
theorem crc_mkFlit : bits (mkFlit hdr payload) 2047 2016 = crc32 (flitHead hdr payload) := by
  have hhead := leNat_lt (flitHead hdr payload)
  have hcrc := crc32_lt (flitHead hdr payload)
  have hflit : (mkFlit hdr payload).toNat = leNat (flitHead hdr payload) + 2 ^ 2016 * (crc32 (flitHead hdr payload) % 2 ^ 32) := by
    rw [show (mkFlit hdr payload).toNat = leNat (flitHead hdr payload ++ natLE 4 (crc32 (flitHead hdr payload))) from
      toNat_ofBytes (length_flit h hdr), leNat_append, leNat_natLE, length_flitHead h, show 8 * 252 = 2016 from rfl,
      show 256 ^ 4 = 2 ^ 32 from rfl]
  rw [length_flitHead h] at hhead
  unfold bits
  rw [hflit, Nat.add_mul_div_left _ _ (Nat.two_pow_pos 2016), Nat.div_eq_of_lt (by simpa only [Nat.reduceMul] using hhead)]
  omega

theorem crcOk_mkFlit : (mkFlit hdr payload).crcOk = true := by
  unfold Flit.crcOk
  rw [bytes_mkFlit h, crc_mkFlit h, List.take_left' (length_flitHead h hdr), beq_self_eq_true]

theorem payload_mkFlit : (mkFlit hdr payload).payload.take payload.length = payload := by
  unfold Flit.payload
  rw [bytes_mkFlit h, List.take_take, Nat.min_eq_left h]
  unfold flitHead
  rw [List.append_assoc, List.append_assoc, List.drop_left' (length_natLE 12 hdr), List.take_left]

end

/-- Settles O28: the formed flit's bytes are its head and the head's CRC, and a flit is taken only when the CRC holds. -/
theorem flitsCarryTheirChecksum : Obligations.FlitsCarryTheirChecksum :=
  ⟨fun hdr _ _ hlength => ⟨crcOk_mkFlit hlength hdr, payload_mkFlit hlength hdr⟩,
    fun _ _ _ _ hbad => if_pos (by simp [hbad])⟩

/-! ### Power-on reset (O30) -/

/-- `fuseRegs` writes LIFECYCLE, SVN and SERIAL. -/
theorem rd_fuseRegs {s t : State} (h : regsWf t.regs = true) {k : Nat} (hlife : k ≠ R.trustLifecycle)
    (hsvn : k ≠ R.trustSvn) (hserial : k ≠ R.trustSerial) : (s.fuseRegs t).rd k = t.rd k := by
  have h₁ := regsWf_setFld h (k := R.trustLifecycle) 1 0 s.lifecycle
  have h₂ := regsWf_setBit h₁ (k := R.trustLifecycle) 2 (s.lifecycle == 0)
  have h₃ := regsWf_setFld h₂ (k := R.trustSvn) 6 0 (s.fld R.trustSvn 6 0)
  unfold State.fuseRegs
  dsimp only
  rw [rd_wr_ne h₃ hserial, rd_setFld_ne h₂ hsvn, rd_setBit_ne h₁ hlife, rd_setFld_ne h hlife]

theorem regsWf_fuseRegs {s t : State} (h : regsWf t.regs = true) : regsWf (s.fuseRegs t).regs = true :=
  regsWf_set (regsWf_setFld (regsWf_setBit (regsWf_setFld h _ _ _) _ _) _ _ _)

/-- The state of a power-on reset before its registers are written: what is kept of `s`, and no register. -/
def State.coldBase (s : State) : State :=
  { pending := s.pending, freeCtr := s.freeCtr,
    obs := { ledger := { copyA := s.obs.ledger.copyA, copyB := s.obs.ledger.copyB, gen := s.obs.ledger.gen,
                         useB := s.obs.ledger.useB }, saved := s.obs.saved },
    trust := { fuses := s.trust.fuses, slotA := s.trust.slotA, slotB := s.trust.slotB, lastGood := s.trust.lastGood },
    start := { preset := s.start.preset, mgtAddr := s.start.mgtAddr, armed := s.start.armed && 0 != 0 && 1 != 3 } }

theorem powerOnReset_eq (s : State) :
    s.powerOnReset = ((s.fuseRegs s.coldBase).wr R.mgtResetCause 1).holdReset false := rfl

theorem rd_holdReset (s : State) (scan : Bool) (k : Nat) : (s.holdReset scan).rd k = s.rd k := rfl

/-- Settles O30: a power-on reset starts from an empty state, of which it writes the cause and the fuses' registers. -/
theorem powerOnResetEmptiesTheMachine : Obligations.PowerOnResetEmptiesTheMachine := by
  intro s
  have hw : regsWf (s.fuseRegs s.coldBase).regs = true := regsWf_fuseRegs rfl
  refine ⟨s.powerOnReset, rfl, rfl, rfl, rfl, rfl, rfl, rfl, rfl, rfl, rfl, rfl, rfl, rfl, ?cause, ?regs, rfl, rfl, rfl,
    rfl, rfl, rfl⟩
  case cause =>
    rw [powerOnReset_eq, rd_holdReset, rd_wr_self hw]
  case regs =>
    intro k hcause hlife hsvn hserial
    rw [powerOnReset_eq, rd_holdReset, rd_wr_ne hw hcause, rd_fuseRegs rfl hlife hsvn hserial]
    exact congrArg (fun t => Tab.get (regReset k) t k) (rfl : s.coldBase.regs = [])

end Machine

end Sys2Proof

namespace Sys2Proof.Machine

/-! ### Flags (O24) -/

section

variable {s : State} {c f g n : Nat}

/-- The register that holds flag `f` of core `c`: the core's, or its pod's. -/
def flagHome (c f : Nat) : Nat := if f < 64 then R.coreFlag c (f / 2) else R.podFlag (c / 4) ((f - 64) / 2)

theorem flag_eq (s : State) (c f : Nat) : s.flag c f = s.fld (flagHome c f) (16 * (f % 2) + 15) (16 * (f % 2)) := by
  unfold State.flag flagHome
  split <;> rfl

theorem setFlag_eq (s : State) (c f v : Nat) :
    s.setFlag c f v = s.setFld (flagHome c f) (16 * (f % 2) + 15) (16 * (f % 2)) v := by
  unfold State.setFlag flagHome
  split <;> rfl

/-- Flags of one core share a register only where they are its two halves. -/
theorem flagHome_ne (hc : c < 128) (hf : f < 96) (hg : g < 96) (h : f / 2 ≠ g / 2) : flagHome c g ≠ flagHome c f := by
  unfold flagHome R.coreFlag R.podFlag regKey
  split <;> split <;> omega

theorem flag_setFlag (hregs : regsWf s.regs = true) {v : Nat} (hv : v ≤ 65535) : (s.setFlag c f v).flag c f = v := by
  rw [setFlag_eq, flag_eq, fld_setFld hregs (by omega) (by omega),
    show 16 * (f % 2) + 15 + 1 - 16 * (f % 2) = 16 by omega, Nat.mod_eq_of_lt (by omega)]

theorem flag_setFlag_ne (hregs : regsWf s.regs = true) (hc : c < 128) (hf : f < 96) (hg : g < 96) (h : g ≠ f) (v : Nat) :
    (s.setFlag c f v).flag c g = s.flag c g := by
  rw [setFlag_eq, flag_eq, flag_eq]
  by_cases hhome : f / 2 = g / 2
  · have hsame : flagHome c g = flagHome c f := by
      unfold flagHome
      rw [hhome, show (f - 64) / 2 = (g - 64) / 2 by omega]
      exact ite_congr (propext (by omega)) (fun _ => rfl) fun _ => rfl
    rw [hsame]
    exact fld_setFld_other hregs (by omega) (by omega) (by omega) (by omega)
  · exact fld_setFld_ne hregs (flagHome_ne hc hf hg hhome)

theorem signal_of_fits (h : s.flag c f + n ≤ 65535) : s.signal c f n = s.setFlag c f (s.flag c f + n) := by
  unfold State.signal flagUpdate
  rw [Nat.sub_zero, if_pos h]

theorem signal_of_overflow (h : 65535 < s.flag c f + n) :
    s.signal c f n = s.coreFault c 0x2002 [(1, f), (2, s.flag c f), (4, n)] := by
  unfold State.signal flagUpdate
  rw [Nat.sub_zero, if_neg (Nat.not_le.mpr h)]
  rfl

end

/-- Settles O24: a signal that fits is a write of its flag's field. -/
theorem signalsAddToTheirFlagAlone : Obligations.SignalsAddToTheirFlagAlone := by
  rintro s c f n ⟨-, -, hregs⟩ hc hf
  refine ⟨fun hfits => ?_, signal_of_overflow⟩
  rw [signal_of_fits hfits]
  refine ⟨flag_setFlag hregs hfits, fun g hg hne => flag_setFlag_ne hregs hc hf hg hne _, ?_, ?_⟩ <;> rw [setFlag_eq] <;> rfl

/-! ### Writes by access code (O25) -/

theorem testBit_and_eq_false {a b : Nat} (h : a &&& b = 0) (i : Nat) : (a.testBit i && b.testBit i) = false := by
  rw [← Nat.testBit_and, h, Nat.zero_testBit]

/-- One bit of a register after a plain write, the access codes being exclusive. -/
theorem plain_bit : ∀ rw rwl w1c w1s w m old : Bool, (rw && w1c) = false → (rw && w1s) = false → (w1c && w1s) = false →
    (rwl && (rw || w1c || w1s)) = false →
    (((old && !((rw || rwl) && m)) || (w && m && ((rw || rwl) && m))) && !(w && m && w1c) || (w && m && w1s)) =
      (if (rw || rwl) && m then w else if w1c && w && m then false else if w1s && w && m then true else old) := by
  decide

/-- No bit of the row has two of the codes RW, W1C, W1S and RWL. -/
def RegRow.exclusive (r : RegRow) : Bool :=
  (r.rw &&& r.w1c).beq 0 && (r.rw &&& r.w1s).beq 0 && (r.w1c &&& r.w1s).beq 0 &&
    (r.rwl &&& (r.rw ||| r.w1c ||| r.w1s)).beq 0

theorem RegRow.exclusive_iff (r : RegRow) : r.exclusive = true ↔
    r.rw &&& r.w1c = 0 ∧ r.rw &&& r.w1s = 0 ∧ r.w1c &&& r.w1s = 0 ∧ r.rwl &&& (r.rw ||| r.w1c ||| r.w1s) = 0 := by
  simp only [RegRow.exclusive, Bool.and_eq_true, Nat.beq_eq, and_assoc]

/-- Settles O25: `plain` is one write, read bit by bit; the masks of a row share no bit. -/
theorem registerWritesFollowTheAccessCodes : Obligations.RegisterWritesFollowTheAccessCodes := by
  refine ⟨?bits, ?rows⟩
  case bits =>
    rintro s h w m ⟨-, -, hregs⟩ ⟨hc, hs, hcs, hl⟩
    refine ⟨fun i hi => ?_, fun k hk => rd_wr_ne hregs hk _⟩
    have hc := testBit_and_eq_false hc i
    have hs := testBit_and_eq_false hs i
    have hcs := testBit_and_eq_false hcs i
    have hl := testBit_and_eq_false hl i
    rw [Nat.testBit_or, Nat.testBit_or] at hl
    unfold State.plain
    rw [rd_wr_self hregs]
    have hrwl : (if s.bit (R.hdrLock h.pg) 0 then 0 else h.row.rwl).testBit i =
        (h.row.rwl.testBit i && !s.bit (R.hdrLock h.pg) 0) := by
      cases s.bit (R.hdrLock h.pg) 0 <;> simp
    simp only [BitVec.getLsbD_or, BitVec.getLsbD_and, BitVec.getLsbD_not, BitVec.getLsbD_ofNat, Nat.testBit_or, hrwl, hi,
      decide_true, Bool.true_and]
    refine plain_bit _ _ _ _ _ _ _ hc hs hcs ?_
    rw [Bool.and_right_comm, hl, Bool.false_and]
  case rows => exact fun r hr => r.exclusive_iff.mp (List.all_eq_true.mp (by decide +kernel) r hr)

/-! ### Interrupt events (O26) -/

section

variable (s : State)

theorem regs_msixSend (v : Nat) : (s.msixSend v).regs = s.regs := by
  unfold State.msixSend
  dsimp only
  split
  · split <;> rfl
  · split <;> rfl

theorem regs_intEvent (pg i : Nat) : (s.intEvent pg i).regs = (s.setBit (R.hdrIntStatus pg) i true).regs := by
  unfold State.intEvent State.noteRequest
  split
  · exact regs_msixSend _ _
  · rfl

theorem rd_intEvent (pg i k : Nat) : (s.intEvent pg i).rd k = (s.setBit (R.hdrIntStatus pg) i true).rd k := by
  unfold State.rd
  rw [regs_intEvent]

theorem bit_intEvent (pg i k j : Nat) : (s.intEvent pg i).bit k j = (s.setBit (R.hdrIntStatus pg) i true).bit k j := by
  unfold State.bit State.fld
  rw [rd_intEvent]

end

/-- Settles O26: to the registers an event is a write of its INT_STATUS bit, and the message changes host state alone. -/
theorem interruptEventsSetTheirStatusBit : Obligations.InterruptEventsSetTheirStatusBit := by
  rintro s pg i ⟨-, -, hregs⟩ hi
  have hstill := still_intEvent s pg i
  refine ⟨?_, fun j _ hj => ?_, fun k hk => ?_, mem_of_still hstill, spad_of_still hstill, qm_of_still hstill,
    cores_of_still hstill, jobs_of_still hstill, flog_of_still hstill⟩
  · rw [bit_intEvent, bit_setBit hregs hi]
  · rw [bit_intEvent, bit_setBit_other hregs hi hj]
  · rw [rd_intEvent, rd_setBit_ne hregs hk]

/-! ### The fault log (O27) -/

section

variable (s : State)

theorem flog_ite {p : Prop} [Decidable p] {s t u : State} (ht : t.flog = s.flog) (hu : u.flog = s.flog) :
    (if p then t else u).flog = s.flog := by
  split <;> assumption

theorem flog_memWrite (a : Nat) (bs : List Byte) : (s.memWrite a bs).flog = s.flog :=
  (congrArg State.flog (still_memWrite s a bs) :)

theorem flog_ringWrite (base : Nat) (ps : List (Nat × List Byte)) : (s.ringWrite base ps).flog = s.flog :=
  foldl_leaves (g := State.flog) (fun st _ => flog_memWrite st _ _) ps s

theorem flog_sysRecord (kind n src time : Nat) (body : List (Nat × Nat)) :
    (s.sysRecord kind n src time body).flog = s.flog := by
  unfold State.sysRecord
  exact flog_ite (flog_ringWrite s _ _) rfl

theorem flog_ctxRecord (x kind n src time : Nat) (body : List (Nat × Nat)) :
    (s.ctxRecord x kind n src time body).flog = s.flog := by
  unfold State.ctxRecord
  exact flog_ite (flog_ringWrite s _ _) rfl

theorem flog_faultRecord (src u : Nat) (ctx : Option Nat) (r : Card) : (s.faultRecord src u ctx r).flog = s.flog := by
  cases ctx with
  | none => simp only [State.faultRecord, flog_sysRecord]
  | some x => simp only [State.faultRecord, flog_ctxRecord, flog_sysRecord]

theorem flog_logErr (pg code seq time : Nat) : (s.logErr pg code seq time).flog = s.flog := by
  have hwrites (j k l : Nat) (u v w : Word) : (((s.wr j u).wr k v).wr l w).flog = s.flog := rfl
  unfold State.logErr
  split
  · exact State.setBit_flog s _ _ _
  · exact hwrites _ _ _ _ _ _

theorem flog_intEvent (pg i : Nat) : (s.intEvent pg i).flog = s.flog := flog_of_still (still_intEvent s pg i)

theorem flog_qPush (q : Nat) (c : Card) : (s.qPush q c).flog = s.flog := by
  unfold State.qPush
  dsimp only
  split <;> rfl

variable {s} in
theorem flog_of_qOffer {q : Nat} {c : Card} {t : State} (h : s.qOffer q c = some t) : t.flog = s.flog := by
  obtain ⟨-, h⟩ := Option.ite_none_right_eq_some.mp h
  rw [← Option.some.inj h, flog_qPush]

theorem flog_eventCard (u : Nat) (f : FaultRec) (b : Nat) (r : Card) : (s.eventCard u f b r).flog = s.flog := by
  unfold State.eventCard
  dsimp only
  split
  next t ht => exact flog_of_qOffer ht
  next => exact flog_intEvent _ _ _

theorem flog_record (f : FaultRec) (b : Nat) (esc : Bool) : (s.record f b esc).flog =
    (s.flog.clearRange 0 (s.fld R.mgtFlogHead 31 0 + 1 - 1023)).set 0 (s.fld R.mgtFlogHead 31 0 + 1)
      (mkRecord f b esc s.now (s.fld R.mgtFlogHead 31 0 + 1) s.chip) := by
  unfold State.record
  have hledger (x : State) (r : Card) : (if b = 6 ∨ b = 7 then x.ledgerFault r else x).flog = x.flog := flog_ite rfl rfl
  dsimp only
  simp only [flog_eventCard, hledger, flog_faultRecord, flog_intEvent, flog_logErr, State.wr_flog, State.chip]

end

/-- Settles O27: the log is cleared below its 1,023 latest records and the new one set. -/
theorem faultLogKeepsTheLatestRecords : Obligations.FaultLogKeepsTheLatestRecords := by
  rintro s f b n k esc hwf rfl
  have hcleared : Tab.wf 0 (s.flog.clearRange 0 (s.fld R.mgtFlogHead 31 0 + 1 - 1023)) = true := Tab.wf_filter hwf
  rw [flog_record]
  refine ⟨Tab.wf_set hcleared, ?_⟩
  by_cases hnew : k = s.fld R.mgtFlogHead 31 0 + 1
  · rw [if_pos hnew, hnew, Tab.get_set_self hcleared]
  rw [if_neg hnew]
  split
  next hkept => rw [Tab.get_set_ne hcleared hnew, Tab.get_clearRange_outside hwf (by omega)]
  next hkept => rw [Tab.get_set_ne hcleared hnew, Tab.get_of_not_listed (Tab.not_listed_clearRange (Nat.zero_le k) (by omega))]

/-! ### Granule writes (O34) -/

section

variable {s : State} {g h : Nat} {v : Word}

theorem smemcGranule_ne_smemcStatus (g : Nat) : R.smemcGranule g ≠ R.smemcStatus := by
  unfold R.smemcGranule R.smemcStatus regKey
  omega

theorem smemcGranule_ne (hne : h ≠ g) : R.smemcGranule h ≠ R.smemcGranule g := by
  unfold R.smemcGranule regKey
  omega

/-- The class a granule write stores: class 3 is not stored (R213). -/
def State.storedClass (s : State) (g : Nat) (v : Word) : Nat := if bits v 11 10 = 3 then s.granClass g else bits v 11 10

/-- A granule's entry as a write that is not rejected leaves it. -/
def State.entryWritten (s : State) (g : Nat) (v : Word) : State :=
  (((if bits v 11 10 = 3 then s.mapReject else s).setFld (R.smemcGranule g) 8 0 (bits v 8 0)).setBit (R.smemcGranule g) 9
    (bits v 9 9 == 1)).setFld (R.smemcGranule g) 11 10 (s.storedClass g v)

theorem granuleWrite_cases (s : State) (g : Nat) (v : Word) :
    s.granuleWrite g v = (if bits v 11 10 = 3 then s.mapReject else s).mapReject ∨
      s.granuleWrite g v = s.entryWritten g v ∨
      s.granuleWrite g v = ((s.entryWritten g v).setBit (R.smemcGranule g) 12 true).zeroGranule g := by
  unfold State.granuleWrite State.entryWritten State.storedClass
  simp only [beq_iff_eq]
  generalize (if bits v 11 10 = 3 then s.mapReject else s) = x
  generalize (if bits v 11 10 = 3 then s.granClass g else bits v 11 10) = cls
  split
  · exact .inl rfl
  · split
    · exact .inr (.inr rfl)
    · exact .inr (.inl rfl)

variable (s g v)

theorem regs_zeroGranule : (s.zeroGranule g).regs = s.regs := rfl

theorem rd_zeroGranule (k : Nat) : (s.zeroGranule g).rd k = s.rd k := rfl

theorem rd_mapReject_ne (hregs : regsWf s.regs = true) {k : Nat} (hk : k ≠ R.smemcStatus) : s.mapReject.rd k = s.rd k :=
  rd_setBit_ne hregs hk _

theorem regsWf_mapReject (hregs : regsWf s.regs = true) : regsWf s.mapReject.regs = true := regsWf_setBit hregs _ _

/-- What a granule write does to the registers, in whichever of its ends. -/
structure GranuleWritten (s : State) (g : Nat) (v : Word) (t : State) : Prop where
  class_eq : t.granClass g = s.granClass g ∨ t.granClass g = s.storedClass g v
  reject : bits v 11 10 = 3 → t.bit R.smemcStatus 0 = true
  others : ∀ k, k ≠ R.smemcGranule g → k ≠ R.smemcStatus → t.rd k = s.rd k

namespace GranuleWritten

variable {s g v} {t : State}

theorem start (hregs : regsWf s.regs = true) : GranuleWritten s g v (if bits v 11 10 = 3 then s.mapReject else s) where
  class_eq := by
    refine .inl ?_
    unfold State.granClass State.fld
    split
    · rw [rd_mapReject_ne s hregs (smemcGranule_ne_smemcStatus g)]
    · rfl
  reject hthree := by
    rw [if_pos hthree]
    exact bit_setBit hregs (by decide) true
  others k _ hk := by
    split
    · exact rd_mapReject_ne s hregs hk
    · rfl

theorem mapReject (hregs : regsWf t.regs = true) (h : GranuleWritten s g v t) : GranuleWritten s g v t.mapReject where
  class_eq := by
    have hrd := rd_mapReject_ne t hregs (smemcGranule_ne_smemcStatus g)
    unfold State.granClass State.fld at *
    rw [hrd]
    exact h.class_eq
  reject _ := bit_setBit hregs (by decide) true
  others k hg hk := (rd_mapReject_ne t hregs hk).trans (h.others k hg hk)

theorem fill (hregs : regsWf t.regs = true) (h : GranuleWritten s g v t) :
    GranuleWritten s g v ((t.setBit (R.smemcGranule g) 12 true).zeroGranule g) where
  class_eq := by
    have hclass : (t.setBit (R.smemcGranule g) 12 true).granClass g = t.granClass g :=
      fld_setFld_other hregs (by decide) (by decide) (by decide) (.inr (by decide))
    have hrd := rd_zeroGranule (t.setBit (R.smemcGranule g) 12 true) g (R.smemcGranule g)
    unfold State.granClass State.fld at *
    rw [hrd, hclass]
    exact h.class_eq
  reject hthree := by
    rw [← h.reject hthree]
    unfold State.bit State.fld
    rw [rd_zeroGranule, rd_setBit_ne hregs (smemcGranule_ne_smemcStatus g).symm]
  others k hg hk := by rw [rd_zeroGranule, rd_setBit_ne hregs hg, h.others k hg hk]

end GranuleWritten

variable {s g v} in
theorem storedClass_lt : s.storedClass g v < 4 := by
  unfold State.storedClass
  split <;> exact Nat.mod_lt _ (by decide)

theorem granuleWritten (hregs : regsWf s.regs = true) : GranuleWritten s g v (s.granuleWrite g v) := by
  have hstart : GranuleWritten s g v (if bits v 11 10 = 3 then s.mapReject else s) := .start hregs
  have hwf : regsWf (if bits v 11 10 = 3 then s.mapReject else s).regs = true := by
    split
    · exact regsWf_mapReject s hregs
    · exact hregs
  have hentry : GranuleWritten s g v (s.entryWritten g v) ∧ regsWf (s.entryWritten g v).regs = true := by
    unfold State.entryWritten
    generalize (if bits v 11 10 = 3 then s.mapReject else s) = x at hstart hwf
    have h₁ := regsWf_setFld hwf (k := R.smemcGranule g) 8 0 (bits v 8 0)
    have h₂ := regsWf_setBit h₁ (k := R.smemcGranule g) 9 (bits v 9 9 == 1)
    have hother {k : Nat} (hk : k ≠ R.smemcGranule g) : (((x.setFld (R.smemcGranule g) 8 0 (bits v 8 0)).setBit
        (R.smemcGranule g) 9 (bits v 9 9 == 1)).setFld (R.smemcGranule g) 11 10 (s.storedClass g v)).rd k = x.rd k := by
      rw [rd_setFld_ne h₂ hk, rd_setBit_ne h₁ hk, rd_setFld_ne hwf hk]
    refine ⟨⟨.inr ?_, fun hthree => ?_, fun k hg hk => (hother hg).trans (hstart.others k hg hk)⟩, regsWf_setFld h₂ _ _ _⟩
    · exact (fld_setFld h₂ (by decide) (by decide)).trans (Nat.mod_eq_of_lt storedClass_lt)
    · rw [← hstart.reject hthree]
      unfold State.bit State.fld
      rw [hother (smemcGranule_ne_smemcStatus g).symm]
  obtain ⟨hentry, hwf₁⟩ := hentry
  rcases granuleWrite_cases s g v with hend | hend | hend <;> rw [hend]
  · exact hstart.mapReject hwf
  · exact hentry
  · exact hentry.fill hwf₁

end

/-- Settles O34: every end of a granule write leaves the class or stores `storedClass`. -/
theorem classThreeIsNeverStored : Obligations.ClassThreeIsNeverStored := by
  rintro s granule value ⟨-, -, hregs⟩
  obtain ⟨hclass, hreject, hothers⟩ := granuleWritten s granule value hregs
  refine ⟨_, rfl, fun hthree => ⟨?kept, hreject hthree⟩, fun hold => ?never, fun g hne => ?others⟩
  case kept =>
    rw [State.storedClass, if_pos hthree, or_self] at hclass
    exact hclass
  case never =>
    rcases hclass with hclass | hclass <;> rw [hclass]
    · exact hold
    · unfold State.storedClass
      split <;> assumption
  case others => exact hothers _ (smemcGranule_ne (Fin.val_ne_of_ne hne)) (smemcGranule_ne_smemcStatus _)

end Sys2Proof.Machine

namespace Sys2Proof.Machine

/-! ### Steps, reset and small facts (O8–O11, O19, O29, O31) -/

/-- Settles O8: `step` is `exec` of the front command. -/
theorem stepPerformsTheFrontCommand : Obligations.StepPerformsTheFrontCommand := fun _ _ _ => rfl

/-- Settles O9. -/
theorem emptyQueueIdles : Obligations.EmptyQueueIdles := by
  intro s hempty
  rw [step, hempty]

/-- Settles O10: the reset state lists two registers, neither at its reset value, and nothing else. -/
theorem resetHoldsTheInvariant : Obligations.ResetHoldsTheInvariant :=
  ⟨⟨rfl, rfl, by decide⟩, rfl, rfl, rfl, rfl, rfl, rfl⟩

/-- Settles O11, by evaluating the reset state at every register that the statement names. -/
theorem resetValuesOfTheRegisters : Obligations.ResetValuesOfTheRegisters := by
  refine ⟨rfl, by decide, by decide +kernel, by decide +kernel, by decide, by decide, by decide, rfl, rfl, rfl, rfl, rfl⟩

/-- Settles O19: tag 0 is not a known tag. -/
theorem idleCardIsNeverEnqueued : Obligations.IdleCardIsNeverEnqueued := by
  refine ⟨by decide +kernel, by decide +kernel, fun s a ctx q c htag => if_pos ?_⟩
  rw [htag]
  decide

/-- Settles O29. -/
theorem scalarRegisterZeroReadsZero : Obligations.ScalarRegisterZeroReadsZero := by
  refine fun x v => ⟨rfl, rfl, fun n m hn hwf => ?_⟩
  have hset : x.setSreg n v = { x with sregs := x.sregs.set 0 n v } := if_neg hn
  rw [hset]
  refine ⟨?same, fun hm => ?other, Tab.wf_set hwf⟩
  case same =>
    rw [Core.sreg, if_neg hn]
    exact Tab.get_set_self hwf
  case other => exact ite_congr rfl (fun _ => rfl) fun _ => Tab.get_set_ne hwf hm

/-- Settles O31, by evaluating the conversions on the worked values and on every pattern of the small formats. -/
theorem numberFormatExamples : Obligations.NumberFormatExamples := by
  refine ⟨by decide, by decide, by decide, by decide, by decide, by decide, by decide, by decide, by decide +kernel,
    by decide +kernel⟩

end Sys2Proof.Machine

namespace Sys2Proof.Machine

/-! ### Bundle issue and debug access (O1) -/

section

variable {s : State} {c u t : Nat}

/-- Before the watchdogs of its unit fire, a core that runs attempts its next bundle. -/
theorem bundleIssue_eq_attempt {dt : Nat} {us : List Upset} {b : Bundle} (hunit : (s.upset c us).unitOf c = some u)
    (hnext : (s.upset c us).bundleNext c = some b) (ht : t = (s.upset c us).attemptAt u c dt)
    (hruns : (s.upset c us).coreRuns c = true) (hbefore : (s.upset c us).beforeWatchdogs u t = true) :
    s.bundleIssue c dt us = (s.upset c us).attempt u c t b := by
  subst ht
  simp only [State.bundleIssue, hunit, hnext, hruns, hbefore, Bool.and_self, if_true]

/-- An attempt whose wait is not met, or whose queues have no room, holds the bundle. -/
theorem attempt_of_held {b : Bundle} {x : Core} {s₂ : State} (hs : s₂ = s.elapse u t)
    (hx : x = (s₂.core c).meets (t - (s₂.core c).cycles)) (hheld : s₂.syMet c b.sy = false ∨ x.fullMask b ≠ 0) :
    s.attempt u c t b = s₂.setCore c { x with phase := if s₂.syMet c b.sy then .heldFull else .syWait } := by
  subst hs hx
  unfold State.attempt
  cases hmet : (s.elapse u t).syMet c b.sy with
  | false => simp only [hmet, Bool.false_eq_true, not_false_eq_true, if_true, if_false]
  | true =>
    have hfull := hheld.resolve_left (by simp [hmet])
    simp only [hmet, not_true_eq_false, if_false, if_true, if_pos hfull]

/-- A debug access of a core whose context has debug access is performed. -/
theorem debugWrite_of_debugFor {x : Nat} (hctx : s.debugCtx c = some x) (hfor : s.debugFor x = true) (ag page : Nat)
    (f : State → State) : s.debugWrite ag c page f = f s := by
  simp only [State.debugWrite, hctx, hfor, if_true]

end

/-- Settles O1: the attempt issues or holds the bundle; the arbiter folds over the requests of a flag; a debug access is
performed under debug access. -/
theorem issueAndDebugCommandsComplete : Obligations.IssueAndDebugCommandsComplete := by
  refine ⟨?issued, ?held, ?alone, ?arbiter, ?limit, ?limitWrite, ?agSel, ?spadWord⟩
  case issued =>
    rintro s _ _ core dt u t us b _ rfl hunit hnext ht hruns hbefore rfl rfl hmet hroom hnarrow
    refine congrArg Host.Outcome.next ((bundleIssue_eq_attempt hunit hnext ht hruns hbefore).trans ?_)
    simp only [State.attempt, hmet, hroom, hnarrow, not_true_eq_false, ne_eq, if_false]
  case held =>
    rintro s _ _ core dt u t us b _ rfl hunit hnext ht hruns hbefore hs hx hheld
    exact congrArg Host.Outcome.next ((bundleIssue_eq_attempt hunit hnext ht hruns hbefore).trans (attempt_of_held hs hx hheld))
  case alone =>
    intro s core waiter f n hruns hrequest halone hfits
    refine congrArg Host.Outcome.next ?_
    cases hwaiter : waiterEng waiter <;>
      simp only [hruns, hrequest, halone, if_true, List.foldl_cons, List.foldl_nil, State.podJudge, if_pos hfits, hwaiter]
  case arbiter =>
    intro s core waiter f n hruns hrequest
    refine congrArg Host.Outcome.next ?_
    simp only [hruns, hrequest, if_true]
  case limit =>
    intro s core hruns hpast hphase
    exact congrArg Host.Outcome.next (if_pos ⟨hruns, hpast, hphase⟩)
  case limitWrite =>
    intro s core limit u x hunit hstate hctx hfor
    refine congrArg Host.Outcome.next ((debugWrite_of_debugFor hctx hfor _ _ _).trans ?_)
    simp only [hunit, hstate, if_true]
  case agSel =>
    intro s core desc x hctx hfor
    exact congrArg Host.Outcome.next (debugWrite_of_debugFor hctx hfor _ _ _)
  case spadWord =>
    rintro s core waddr u x _ rfl hunit hstate hctx hfor hhealth
    refine congrArg Host.Outcome.next ((debugWrite_of_debugFor hctx hfor _ _ _).trans ?_)
    refine (if_pos (by simp [hunit, hstate])).trans ?_
    simp only [hhealth]
    rfl

end Sys2Proof.Machine

namespace Sys2Proof.Machine

/-! ### Matrix and vector operations (O2) -/

section

variable {s s₁ s₂ : State} {c n : Nat} {us : List Upset}

/-- An operation at the head of the matrix queue begins: the drains that wait complete first. -/
theorem mxOp_of_head {k : MxKind} {parity : Option (Nat × Nat)} {q : QOp} {o : MxOp} (hs : s₁ = s.upset c us)
    (hruns : s₁.coreRuns c = true) (hidle : (s₁.core c).mxRun = none) (hhead : s₁.headReady c .mx = some q)
    (hop : q.op = .mx o) (hkind : o.kind = k) (hs₂ : s₂ = s₁.flushDrains c fun _ => true) (hruns₂ : s₂.coreRuns c = true)
    (hchecks : firstFault ((mxRoles o (s₂.drainWidth c o)).map fun (d, r, n) => (d, r, (q.descs.get 0 d).checkNear n)) = none) :
    s.mxOp c k n parity us = if k = .accDrain then (s₂.takeHead c .mx).accDrain c q o parity
      else ((s₂.takeHead c .mx).mxStart c q o).go c o n parity := by
  subst hs hs₂ hkind
  simp only [State.mxOp, hruns, hidle, hhead, hop, State.mxBegin, hruns₂, hchecks, not_true_eq_false, ne_eq, if_false]

/-- An operation in progress goes on. -/
theorem mxOp_of_running {k : MxKind} {parity : Option (Nat × Nat)} {g : MxProg} {o : MxOp} (hs : s₁ = s.upset c us)
    (hruns : s₁.coreRuns c = true) (hrun : (s₁.core c).mxRun = some g) (hop : g.q.op = .mx o) (hkind : o.kind = k) :
    s.mxOp c k n parity us = MxRun.go { s := s₁, g } c o n parity := by
  subst hs hkind
  simp only [State.mxOp, hruns, hrun, hop, not_true_eq_false, if_true, if_false]

theorem vectorOp_of_head {vred : Bool} {q : QOp} {o : VeOp} (hs : s₁ = s.upset c us) (hruns : s₁.coreRuns c = true)
    (hidle : (s₁.core c).veRun = none) (hhead : s₁.headReady c .ve = some q) (hop : q.op = .ve o) (hkind : o.vred = vred)
    (hchecks : firstFault ((veRoles o).map fun (d, r, n) => (d, r, (q.descs.get 0 d).checkNear n)) = none) :
    s.vectorOp c vred n us = (s₁.takeHead c .ve).veGo c { q } o n := by
  subst hs hkind
  simp only [State.vectorOp, hruns, hidle, hhead, hop, hchecks, not_true_eq_false, ne_eq, if_false]

theorem vectorOp_of_running {vred : Bool} {g : VeProg} {o : VeOp} (hs : s₁ = s.upset c us) (hruns : s₁.coreRuns c = true)
    (hrun : (s₁.core c).veRun = some g) (hop : g.q.op = .ve o) (hkind : o.vred = vred) :
    s.vectorOp c vred n us = s₁.veGo c g o n := by
  subst hs hkind
  simp only [State.vectorOp, hruns, hrun, hop, not_true_eq_false, if_true, if_false]

end

/-- Settles O2: an operation begins at the head of its queue (`mxOp_of_head`, `vectorOp_of_head`) or goes on where it
stopped (`mxOp_of_running`, `vectorOp_of_running`). -/
theorem engineOperationsComplete : Obligations.EngineOperationsComplete := by
  refine ⟨?mmaOs, ?mmaOsOn, ?mmaWs, ?mmaWsOn, ?mmaWt, ?mmaWtOn, ?ewmul, ?ewmulOn, ?accDrain, ?tileDrain, ?vmap, ?vmapOn,
    ?vred, ?vredOn⟩
  case mmaOs | mmaWs | mmaWt =>
    intro s s₁ s₂ core passes parity us q o hs hruns hidle hhead hop hkind hs₂ hruns₂ hchecks
    exact congrArg Host.Outcome.next (mxOp_of_head hs hruns hidle hhead hop hkind hs₂ hruns₂ hchecks)
  case mmaOsOn | mmaWsOn | mmaWtOn =>
    intro s s₁ core passes parity us g o hs hruns hrun hop hkind
    exact congrArg Host.Outcome.next (mxOp_of_running hs hruns hrun hop hkind)
  case ewmul =>
    intro s s₁ s₂ core passes us q o hs hruns hidle hhead hop hkind hs₂ hruns₂ hchecks
    exact congrArg Host.Outcome.next (mxOp_of_head hs hruns hidle hhead hop hkind hs₂ hruns₂ hchecks)
  case ewmulOn =>
    intro s s₁ core passes us g o hs hruns hrun hop hkind
    exact congrArg Host.Outcome.next (mxOp_of_running hs hruns hrun hop hkind)
  case accDrain =>
    intro s s₁ s₂ core parity us q o hs hruns hidle hhead hop hkind hs₂ hruns₂ hchecks
    exact congrArg Host.Outcome.next (mxOp_of_head hs hruns hidle hhead hop hkind hs₂ hruns₂ hchecks)
  case tileDrain =>
    intro s core j rest hruns hdrains
    refine congrArg Host.Outcome.next ?_
    simp only [hruns, hdrains, if_true]
  case vmap | vred =>
    intro s s₁ core strips us q o hs hruns hidle hhead hop hkind hchecks
    exact congrArg Host.Outcome.next (vectorOp_of_head hs hruns hidle hhead hop hkind hchecks)
  case vmapOn | vredOn =>
    intro s s₁ core strips us g o hs hruns hrun hop hkind
    exact congrArg Host.Outcome.next (vectorOp_of_running hs hruns hrun hop hkind)

end Sys2Proof.Machine

namespace Sys2Proof.Machine

/-! ### Loading and management (O3) -/

section

variable {s : State} {t : Fin 2}

/-- The firmware performs a message whose transport may ask. -/
theorem mgmt_of_carried (hfirm : s.firmware = true) (hmay : t = 0 ∨ (s.hostUp = true ∧ s.bit R.trustAccess 0 = true))
    (f : State → State) : s.mgmt t f = f s := by
  have hask : ¬ (t.val = 1 ∧ ¬ s.bit R.trustAccess 0) := by
    rcases hmay with rfl | ⟨-, hbit⟩
    · simp
    · simp [hbit]
  exact (if_neg (not_uncarried hfirm (hmay.imp_right And.left))).trans (if_neg hask)

/-- A message is received: the firmware or the recovery handler runs, and its transport carries it. -/
theorem not_unreceived (hfirm : s.firmware = true) (hlink : t = 0 ∨ s.hostUp = true) :
    ¬ (¬ (s.firmware ∨ s.trust.recovery) ∨ (t.val = 1 ∧ ¬ s.hostUp)) := by
  rcases hlink with rfl | hup
  · simp [hfirm]
  · simp [hfirm, hup]

end

/-- Settles O3: the firmware performs each message that its transport may ask for (`mgmt_of_carried`). -/
theorem loadingAndManagementCommandsComplete : Obligations.LoadingAndManagementCommandsComplete := by
  refine ⟨?loadData, ?loadStaged, ?loadHost, ?unload, ?enqueue, ?dequeue, ?buffer, ?eid, ?spdmCode, ?vendorCode, ?dropped,
    ?address, ?updateB, ?updateA⟩
  case loadData =>
    intro s t offset data hfirm hmay hlength hend
    exact congrArg Host.Outcome.next ((mgmt_of_carried hfirm hmay _).trans (if_neg (by omega)))
  case loadStaged =>
    rintro s t kind ctx seqr level n _ hfirm hmay hnone hkind hctx hseqr rfl
    refine congrArg Host.Outcome.next ((mgmt_of_carried hfirm hmay _).trans ?_)
    exact (if_neg (Bool.eq_false_iff.mp hnone)).trans (if_neg (by omega))
  case loadHost =>
    intro s t kind ctx seqr level a n hfirm hmay hnone hkind hctx hseqr
    refine congrArg Host.Outcome.next ((mgmt_of_carried hfirm hmay _).trans ?_)
    exact (if_neg (Bool.eq_false_iff.mp hnone)).trans (if_neg (by omega))
  case unload =>
    intro s t handle hfirm hmay hlow hresident
    exact congrArg Host.Outcome.next ((mgmt_of_carried hfirm hmay _).trans (if_pos ⟨hlow, hresident⟩))
  case enqueue =>
    intro s t queue card s₁ hfirm hmay hoffer
    refine congrArg Host.Outcome.next ((mgmt_of_carried hfirm hmay _).trans ?_)
    simp only [hoffer]
  case dequeue =>
    intro s t queue c s₁ hfirm hmay hdequeue
    refine congrArg Host.Outcome.next ((mgmt_of_carried hfirm hmay _).trans ?_)
    have hhead : s.headUpset queue 0 = s := rfl
    simp only [hhead, hdequeue, State.deqAnswer]
  case buffer =>
    intro s t offset len bs lost s₁ hfirm hmay hlength hend hread
    refine congrArg Host.Outcome.next ((mgmt_of_carried hfirm hmay _).trans ((if_neg (by omega)).trans ?_))
    simp only [hread]
  case eid =>
    intro s t code e hfirm hlink
    exact congrArg Host.Outcome.next (if_neg (not_unreceived hfirm hlink))
  case spdmCode =>
    intro s t code eid hfirm hlink hcode
    have hcarried : ¬(¬true = true ∨ ¬[0, 1, 5, 6, 127].contains (5 : Fin 128).val = true) := by decide
    have hspdm : (5 : Fin 128).val ≠ 0 := by decide
    refine congrArg Host.Outcome.next ((if_neg (not_unreceived hfirm hlink)).trans ((if_neg hcarried).trans ?_))
    exact (if_neg hspdm).trans ((if_pos rfl).trans (if_pos ⟨hfirm, Bool.eq_false_iff.mp hcode⟩))
  case vendorCode =>
    intro s t code eid hfirm hmay hcode
    have hnamed : ¬ (1 ≤ code.toNat ∧ code.toNat ≤ 8) := by
      rcases hcode with rfl | hcode
      · decide
      · omega
    have hcarried : ¬(¬true = true ∨ ¬[0, 1, 5, 6, 127].contains (127 : Fin 128).val = true) := by decide
    have hvendor : (127 : Fin 128).val ≠ 0 ∧ (127 : Fin 128).val ≠ 5 := by decide
    refine congrArg Host.Outcome.next ((if_neg (not_unreceived hfirm (hmay.imp_right And.left))).trans ?_)
    refine (if_neg hcarried).trans ((if_neg hvendor.1).trans ((if_neg hvendor.2).trans ((if_pos rfl).trans ?_)))
    exact (if_neg hnamed).trans (mgmt_of_carried hfirm hmay _)
  case dropped =>
    intro s t type code intact eid hfirm hlink hbad
    refine congrArg Host.Outcome.next ((if_neg (not_unreceived hfirm hlink)).trans (if_pos ?_))
    simpa using hbad
  case address =>
    intro s addr hserved
    exact congrArg Host.Outcome.next (if_pos hserved)
  case updateB =>
    intro s t image hfirm hlink hrunning
    exact congrArg Host.Outcome.next ((if_neg (not_unreceived hfirm hlink)).trans (if_pos hrunning))
  case updateA =>
    rintro s t image _ hfirm hlink hrunning rfl hrecovery
    refine congrArg Host.Outcome.next ((if_neg (not_unreceived hfirm hlink)).trans ((if_neg hrunning).trans ?_))
    exact if_neg (Bool.eq_false_iff.mp hrecovery)

end Sys2Proof.Machine

namespace Sys2Proof.Machine

/-! ### Key, debug and boot messages (O5) -/

section

variable {s : State} {t : Fin 2}

/-- In a qualified session the responder performs a message that changes the chip's identity or keys. -/
theorem qualifying_of_session (hfirm : s.firmware = true) (hlink : t = 0 ∨ s.hostUp = true)
    (hphase : 3 ≤ s.trust.spdm.phase) (hsession : s.trust.spdm.session = true) (hqualified : s.trust.spdm.qualified = true)
    (f : State → State) : s.qualifying t f = f s :=
  (spdm_of_phase hfirm hlink hphase _).trans (if_pos (by simp [hsession, hqualified]))

theorem keyMessage_of_session (hfirm : s.firmware = true) (hlink : t = 0 ∨ s.hostUp = true)
    (hphase : 3 ≤ s.trust.spdm.phase) (hsession : s.trust.spdm.session = true) (hqualified : s.trust.spdm.qualified = true)
    (f : State → State) : s.keyMessage t f = f s :=
  (spdm_of_phase hfirm hlink hphase _).trans (if_pos (by simp [hsession, hqualified]))

end

/-- Settles O5: a key message is performed in a qualified session (`qualifying_of_session`, `keyMessage_of_session`); SECURE_BOOT tries the two
slots in turn. -/
theorem keyDebugAndBootCommandsComplete : Obligations.KeyDebugAndBootCommandsComplete := by
  refine ⟨?commitSvn, ?setKey, ?clearKey, ?setEnc, ?armTx, ?dbgNonce, ?debugToken, ?dbgLock, ?secureBoot, ?bypass, ?idcode,
    ?sample, ?extest, ?extestRefused⟩
  case commitSvn =>
    intro s t hfirm hlink hphase hsession hqualified
    exact congrArg Host.Outcome.next (qualifying_of_session hfirm hlink hphase hsession hqualified _)
  case setKey =>
    rintro s t slice slot gen key s₁ _ salt hfirm hlink hphase hsession hqualified hslot hdraw rfl
    refine congrArg Host.Outcome.next ((keyMessage_of_session hfirm hlink hphase hsession hqualified _).trans ?_)
    simp only [if_neg (Nat.not_lt.mpr hslot), hdraw]
  case clearKey =>
    rintro s t slice slot _ hfirm hlink hphase hsession hqualified hslot hsending rfl
    refine congrArg Host.Outcome.next ((keyMessage_of_session hfirm hlink hphase hsession hqualified _).trans ?_)
    exact if_neg (not_or.mpr ⟨Nat.not_lt.mpr hslot, hsending⟩)
  case setEnc =>
    intro s t slice enc hfirm hlink hphase hsession hqualified hpermit
    refine congrArg Host.Outcome.next ((keyMessage_of_session hfirm hlink hphase hsession hqualified _).trans ?_)
    exact if_neg (by simp [hpermit])
  case armTx =>
    rintro s t slice slot epoch _ hfirm hlink hphase hsession hqualified hslot hvalid hlater rfl
    refine congrArg Host.Outcome.next ((keyMessage_of_session hfirm hlink hphase hsession hqualified _).trans ?_)
    exact if_neg (not_or.mpr ⟨Nat.not_lt.mpr hslot, not_or.mpr ⟨Classical.not_not.mpr hvalid, Nat.not_le.mpr hlater⟩⟩)
  case dbgNonce =>
    intro s s₁ bs hdraw
    refine congrArg Host.Outcome.next ?_
    simp only [State.drawNonce, hdraw]
  case debugToken =>
    intro s t token hfirm hlink hphase hlength
    exact congrArg Host.Outcome.next ((spdm_of_phase hfirm hlink hphase _).trans (if_pos hlength))
  case dbgLock =>
    rintro s _ rfl
    rfl
  case secureBoot =>
    rintro s _ _ _ _ hheld hphase hfirm hrecovery rfl rfl rfl rfl
    refine congrArg Host.Outcome.next ((if_neg (by simp [hheld, hphase, hfirm, hrecovery])).trans ?_)
    refine (if_neg (Classical.not_not.mpr rfl)).trans ?_
    generalize (if s.bit R.pwrDomainState 46 then s else s.domainUp 46) = s₁
    dsimp only
    generalize s₁.trust.lastGood.getD 0 = a
    obtain ⟨x, _ | _⟩ := s₁.trySlot a
    · dsimp only
      obtain ⟨y, _ | _⟩ := x.trySlot (1 - a) <;> rfl
    · rfl
  case bypass | idcode => exact fun _ => rfl
  case sample => exact fun _ _ _ => rfl
  case extest => exact fun s hscan => congrArg Host.Outcome.next (if_pos hscan)
  case extestRefused => exact fun s hscan => congrArg Host.Outcome.next (if_neg (Bool.eq_false_iff.mp hscan))

end Sys2Proof.Machine

namespace Sys2Proof.Machine

/-! ### Host link, rings and cache messages (O6) -/

/-- Settles O6, command by command: under its conditions each guard of a meaning is decided. -/
theorem hostLinkAndRingCommandsComplete : Obligations.HostLinkAndRingCommandsComplete := by
  refine ⟨?linkUp, ?ringEnable, ?doorbell, ?indexRead, ?indexWrite, ?cardRetry, ?readRetry, ?d2hCard, ?ringInterrupt,
    ?completion, ?failed, ?late, ?timeout, ?cacheResponse, ?snpdata, ?snpcur, ?snpinvRing, ?snpinv, ?writepull, ?drop,
    ?errWritepull, ?unmask, ?linkDown⟩
  case linkUp =>
    intro s cxl width speed hheld hdown hdomain htrains
    exact congrArg Host.Outcome.next (if_neg (by simp [hheld, hdown, hdomain, htrains]))
  case ringEnable =>
    rintro s ring value _ _ _ hoff rfl hset rfl hok rfl
    refine congrArg Host.Outcome.next ((if_neg (Bool.eq_false_iff.mp hoff)).trans ?_)
    exact (if_neg (by omega)).trans (if_neg (Classical.not_not.mpr hok))
  case doorbell =>
    intro s ring hcxl hring
    exact congrArg Host.Outcome.next ((if_neg (Bool.eq_false_iff.mp hcxl)).trans (if_pos hring))
  case indexRead =>
    rintro s ring _ s₂ hring hup hbusy hrung hhot rfl hcxl hread
    refine congrArg Host.Outcome.next ((if_neg (by simp [hring, hup, hbusy, hrung, hhot])).trans ?_)
    refine (if_neg (Bool.eq_false_iff.mp hcxl)).trans ?_
    simp only [hread]
  case indexWrite =>
    intro s ring hring hup hdirty
    exact congrArg Host.Outcome.next (if_pos ⟨hring, hup, hdirty⟩)
  case cardRetry =>
    intro s ring hring hdir hheld hhot
    exact congrArg Host.Outcome.next (if_pos ⟨hring, by simp [hdir], hheld, by simp [hhot]⟩)
  case readRetry =>
    rintro s ring _ hring hup hretry rfl hwaiting hdir
    refine congrArg Host.Outcome.next ((if_neg (by simp [hring, hup, hretry])).trans ?_)
    exact if_neg (by simp [hwaiting, hdir])
  case d2hCard =>
    intro s ring s₁ c hring hdir hup hbusy hhot hroom hfull hdequeue
    refine congrArg Host.Outcome.next ((if_neg ?_).trans ?_)
    · simp only [hring, hdir, hup, hbusy, hhot, hfull, Nat.not_le.mpr hroom, not_true_eq_false, Bool.false_eq_true, or_self,
        not_false_eq_true]
    · have hhead : s.headUpset (s.ringQueue ring) 0 = s := rfl
      simp only [hhead, hdequeue]
  case ringInterrupt =>
    intro s ring hring hunsignalled htime henabled
    exact congrArg Host.Outcome.next (if_neg (by simp [hring, hunsignalled, htime, henabled]))
  case completion =>
    intro s tag g data htag hlive hlength
    refine congrArg Host.Outcome.next ?_
    simp [htag, hlive, hlength]
  case failed =>
    intro s tag status ep data g htag hlive hbad
    refine congrArg Host.Outcome.next ?_
    simp only [htag, hlive, Bool.false_eq_true, if_false]
    by_cases hstatus : status = 0
    · simp [hstatus, hbad.resolve_left (Classical.not_not.mpr hstatus)]
    · have hcode : status.val ≠ 0 := fun h => hstatus (Fin.ext h)
      simp only [if_pos hcode, if_neg hstatus]
  case late =>
    intro s tag status ep data g htag hlate
    refine congrArg Host.Outcome.next ?_
    simp only [htag, hlate, if_true]
  case timeout =>
    intro s tag g htag hlive
    refine congrArg Host.Outcome.next ?_
    simp only [State.tagTimeout, htag, hlive, Bool.false_eq_true, if_false]
  case cacheResponse =>
    rintro s line low high q _ hfind rfl hring hkind
    refine congrArg Host.Outcome.next ?_
    simp only [hfind]
    exact (if_neg (Classical.not_not.mpr hring)).trans (if_pos hkind)
  case snpdata | snpcur => exact fun _ _ => rfl
  case snpinvRing =>
    intro s line r hcxl hring
    refine congrArg Host.Outcome.next ?_
    simp only [hcxl, hring, not_true_eq_false, if_false]
  case snpinv =>
    intro s line hcxl hring
    refine congrArg Host.Outcome.next ?_
    simp only [hcxl, hring, not_true_eq_false, if_false]
  case writepull | drop =>
    rintro s line e _ hevicting rfl
    refine congrArg Host.Outcome.next ?_
    simp only [State.goEvict, hevicting, Bool.false_eq_true, if_true, if_false]
  case errWritepull =>
    rintro s line e _ _ hevicting rfl rfl
    refine congrArg Host.Outcome.next ?_
    simp only [State.goEvict, hevicting, if_true]
  case unmask => exact fun s vector entry hup => congrArg Host.Outcome.next (if_pos hup)
  case linkDown => exact fun _ _ => rfl

end Sys2Proof.Machine

namespace Sys2Proof.Machine

/-! ### Resets, start-up phases and quiesce (O7) -/

section

variable {s : State} {kind cause : Nat}

/-- A reset that meets no other acts as it is. -/
theorem resetKind_of_idle (h : s.starting = false) : s.resetKind kind cause = (kind, cause) := by
  simp [State.resetKind, h]

/-- A cold reset is not less extensive than a cold or warm reset in progress. -/
theorem resetKind_cold_of_cold (h : 2 ≤ s.fld R.mgtResetCause 2 0) : s.resetKind 1 cause = (1, cause) := by
  unfold State.resetKind
  refine if_neg ?_
  rw [if_neg (by omega)]
  split <;> simp

/-- A cold reset that meets a power-on reset is that one. -/
theorem resetKind_cold_of_powerOn (hstarting : s.starting = true) (h : s.fld R.mgtResetCause 2 0 ≤ 1) :
    s.resetKind 1 cause = (0, s.fld R.mgtResetCause 2 0) := by
  unfold State.resetKind
  simp only [hstarting, if_pos h, Nat.lt_one_iff, decide_true, Bool.and_self, if_true]

end

/-- Settles O7, command by command: under its conditions each guard of a meaning is decided. -/
theorem resetAndStartupCommandsComplete : Obligations.ResetAndStartupCommandsComplete := by
  refine ⟨?powerOn, ?coldIdle, ?coldInCold, ?coldInPowerOn, ?warm, ?warmHot, ?host, ?release, ?releaseHot, ?holdEnd,
    ?rootLock, ?rom, ?firmware, ?uncore, ?memoryWarm, ?memory, ?cores, ?links, ?quiesce, ?quiesceEnd, ?disagree, ?inputFault,
    ?ready, ?faultClear⟩
  case powerOn => exact fun _ => rfl
  case coldIdle =>
    intro s source hidle
    refine congrArg Host.Outcome.next ?_
    simp only [State.coldReset, resetKind_of_idle hidle]
  case coldInCold =>
    intro s source _ hcause
    refine congrArg Host.Outcome.next ?_
    simp only [State.coldReset, resetKind_cold_of_cold hcause]
  case coldInPowerOn =>
    intro s source hstarting hcause
    refine congrArg Host.Outcome.next ?_
    simp only [State.coldReset, resetKind_cold_of_powerOn hstarting hcause]
  case warm =>
    rintro s preset addr verified _ rfl hidle hcool
    refine congrArg Host.Outcome.next ?_
    unfold State.warmReset
    generalize (if s.fld R.mgtRecState 1 0 = 3 then s else s.ledgerWrite verified) = s₁ at hidle hcool
    have hfree : s₁.start.held = false := (Bool.or_eq_false_iff.mp (Bool.or_eq_false_iff.mp hidle).1).1
    simp only [hcool, hfree, resetKind_of_idle hidle, Bool.false_eq_true, if_false]
  case warmHot =>
    rintro s preset addr verified _ rfl hhot
    refine congrArg Host.Outcome.next ?_
    unfold State.warmReset
    generalize (if s.fld R.mgtRecState 1 0 = 3 then s else s.ledgerWrite verified) = s₁ at hhot
    simp only [hhot, if_true]
  case host =>
    rintro s _ rfl
    rfl
  case release =>
    rintro s preset addr readings _ hheld hphase hcool rfl
    refine congrArg Host.Outcome.next ((if_neg (by simp [hheld, hphase])).trans ?_)
    exact if_neg (Bool.eq_false_iff.mp hcool)
  case releaseHot =>
    rintro s preset addr readings _ hheld hphase hhot rfl
    refine congrArg Host.Outcome.next ((if_neg (by simp [hheld, hphase])).trans ?_)
    exact if_pos hhot
  case holdEnd =>
    rintro s _ hphase rfl
    exact congrArg Host.Outcome.next (if_neg (Classical.not_not.mpr hphase))
  case rootLock =>
    intro s hheld
    exact congrArg Host.Outcome.next (if_neg (Bool.eq_false_iff.mp hheld))
  case rom =>
    intro s us hheld hphase hfirm
    exact congrArg Host.Outcome.next (if_neg (by simp [hheld, hphase, hfirm]))
  case firmware =>
    rintro s us board _ _ _ _ _ hphase hlocked hsum rfl rfl rfl rfl rfl
    refine congrArg Host.Outcome.next ((if_neg (by simp [hphase, hlocked])).trans ?_)
    exact if_neg (Classical.not_not.mpr hsum)
  case uncore =>
    intro s us hphase
    exact congrArg Host.Outcome.next ((if_neg (Classical.not_not.mpr hphase)).trans (if_pos rfl))
  case memoryWarm =>
    rintro s us qm0 qm1 failing _ hphase hwarm rfl
    refine congrArg Host.Outcome.next ((if_neg (Classical.not_not.mpr hphase)).trans ?_)
    exact if_pos (beq_iff_eq.mpr hwarm)
  case memory =>
    intro s us s₁ hphase hcold hs₁ hgoes
    refine congrArg Host.Outcome.next ((if_neg (Classical.not_not.mpr hphase)).trans ?_)
    simp only [beq_eq_false_iff_ne.mpr hcold, Bool.false_eq_true, if_false, List.map_nil, List.filter_nil, List.foldl_nil,
      if_true, ← hs₁, if_neg hgoes]
  case cores =>
    intro s us slots cols maps s₁ s₂ s₃ s₄ hphase hwarm hmaps hs₁ hs₂ hs₃ hs₄
    refine congrArg Host.Outcome.next ((if_neg (Classical.not_not.mpr hphase)).trans ?_)
    simp only [hwarm, beq_self_eq_true, if_true, ← hmaps, ← hs₁, ← hs₂, ← hs₃, ← hs₄]
  case links =>
    rintro s us _ _ _ _ hphase hquiet rfl rfl rfl rfl
    exact congrArg Host.Outcome.next (if_neg (by simp only [hphase, hquiet, ne_eq, not_true_eq_false, Bool.false_eq_true, or_self, not_false_eq_true]))
  case quiesce =>
    rintro s _ _ rfl rfl hnoFault hbusy
    refine congrArg Host.Outcome.next ((if_neg (Classical.not_not.mpr rfl)).trans ((if_pos rfl).trans ?_))
    exact if_neg (by simp only [hnoFault, hbusy, Bool.false_eq_true, or_self, not_false_eq_true])
  case quiesceEnd =>
    rintro s _ _ hagreed rfl rfl hquiesced hnoFault
    refine congrArg Host.Outcome.next ((if_neg (Classical.not_not.mpr rfl)).trans ((if_neg Bool.false_ne_true).trans ?_))
    simp only [hagreed, Bool.false_eq_true, if_false, hquiesced, hnoFault, not_false_eq_true, and_self, if_true]
  case disagree =>
    rintro s a b _ hdiffer hsame rfl
    refine congrArg Host.Outcome.next ((if_pos hdiffer).trans ?_)
    exact if_neg (by simp [hsame])
  case inputFault =>
    rintro s _ _ hdisagree rfl rfl
    exact congrArg Host.Outcome.next (if_neg (Classical.not_not.mpr hdisagree))
  case ready =>
    intro s verified hquiet hnotReady hgone
    exact congrArg Host.Outcome.next (if_pos ⟨hquiet, by simp [hnotReady], hgone⟩)
  case faultClear =>
    intro s hfault h0 h1
    exact congrArg Host.Outcome.next (if_pos (by simp [hfault, h0, h1]))

end Sys2Proof.Machine

namespace Sys2Proof.Machine

/-! ### Transfers (O35) -/

section

variable {s : State} {c eng near far base o size : Nat} {e : EngId} {q : QOp} {y : SyncF}

theorem xferBegin_of_passed (h : q.xferFault near far o size = none) :
    s.xferBegin c e eng q near far base o size y = s.startOp c e { q, reqs := q.xferReqs near far (base + o) y } := by
  simp only [State.xferBegin, h]

theorem xferBegin_of_failed {f : Nat × Nat × AddrFault} (h : q.xferFault near far o size = some f) :
    s.xferBegin c e eng q near far base o size y =
      s.coreFault c f.2.2.code (addrDetail eng q.iseq f.1 f.2.1 f.2.2.value) := by
  simp only [State.xferBegin, h, State.addrFault]

theorem exec_ld_of_head {core : Fin 128} {win off : Nat} (hhead : s.beginHead core .ld = some q)
    (hop : q.op = .ld (.ld win off near far y)) (hfree : (s.core core).ldFree = true) :
    exec (.ld core) s = .next ((s.takeHead core .ld).xferBegin core .ld 2 q near far
      ((s.takeHead core .ld).coreWindow core win).1 (q.regs.get 0 off).toNat ((s.takeHead core .ld).coreWindow core win).2 y) := by
  refine congrArg Host.Outcome.next ?_
  simp only [hhead, hop, hfree, not_true_eq_false, if_false]

theorem exec_st_of_head {core : Fin 128} {win off : Nat} (hhead : s.beginHead core .st = some q)
    (hop : q.op = .st (.st win off near far y)) :
    exec (.st core) s = .next ((s.takeHead core .st).xferBegin core .st 3 q near far
      ((s.takeHead core .st).coreWindow core win).1 (q.regs.get 0 off).toNat ((s.takeHead core .st).coreWindow core win).2 y) := by
  refine congrArg Host.Outcome.next ?_
  simp only [hhead, hop]

end

/-- Settles O35: the head transfer is taken and `xferBegin` starts its walks or ends the job. -/
theorem transfersBegin : Obligations.TransfersBegin := by
  refine ⟨?ld, ?ldFails, ?st, ?stFails, ?stLink⟩
  case ld =>
    rintro s _ core q win off near far base size y hhead hop hfree rfl hwin hcheck
    rw [exec_ld_of_head hhead hop hfree, hwin, xferBegin_of_passed hcheck]
  case ldFails =>
    rintro s _ core q win off near far base size y f hhead hop hfree rfl hwin hcheck
    rw [exec_ld_of_head hhead hop hfree, hwin, xferBegin_of_failed hcheck]
  case st =>
    rintro s _ core q win off near far base size y hhead hop rfl hwin hcheck
    rw [exec_st_of_head hhead hop, hwin, xferBegin_of_passed hcheck]
  case stFails =>
    rintro s _ core q win off near far base size y f hhead hop rfl hwin hcheck
    rw [exec_st_of_head hhead hop, hwin, xferBegin_of_failed hcheck]
  case stLink =>
    rintro s _ core q buf near far y hhead hop rfl hcheck
    refine congrArg Host.Outcome.next ?_
    simp only [hhead, hop, xferBegin_of_passed hcheck, Nat.add_zero]

end Sys2Proof.Machine

namespace Sys2Proof.Machine

/-! ### Signals, deliveries, counts and responses (O36) -/

section

variable {s : State} {core : Fin 128}

/-- The oldest delivery of an engine with no rival in the vector engine. -/
theorem exec_delivery_alone {eng : EngId} {dt : Nat} {withVe : Bool} {d : Deliv} {rest : List Deliv}
    (hruns : s.coreRuns core = true) (howed : ((s.core core).eng eng).delivs = d :: rest)
    (halone : withVe = false ∨ s.veRival core eng d.reg = none) :
    exec (.delivery core eng dt withVe) s = .next (
      let s' := (s.modEng core eng fun x => { x with delivs := rest }).modCore core fun x => x.delivered d.reg dt
      (if (s.core core).collides d.reg dt then s'.count (R.coreSregCollideCnt core) 1 else s').deliver core [d]) := by
  have hrival : (if withVe then s.veRival core eng d.reg else none) = none := by
    rcases halone with rfl | hnone
    · rfl
    · rw [hnone, ite_self]
  refine congrArg Host.Outcome.next ?_
  simp only [hruns, howed, hrival, if_true, Option.isSome_none, Bool.false_eq_true, if_false, Bool.false_or,
    Option.toList_none]

/-- A released ST.SIGNAL lands in its own core or leaves for another. -/
theorem exec_stSignal_of_head {q : QOp} {u t f n : Nat} {y : SyncF} (hhead : s.beginHead core .st = some q)
    (hunit : s.unitOf core = some u) (hop : q.op = .st (.stSignal t f n y))
    (hidle : (s.core core).st.cur = [] ∧ (s.core core).st.sigs = [] ∧ (s.core core).stSignals = []) :
    exec (.stSignal core) s = .next (
      let g : StSig := { target := unitFirst u + t, flag := f, n, own := ownSignal y }
      if g.target = core then (s.takeHead core .st).stSignalLand core g
      else (s.takeHead core .st).modCore core fun x => { x with stSignals := x.stSignals ++ [g] }) := by
  obtain ⟨hcur, hsigs, hsignals⟩ := hidle
  refine congrArg Host.Outcome.next ?_
  simp only [hhead, hunit, hop, hcur, hsigs, hsignals, List.isEmpty_nil, and_self, if_true]

/-- A response that may be picked completes its request. -/
theorem exec_response_of_picked {s₁ : State} {eng : EngId} {pick k : Nat} {us : List Upset} {r : MemReq} {o : CurOp}
    (hs : s₁ = if eng = .st then s.upset core us else s.memUpset us)
    (hflat : ((s₁.core core).eng eng).flat[pick]? = some (k, r))
    (hland : s₁.mayLand core ((s₁.core core).eng eng) pick = true)
    (hpick : ((s₁.core core).eng eng).pickable pick k r = true) (hcur : ((s₁.core core).eng eng).cur[k]? = some o) :
    exec (.stageMemoryResponse core eng pick us) s = .next (s₁.respond1 core eng pick k r o) := by
  refine congrArg Host.Outcome.next ?_
  simp only [← hs, hflat, hland, hpick, hcur, not_true_eq_false, or_self, if_false]

end

/-- Settles O36, command by command: under its conditions each guard of a meaning is decided. -/
theorem signalsDeliveriesAndCountsComplete : Obligations.SignalsDeliveriesAndCountsComplete := by
  refine ⟨?completionPoint, ?delivery, ?collision, ?veCollision, ?stSignal, ?stSignalOwn, ?signalDelivery, ?scnt, ?scntOn,
    ?scas, ?smcnt, ?smcas, ?ldResponse, ?stResponse, ?badStore, ?writeBack⟩
  case completionPoint =>
    intro s core eng g rest hruns howed
    refine congrArg Host.Outcome.next ?_
    simp only [hruns, howed, if_true]
  case delivery =>
    rintro s _ _ core eng dt withVe d rest hruns howed halone hfree rfl rfl
    rw [exec_delivery_alone hruns howed halone, hfree]
    rfl
  case collision =>
    rintro s _ _ core eng dt withVe d rest hruns howed halone hcollides rfl rfl
    rw [exec_delivery_alone hruns howed halone, hcollides]
    rfl
  case veCollision =>
    rintro s _ _ _ core dt d v rest vs hruns howed hve hreg rfl rfl rfl
    have hrival : s.veRival core .ld d.reg = some v := by simp only [State.veRival, hve, hreg, if_true]
    refine congrArg Host.Outcome.next ?_
    simp only [hruns, howed, hrival, if_true, Option.isSome_some, Bool.true_or, Option.toList_some]
  case stSignal =>
    rintro s _ core q u t f n y hhead hunit hop hidle rfl hother
    rw [exec_stSignal_of_head hhead hunit hop hidle]
    exact congrArg Host.Outcome.next (if_neg hother)
  case stSignalOwn =>
    rintro s _ core q u t f n y hhead hunit hop hidle rfl hown
    rw [exec_stSignal_of_head hhead hunit hop hidle]
    simp only [hown, if_true]
  case signalDelivery =>
    intro s core g rest hruns howed
    refine congrArg Host.Outcome.next ?_
    simp only [hruns, howed, if_true]
  case scnt =>
    rintro s _ _ core reqs us q ds fmt kind sv rl t y rfl hruns hidle hhead hop hchecks rfl
    refine congrArg Host.Outcome.next ?_
    simp only [hruns, hidle, hhead, hop, hchecks, List.isEmpty_nil, not_true_eq_false, if_true, if_false]
  case scntOn =>
    rintro s _ core reqs us rfl hruns hbusy
    refine congrArg Host.Outcome.next ?_
    simp only [hruns, List.isEmpty_iff, hbusy, not_true_eq_false, if_false]
  case scas =>
    intro s s₁ s₂ core us q a se sn d f w imm y hhead hop hidle hs₁ hw hrange hcheck
    refine congrArg Host.Outcome.next ?_
    simp only [hhead, hop, hidle, List.isEmpty_nil, not_true_eq_false, if_false, ← hs₁, ← hw, hrange.1, ne_eq,
      Nat.not_le.mpr hrange.2, hcheck, Bool.false_eq_true]
  case smcnt =>
    rintro s _ core q win off ds fmt kind sv rl base size t y hhead hop hidle rfl hwin hchecks
    refine congrArg Host.Outcome.next ?_
    simp only [hhead, hop, hidle, List.isEmpty_nil, not_true_eq_false, if_false, hwin, hchecks]
  case smcas =>
    intro s s₁ core q win off se sn d f base size o imm y hhead hop hidle hs₁ hwin ho hrange
    refine congrArg Host.Outcome.next ?_
    simp only [hhead, hop, hidle, List.isEmpty_nil, not_true_eq_false, if_false, ← hs₁, hwin, ← ho, hrange.1, ne_eq,
      Nat.not_lt.mpr hrange.2]
  case ldResponse =>
    rintro s _ core pick k us r o rfl hflat hland hpick hcur
    exact exec_response_of_picked rfl hflat hland hpick hcur
  case stResponse =>
    rintro s _ core pick k us r o rfl hflat hland hpick hcur hgood
    rw [exec_response_of_picked (if_pos rfl).symm hflat hland hpick hcur]
    simp only [State.respond1, if_true, hgood]
  case badStore =>
    rintro s _ core pick k b us r o rfl hflat hland hpick hcur hbad
    rw [exec_response_of_picked (if_pos rfl).symm hflat hland hpick hcur]
    simp only [State.respond1, if_true, hbad]
  case writeBack =>
    rintro s core addr _ rfl howed hhealth
    refine congrArg Host.Outcome.next ((if_pos howed).trans ?_)
    exact if_pos hhealth

end Sys2Proof.Machine

namespace Sys2Proof.Machine

/-! ### Parking, the watchdogs and the end of a job (O37) -/

section

variable {s : State} {unit : Fin 171} {core : Fin 128} {waiter : Fin 5} {t dt : Nat} {x : Nat × Nat × Nat × Nat}

/-- The wait watchdog fires on the waiter that reaches its limit first, no later than the job watchdog. -/
theorem exec_syncDeadlock_of_first (hunit : s.unitOf core = some unit.val)
    (hfirst : s.firstWaiter unit = some (t, core.val, waiter)) (ht : t = (s.job unit).clock + dt)
    (hwaits : s.waiting core waiter = some x) (hruns : s.coreRuns core = true)
    (hbefore : (s.wdFires unit).all (t ≤ ·) = true) :
    exec (.syncDeadlock unit core waiter dt) s = .next (s.deadlock unit t core waiter x) := by
  refine congrArg Host.Outcome.next ?_
  simp only [hfirst, hwaits]
  exact if_pos (by simp only [hruns, hunit, ← ht, hbefore, and_self])

end

/-- Settles O37, command by command: under its conditions each guard of a meaning is decided. -/
theorem parkingAndJobEndCommandsComplete : Obligations.ParkingAndJobEndCommandsComplete := by
  refine ⟨?jobEnd, ?parkRequest, ?parkPoint, ?parkTimeout, ?resume, ?settle, ?snapUnit, ?deadlock, ?deadlockTie,
    ?jobWatchdog⟩
  case jobEnd =>
    intro s unit eng hjob hended
    refine congrArg Host.Outcome.next (if_pos ⟨hjob, ?_⟩)
    rcases hended with hfault | hall | htorn
    · exact .inl hfault
    · exact .inr (.inr hall)
    · exact .inr (.inl htorn)
  case parkRequest => exact fun s unit reason hreason => congrArg Host.Outcome.next (if_neg hreason)
  case parkPoint =>
    intro s core eng inFlight u hunit hreqs hparks hpoint
    refine congrArg Host.Outcome.next ?_
    simp only [hunit, List.isEmpty_iff, hreqs, hparks, hpoint, not_true_eq_false, Bool.false_eq_true, or_self, if_false]
  case parkTimeout =>
    intro s core eng u hunit hreqs hfault hpoint
    refine congrArg Host.Outcome.next ?_
    simp only [hunit, List.isEmpty_iff, hreqs, hfault, hpoint, Option.isSome_none, Bool.false_eq_true, or_self, if_false]
    cases (s.core core).inProgress eng 0 <;> rfl
  case resume =>
    rintro s _ _ unit hstate hfault htorn hreqs rfl rfl
    exact congrArg Host.Outcome.next (if_pos ⟨hstate, by rw [hfault]; rfl, by simp [htorn], hreqs⟩)
  case settle =>
    intro s unit hstate hfault hreqs hsettled hlimit
    exact congrArg Host.Outcome.next (if_pos ⟨hstate, by rw [hfault]; rfl, by rw [hreqs]; rfl, hsettled, hlimit⟩)
  case snapUnit => exact fun _ _ _ => rfl
  case deadlock =>
    intro s unit core waiter t dt f n v at_ hunit hfirst ht hwaits hruns hbefore
    have hle : (s.wdFires unit).all (t ≤ ·) = true ∧ (s.wdFires unit == some t) = false := by
      cases hfires : s.wdFires unit with
      | none => exact ⟨rfl, rfl⟩
      | some w =>
        have hlt : t < w := by simpa [hfires] using hbefore
        exact ⟨by simpa using Nat.le_of_lt hlt, by simpa using Nat.ne_of_gt hlt⟩
    rw [exec_syncDeadlock_of_first hunit hfirst ht hwaits hruns hle.1]
    simp only [State.deadlock, hle.2, Bool.false_eq_true, if_false, List.append_nil]
  case deadlockTie =>
    intro s unit core waiter t dt f n v at_ hunit hfirst ht hwaits hruns htie
    rw [exec_syncDeadlock_of_first hunit hfirst ht hwaits hruns (by simp [htie])]
    simp only [State.deadlock, htie, beq_self_eq_true, if_true, List.cons_append, List.nil_append]
  case jobWatchdog =>
    intro s unit t dt hstate hfault hreqs hfires ht hbefore
    refine congrArg Host.Outcome.next ?_
    simp only [hfires]
    exact if_pos ⟨hstate, by rw [hfault]; rfl, by rw [hreqs]; rfl, ht, hbefore⟩

end Sys2Proof.Machine

namespace Sys2Proof.Machine

/-! ### Enqueue, dequeue and the queues' control (O38) -/

section

variable {s : State} {a : Agent} {ctx : Option Nat} {q : Nat} {c : Card}

/-- A card of a known tag that is no transfer card, from a requester that may enqueue, enters or meets a full queue. -/
theorem offer_of_allowed (htag : tagKnown c.tag = true) (hxfer : c.tag ≠ 0x10 ∧ c.tag ≠ 0x11) (hmay : s.mayEnq q a ctx = true) :
    s.offer a ctx q c = if s.qFull q then (s, .full) else (s.accept q c, .ok) := by
  unfold State.offer
  rw [if_neg (Classical.not_not.mpr htag), if_neg (not_or.mpr hxfer), if_neg (by rw [hmay, Bool.true_or]; exact Classical.not_not.mpr rfl)]

/-- A requester that may dequeue takes a readable head card of its own. -/
theorem dequeue_of_head {other : Card → Bool} (hmay : s.mayDeq q a ctx = true) (hhead : s.qHead q = some c)
    (hcorrected : s.cardBad (s.qSlot q (s.qRd q)) 1 = 0) (hlost : s.cardBad (s.qSlot q (s.qRd q)) 2 = 0)
    (hown : other c = false) : s.dequeue a ctx q other = (s.takeCard q, .card c) := by
  simp only [State.dequeue, hmay, hhead, hcorrected, hlost, hown, not_true_eq_false, ne_eq, Bool.false_eq_true, if_true,
    if_false]

theorem dequeue_of_empty {other : Card → Bool} (hmay : s.mayDeq q a ctx = true) (hhead : s.qHead q = none) :
    s.dequeue a ctx q other = (s.globalEvent 40 3 1, .empty) := by
  simp only [State.dequeue, hmay, hhead, not_true_eq_false, if_false]

theorem headUpset_zero (s : State) (q : Nat) : s.headUpset q 0 = s := if_pos (.inl rfl)

end

/-- Settles O38: the answers come from `offer_of_allowed` and from what a dequeue gives. -/
theorem queueCommandsComplete : Obligations.QueueCommandsComplete := by
  refine ⟨?enqueue, ?enqueueFull, ?dequeue, ?dequeueEmpty, ?enable, ?disable, ?flush, ?dispatch⟩
  case enqueue =>
    intro s agent queue card htag hxfer hmay hroom
    refine congrArg Host.Outcome.next ?_
    simp only [offer_of_allowed htag hxfer hmay, hroom, Bool.false_eq_true, if_false, EnqStatus.code]
  case enqueueFull =>
    intro s agent queue card htag hxfer hmay hfull
    refine congrArg Host.Outcome.next ?_
    simp only [offer_of_allowed htag hxfer hmay, hfull, if_true, EnqStatus.code]
  case dequeue =>
    rintro s agent queue card _ rfl hmay hhead hcorrected hlost hown
    refine congrArg Host.Outcome.next ?_
    simp only [headUpset_zero, dequeue_of_head hmay hhead hcorrected hlost hown]
  case dequeueEmpty =>
    intro s agent queue hmay hhead
    refine congrArg Host.Outcome.next ?_
    simp only [headUpset_zero, dequeue_of_empty hmay hhead]
  case enable =>
    intro s queue hoff hok
    exact congrArg (fun t : State => Host.Outcome.next (t.drainHeld queue 171)) (queueOn_of_ok hoff hok)
  case disable => exact fun s queue hon => congrArg Host.Outcome.next (if_pos hon)
  case flush =>
    rintro s _ rfl hon
    exact congrArg Host.Outcome.next (if_pos hon)
  case dispatch =>
    rintro s _ _ u c₀ c hgoes rfl hpick rfl htake
    refine congrArg Host.Outcome.next ((if_neg (Bool.eq_false_iff.mp hgoes)).trans ?_)
    simp only [hpick]
    generalize State.takeJob _ u = p at htake
    obtain ⟨x, y⟩ := p
    obtain rfl : y = some c := htake
    rfl

end Sys2Proof.Machine

namespace Sys2Proof.Machine

/-! ### Cards, shelf sets and batch assemblers (O39) -/

/-- Settles O39, command by command: under its conditions each guard of a meaning is decided. -/
theorem cardAndBatchCommandsComplete : Obligations.CardAndBatchCommandsComplete := by
  refine ⟨?fromPort, ?fromAgent, ?lead, ?readiness, ?retire, ?replayReq, ?replayNak, ?shelf, ?assembler, ?serve, ?deadline,
    ?close⟩
  case fromPort =>
    rintro s _ u port e hfrom hport rfl harrive
    refine congrArg Host.Outcome.next ?_
    simp only [hfrom, Nat.ne_of_lt hport, harrive, if_false]
  case fromAgent =>
    rintro s _ u e hfrom rfl hroute
    have hfrom : s.cardFrom (32 : Fin 33).val = some e := hfrom
    refine congrArg Host.Outcome.next ?_
    rw [hfrom]
    refine (if_pos rfl).trans ?_
    rw [hroute]
  case lead =>
    intro s l hdue
    refine congrArg Host.Outcome.next ?_
    simp only [State.leadEnqueue, hdue]
  case readiness =>
    intro s unit p f n hjob hbound
    refine congrArg Host.Outcome.next ?_
    simp only [hbound, hjob, if_true]
  case retire | replayReq | replayNak => exact fun s card htag => congrArg Host.Outcome.next (if_pos htag)
  case shelf =>
    intro s set hoff hok
    refine congrArg Host.Outcome.next ?_
    simp [State.shelfSetOn, hoff, hok]
  case assembler =>
    intro s asm hoff hok
    refine congrArg Host.Outcome.next ?_
    simp [State.asmOn, hoff, hok]
  case serve =>
    rintro s s₁ asm _ _ c hon hopen rfl rfl hhead htag hdequeue hrows hreach hfits
    refine congrArg Host.Outcome.next ((if_neg (by simp [hon, hopen])).trans ?_)
    simp only [hhead, htag, ne_eq, not_true_eq_false, if_false, hdequeue]
    refine (if_neg ?_).trans (if_neg ?_)
    · simp only [hreach, not_true_eq_false, or_false]
      omega
    · exact fun h => absurd h.1 (Nat.not_lt.mpr hfits)
  case deadline =>
    intro s asm hon hreqs hopen
    refine congrArg Host.Outcome.next (if_neg ?_)
    simp only [List.isEmpty_iff, hreqs, hopen, hon, Bool.false_eq_true, not_true_eq_false, or_self, not_false_eq_true]
  case close =>
    intro s s₁ s₂ s₃ asm a d n place bs ha hd hn hplace hbs hon hclosing hqueue hfree hs₁ hs₂ hs₃ htime
    refine congrArg Host.Outcome.next ?_
    simp only [← ha, ← hd, ← hn, hon, hclosing.1, hqueue.1, hqueue.2, hfree, not_true_eq_false, Bool.false_eq_true, or_self,
      if_false, ← hplace, ← hbs, ← hs₁, ← hs₂, Nat.not_lt.mpr htime, ← hs₃, hclosing.2]

end Sys2Proof.Machine

namespace Sys2Proof.Machine

/-! ### Sequencer control instructions (O40) -/

/-- Settles O40: a ready instruction begins and its meaning runs (`seqDo_of_ready`). -/
theorem sequencerControlInstructionsComplete : Obligations.SequencerControlInstructionsComplete := by
  refine ⟨?nop, ?alu, ?addi, ?li, ?liwLow, ?liwHigh, ?taken, ?notTaken, ?call, ?ret, ?halt⟩
  case nop | alu | addi | li | call | halt =>
    rintro s _ q _ hready rfl rfl
    exact congrArg Host.Outcome.next (seqDo_of_ready hready _)
  case liwLow =>
    rintro s _ q _ hready rfl rfl hlow
    refine congrArg Host.Outcome.next ((seqDo_of_ready hready _).trans ?_)
    simp only [hlow, if_true]
  case liwHigh =>
    rintro s _ q _ hready rfl rfl hhigh
    refine congrArg Host.Outcome.next ((seqDo_of_ready hready _).trans ?_)
    simp only [hhigh, Nat.one_ne_zero, if_false]
  case taken =>
    rintro s _ q _ hready rfl rfl hcond
    exact congrArg Host.Outcome.next ((seqDo_of_ready hready _).trans (if_pos hcond))
  case notTaken =>
    rintro s _ q _ hready rfl rfl hcond
    exact congrArg Host.Outcome.next ((seqDo_of_ready hready _).trans (if_neg (Bool.eq_false_iff.mp hcond)))
  case ret =>
    rintro s _ q _ a hready rfl rfl hlink
    refine congrArg Host.Outcome.next ((seqDo_of_ready hready _).trans ?_)
    simp only [hlink, Option.getD_some]

end Sys2Proof.Machine

namespace Sys2Proof.Machine

/-! ### Sequencer memory, time and event instructions (O41) -/

/-- Settles O41: a ready instruction begins and its meaning runs (`seqDo_of_ready`), each of its guards decided. -/
theorem sequencerMemoryInstructionsComplete : Obligations.SequencerMemoryInstructionsComplete := by
  refine ⟨?ldd, ?std, ?lds, ?sts, ?stsFault, ?mcas, ?mcnt, ?time, ?watch, ?waite, ?waiteHold, ?tset, ?timer, ?ewait,
    ?ewaitHold⟩
  case ldd | std =>
    rintro s _ q _ a hready rfl rfl haddr
    refine congrArg Host.Outcome.next ((seqDo_of_ready hready _).trans ?_)
    simp only [haddr]
  case lds =>
    rintro s _ q _ s₂ us a v hready rfl rfl ha halign hreach hwaits hread
    rw [exec_lds_of_ready rfl hready ha halign hreach hread, if_neg (Bool.eq_false_iff.mp hwaits)]
  case sts =>
    rintro s _ q _ a hready rfl rfl ha halign hreach hwaits
    exact exec_sts_of_ready rfl hready ha halign hreach hwaits
  case stsFault =>
    rintro s _ q _ a hready rfl rfl ha hbad
    refine congrArg Host.Outcome.next ((seqDo_of_ready hready _).trans ?_)
    simp only [← ha]
    exact if_pos (hbad.imp_right Bool.eq_false_iff.mp)
  case mcas =>
    rintro s _ q _ s₂ us a v hready rfl rfl ha halign hreach hwaits hread
    refine congrArg Host.Outcome.next ((seqDo_of_ready hready _).trans ?_)
    simp only [← ha, halign, hreach, hwaits, hread, ne_eq, not_true_eq_false, or_self, Bool.false_eq_true, if_false]
  case mcnt =>
    rintro s _ q _ s₂ us a n f bs hready rfl rfl ha hn hf halign hreach hwaits hread
    refine congrArg Host.Outcome.next ((seqDo_of_ready hready _).trans ?_)
    simp only [← ha, ← hn, ← hf, halign, hreach, hwaits, hread, ne_eq, not_true_eq_false, or_self, Bool.false_eq_true,
      if_false]
  case time | tset =>
    rintro s _ q _ hready rfl rfl
    exact congrArg Host.Outcome.next (seqDo_of_ready hready _)
  case watch =>
    rintro s _ q _ v hready rfl rfl hv hok
    refine congrArg Host.Outcome.next ((seqDo_of_ready hready _).trans ?_)
    simp only [← hv]
    exact if_pos (by simpa [or_assoc] using hok)
  case waite =>
    rintro s _ q _ e hready rfl rfl he hup
    refine congrArg Host.Outcome.next ((seqDo_of_ready hready _).trans ?_)
    simp only [← he]
    exact if_neg hup
  case waiteHold =>
    rintro s _ q _ hready rfl rfl hnone hstate
    refine congrArg Host.Outcome.next ((seqDo_of_ready hready _).trans ?_)
    refine (if_pos hnone).trans ?_
    rw [if_neg (by omega)]
  case timer => exact fun s q htimer => congrArg Host.Outcome.next (if_neg htimer)
  case ewait =>
    rintro s _ q _ hready rfl rfl hcome
    exact congrArg Host.Outcome.next ((seqDo_of_ready hready _).trans (if_pos hcome))
  case ewaitHold =>
    rintro s _ q _ hready rfl rfl hlater hstate
    refine congrArg Host.Outcome.next ((seqDo_of_ready hready _).trans ?_)
    refine (if_neg (Nat.not_le.mpr hlater)).trans ?_
    rw [if_neg (by omega)]

end Sys2Proof.Machine

namespace Sys2Proof.Machine

/-! ### Sequencer card, receive, dispatch, table and window instructions (O42) -/

/-- The queues that QFLUSH of a sequencer may flush. -/
theorem mayFlush_of_reach {s : State} {q n : Nat} (hon : s.qEn n = true)
    (hreach : (s.seqCtx q = none ∧ s.qClass n ≠ 0) ∨ (3 ≤ s.qClass n ∧ s.seqCtx q = some (s.qCtx n)) ∨
      ∃ x, (s.qClass n = 1 ∨ s.qClass n = 2) ∧ s.seqCtx q = some x ∧ ∀ c ∈ s.qCards n, Card.ctx c = x) :
    s.mayFlush q n = true := by
  rcases hreach with ⟨hctx, hclass⟩ | ⟨hclass, hctx⟩ | ⟨x, hclass, hctx, hcards⟩
  · simp [State.mayFlush, hon, hctx, hclass]
  · have hother : (s.qClass n == 1 || s.qClass n == 2) = false := by
      simp
      omega
    simp [State.mayFlush, hon, hctx, hother, hclass]
  · have hdone : (s.qClass n == 1 || s.qClass n == 2) = true := by simpa using hclass
    simpa [State.mayFlush, hon, hctx, hdone] using hcards

/-- Settles O42: a ready instruction begins and its meaning runs (`seqDo_of_ready`), each of its guards decided. -/
theorem sequencerCardInstructionsComplete : Obligations.SequencerCardInstructionsComplete := by
  refine ⟨?deq, ?deqEmpty, ?enq, ?cget, ?cput, ?cclr, ?ccopy, ?qflush, ?rxdeq, ?rxdeqEmpty, ?rxdrop, ?disp, ?tbind, ?tnext,
    ?tnextEnd, ?jlink, ?pwin⟩
  case deq =>
    rintro s _ q _ s₂ _ _ c hready rfl rfl rfl rfl hdequeue
    refine congrArg Host.Outcome.next ((seqDo_of_ready hready _).trans ?_)
    simp only [hdequeue]
  case deqEmpty =>
    rintro s _ q _ s₂ _ _ hready rfl rfl rfl rfl hdequeue
    refine congrArg Host.Outcome.next ((seqDo_of_ready hready _).trans ?_)
    simp only [hdequeue]
  case enq =>
    rintro s _ q _ s₂ _ _ r hready rfl rfl rfl rfl hclass hoffer
    refine congrArg Host.Outcome.next ((seqDo_of_ready hready _).trans ?_)
    simp only [if_neg hclass, hoffer]
  case cget =>
    rintro s _ q _ hready rfl rfl
    exact exec_cget_of_ready hready
  case cput =>
    rintro s _ q _ hready rfl rfl
    exact exec_cput_of_ready hready
  case cclr =>
    rintro s _ q _ hready rfl rfl hform
    exact exec_cclr_of_ready hready hform
  case ccopy =>
    rintro s _ q _ hready rfl rfl hform
    exact exec_ccopy_of_ready hready hform
  case qflush =>
    rintro s _ q _ _ hready rfl rfl rfl hon hreach
    refine congrArg Host.Outcome.next ((seqDo_of_ready hready _).trans ?_)
    simp only [mayFlush_of_reach hon hreach, if_true]
  case rxdeq =>
    rintro s _ q _ _ c rest hready rfl rfl rfl hport hfifo
    refine congrArg Host.Outcome.next ((seqDo_of_ready hready _).trans ?_)
    simp only [hport, hfifo, not_true_eq_false, if_false]
  case rxdeqEmpty =>
    rintro s _ q _ _ hready rfl rfl rfl hport hfifo
    refine congrArg Host.Outcome.next ((seqDo_of_ready hready _).trans ?_)
    simp only [hport, hfifo, not_true_eq_false, if_false]
  case rxdrop =>
    rintro s _ q _ _ hready rfl rfl rfl hport
    refine congrArg Host.Outcome.next ((seqDo_of_ready hready _).trans ?_)
    exact if_neg (Classical.not_not.mpr hport)
  case disp =>
    rintro s _ q _ s₂ _ r hready rfl rfl rfl hcard hoffer
    refine congrArg Host.Outcome.next ((seqDo_of_ready hready _).trans ?_)
    simp only [hcard.1, Nat.not_lt.mpr hcard.2, ne_eq, not_true_eq_false, or_self, if_false, hoffer]
  case tbind =>
    intro s s₁ q w s₂ s₃ a x n bs es hready hs₁ hw ha hx hn hreach hwaits hentries hread hs₃ hok
    refine congrArg Host.Outcome.next ((seqDo_of_ready hready _).trans ?_)
    simp only [← hs₁, ← hw, ← ha, ← hx, ← hn, hreach, hwaits, hread, ← hs₃, hentries, hok, not_true_eq_false,
      Bool.false_eq_true, if_false, if_true]
  case tnext =>
    intro s s₁ q w s₂ us t bs e v acc hready hs₁ hw htable hreach hwaits hread he hop hv hmapped hacc
    refine congrArg Host.Outcome.next ((seqDo_of_ready hready _).trans ?_)
    simp only [← hs₁, ← hw, htable, hreach, hwaits, hread, ← he, ← hv, if_neg hop, if_neg hmapped, not_true_eq_false,
      Bool.false_eq_true, if_false, ← hacc]
  case tnextEnd =>
    intro s s₁ q w s₂ us t bs x hready hs₁ hw htable hreach hwaits hread hop hctx
    refine congrArg Host.Outcome.next ((seqDo_of_ready hready _).trans ?_)
    simp only [← hs₁, ← hw, htable, hreach, hwaits, hread, hop, not_true_eq_false, Bool.false_eq_true, if_false, if_true,
      hctx.2]
  case jlink =>
    intro s s₁ q w m c d hready hs₁ hw hm hc hd htag
    refine congrArg Host.Outcome.next ((seqDo_of_ready hready _).trans ?_)
    simp only [← hs₁, ← hw, ← hm, ← hc, ← hd]
    exact if_neg (by omega)
  case pwin =>
    intro s s₁ q w h n b z p hready hs₁ hw hh hn hb hz hp hlow hreach hrange
    refine congrArg Host.Outcome.next ((seqDo_of_ready hready _).trans ?_)
    simp only [← hs₁, ← hw, ← hh, ← hn, ← hb, ← hz, ← hp]
    refine if_pos ⟨?_, hrange⟩
    rcases hreach with hctx | ⟨hctx, hcode⟩
    · simp [hlow, hctx]
    · simp [hlow, hctx, hcode]

end Sys2Proof.Machine

namespace Sys2Proof.Machine

/-! ### Sequencer transfer instructions (O43) -/

/-- Settles O43: a ready instruction begins and its meaning runs (`seqDo_of_ready`), each of its guards decided. -/
theorem transferInstructionsComplete : Obligations.TransferInstructionsComplete := by
  refine ⟨?xreq, ?xstat, ?xmove, ?xbind, ?xdone, ?xdoneOpen, ?xfree, ?xfreeLate, ?crel, ?xcard, ?xcardOwn, ?xtimeout⟩
  case xreq =>
    intro s s₁ q w s₀ s₂ s₃ k c hready hs₁ hw hk hc hstate hok hs₀ hs₂ hs₃
    refine congrArg Host.Outcome.next ((seqDo_of_ready hready _).trans ?_)
    simp only [← hs₁, ← hw, ← hk, ← hc, hok, ← hs₀, ← hs₂, ← hs₃, not_true_eq_false, if_false]
    exact if_neg (by omega)
  case xstat =>
    rintro s _ q _ hready rfl rfl
    exact congrArg Host.Outcome.next (seqDo_of_ready hready _)
  case xmove =>
    intro s s₁ q w s₂ us k c hready hs₁ hw hk hc hstate hreach hwaits hs₂
    refine congrArg Host.Outcome.next ((seqDo_of_ready hready _).trans ?_)
    simp only [← hs₁, ← hw, ← hk, ← hc, hstate, hreach, hwaits, ← hs₂, ne_eq, not_true_eq_false, Bool.false_eq_true,
      if_false]
  case xbind =>
    intro s s₁ q w k b hready hs₁ hw hk hb hstate hfree
    refine congrArg Host.Outcome.next ((seqDo_of_ready hready _).trans ?_)
    simp only [← hs₁, ← hw, ← hk, ← hb, hstate, hfree, ne_eq, not_true_eq_false, Bool.false_eq_true, or_self, if_false]
  case xdone =>
    intro s s₁ q w k hready hs₁ hw hk hslot hstate
    refine congrArg Host.Outcome.next ((seqDo_of_ready hready _).trans ?_)
    simp only [← hs₁, ← hw, ← hk]
    rw [if_neg (by omega), if_pos (by omega), if_neg (by omega)]
  case xdoneOpen =>
    intro s s₁ q w k hready hs₁ hw hk hslot hstate
    refine congrArg Host.Outcome.next ((seqDo_of_ready hready _).trans ?_)
    simp only [← hs₁, ← hw, ← hk]
    rw [if_neg (by omega), if_pos (by omega), if_pos hslot]
  case xfree =>
    intro s s₁ q w k hready hs₁ hw hk hslot
    refine congrArg Host.Outcome.next ((seqDo_of_ready hready _).trans ?_)
    simp only [← hs₁, ← hw, ← hk]
    exact if_pos hslot
  case xfreeLate =>
    intro s s₁ q w k hready hs₁ hw hk hslot hfirst
    refine congrArg Host.Outcome.next ((seqDo_of_ready hready _).trans ?_)
    simp only [← hs₁, ← hw, ← hk]
    rw [if_neg (by omega), if_pos hslot, if_neg (Bool.eq_false_iff.mp hfirst)]
  case crel =>
    intro s s₁ q w i f n ks hready hs₁ hw hi hf hn hks hlow hreach hrange hclosed
    refine congrArg Host.Outcome.next ((seqDo_of_ready hready _).trans ?_)
    simp only [← hs₁, ← hw, ← hi, ← hf, ← hn, ← hks, hclosed, Bool.false_eq_true, or_false]
    refine (if_neg (Classical.not_not.mpr ?_)).trans (if_neg (by omega))
    rcases hreach with hctx | hctx <;> simp [hlow, hctx]
  case xcard =>
    intro s s₁ q w d c hready hs₁ hw hd hc htag hother
    refine congrArg Host.Outcome.next ((seqDo_of_ready hready _).trans ?_)
    simp only [← hs₁, ← hw, ← hd, ← hc, htag, not_true_eq_false, if_false, if_neg hother]
  case xcardOwn =>
    intro s s₁ q w d c hready hs₁ hw hd hc htag hown
    refine congrArg Host.Outcome.next ((seqDo_of_ready hready _).trans ?_)
    simp only [← hs₁, ← hw, ← hd, ← hc, htag, not_true_eq_false, if_false, if_pos hown]
  case xtimeout =>
    intro s q k hwaits hopen
    exact congrArg Host.Outcome.next ((if_pos hwaits).trans (if_neg (Bool.eq_false_iff.mp hopen)))

end Sys2Proof.Machine

namespace Sys2Proof.Machine

/-! ### Register access and RUN of the sequencers (O44) -/

section

variable {s : State} {ag pg off size v : Nat}

theorem tryWrite_of_may (h : s.mayAccess ag pg off size true = true) :
    s.tryWrite ag pg off size v = (s.writeReg ag pg off size v, true) := if_pos h

theorem tryWrite_of_denied (h : s.mayAccess ag pg off size true = false) :
    s.tryWrite ag pg off size v = (s.refuse ag pg, false) := if_neg (Bool.eq_false_iff.mp h)

theorem tryRead_of_may {t : State} (h : s.mayAccess ag pg off size false = true) (hread : s.readReg ag pg off size = (t, v)) :
    s.tryRead ag pg off size = (t, some v) := by
  rw [State.tryRead, if_pos h, hread]

end

/-- Settles O44: a permitted access is performed (`tryRead_of_may`, `tryWrite_of_may`), and RUN starts or resumes. -/
theorem sequencerRegisterAccessAndRunComplete : Obligations.SequencerRegisterAccessAndRunComplete := by
  refine ⟨?mmr, ?mmw, ?mmwDenied, ?runFresh, ?runOn, ?runClear⟩
  case mmr =>
    rintro s _ q _ s₂ pg off v hready rfl rfl haddr halign hmay hread
    refine congrArg Host.Outcome.next ((seqDo_of_ready hready _).trans ?_)
    simp only [haddr, halign, ne_eq, not_true_eq_false, if_false, tryRead_of_may hmay hread]
  case mmw =>
    rintro s _ q _ pg off hready rfl rfl haddr halign hmay
    refine congrArg Host.Outcome.next ((seqDo_of_ready hready _).trans ?_)
    simp only [haddr, halign, ne_eq, not_true_eq_false, if_false, tryWrite_of_may hmay]
  case mmwDenied =>
    rintro s _ q _ pg off hready rfl rfl haddr halign hdenied
    refine congrArg Host.Outcome.next ((seqDo_of_ready hready _).trans ?_)
    simp only [haddr, halign, ne_eq, not_true_eq_false, if_false, tryWrite_of_denied hdenied]
    exact if_pos (Nat.le_of_lt_succ q.isLt)
  case runFresh =>
    intro s q hoff hloaded hstart
    refine congrArg Host.Outcome.next ((if_neg (by simp [hoff, hloaded])).trans ?_)
    simp only [if_pos hstart]
  case runOn =>
    intro s q hoff hloaded hfresh hstate
    refine congrArg Host.Outcome.next ((if_neg (by simp [hoff, hloaded])).trans ?_)
    simp [hfresh, hstate]
  case runClear =>
    rintro s _ q rfl hstate
    exact congrArg Host.Outcome.next (if_pos hstate)

end Sys2Proof.Machine

namespace Sys2Proof.Machine

/-! ### Register accesses, BAR2 and zero fills (O45) -/

section

variable {s : State} {f : FillWait}

/-- A word access is aligned, and a wide one at an even word. -/
theorem regAligned_word {word : Nat} {wide : Bool} (h : wide = true → word % 2 = 0) :
    regAligned (4 * word) (if wide then 8 else 4) = true := by
  cases wide with
  | false => simp [regAligned]
  | true =>
    have hword := h rfl
    simp [regAligned]
    omega

/-- A BAR2 access of a host that has it goes on at once where no zero fill and no earlier access holds it. -/
theorem bar2Access_of_free (hup : s.hostUp = true) (hopen : s.hostShut = false) (haccess : s.bit R.trustAccess 0 = true)
    (hlive : s.devFatal = false) (hreach : f.addr + f.len ≤ smSize)
    (hgranules : (granulesOf f.addr f.len).all (fun g => s.granValid g && !s.granBusy g) = true)
    (hwaits : s.smem.fillWaits = []) :
    s.bar2Access f = f.write.elim (s.bar2Read f.addr f.len) fun bs => s.bar2Write f.addr bs f.poison := by
  have hvalid : (granulesOf f.addr f.len).all s.granValid = true :=
    List.all_eq_true.mpr fun g hg => (Bool.and_eq_true_iff.mp (List.all_eq_true.mp hgranules g hg)).1
  have hfilled : ((granulesOf f.addr f.len).any fun g => s.granValid g && s.granBusy g) = false :=
    List.any_eq_false.mpr fun g hg => by
      have hg := List.all_eq_true.mp hgranules g hg
      simp only [Bool.and_eq_true, Bool.not_eq_true'] at hg
      simp [hg.2]
  have hgo : s.bar2Access f = s.bar2Go f := by
    simp only [State.bar2Access, hup, hopen, haccess, hlive, hfilled, hwaits, List.any_nil, Bool.or_self, Bool.false_eq_true,
      not_true_eq_false, false_and, if_false]
  rw [hgo, State.bar2Go, if_neg (Classical.not_not.mpr ⟨hreach, hvalid⟩)]
  cases f.write <;> rfl

theorem regMessage_of_may {addr : BitVec 64} {write : Bool} {pg off : Nat} (hfirm : s.firmware = true)
    (haddr : mmioAt addr.toNat = some (pg, off)) (halign : off % 4 = 0) (hmay : hostMay pg off write = true)
    (g : State → Nat → Nat → State) : s.regMessage (0 : Fin 2) addr write g = g s pg off := by
  refine (mgmt_of_carried hfirm (.inl rfl) _).trans ?_
  simp only [haddr, halign, hmay, ne_eq, not_true_eq_false, if_false]

end

/-- Settles O45: a permitted access is performed, a BAR2 access goes on (`bar2Access_of_free`), and a fill's end lets the
waiting accesses go. -/
theorem registerAccessCommandsComplete : Obligations.RegisterAccessCommandsComplete := by
  refine ⟨?force, ?enable, ?enableDenied, ?lock, ?latch, ?write, ?bar0Write, ?bar0Read, ?bar2Read, ?bar2Write, ?regRead,
    ?regWrite, ?fillEnd⟩
  case force | enable =>
    intro s agent page value hmay
    exact congrArg (fun p : State × Bool => Host.Outcome.next p.1) (tryWrite_of_may hmay)
  case enableDenied =>
    intro s agent page value hagent hdenied
    refine (congrArg (fun p : State × Bool => Host.Outcome.next p.1) (tryWrite_of_denied hdenied)).trans ?_
    exact congrArg Host.Outcome.next (if_neg (by omega))
  case lock =>
    intro s agent page hmay
    exact congrArg (fun p : State × Bool => Host.Outcome.next p.1) (tryWrite_of_may hmay)
  case latch =>
    intro s agent page word hmay
    exact congrArg (fun p : State × Option Nat => Host.Outcome.next p.1) (tryRead_of_may hmay rfl)
  case write =>
    intro s agent page word wide value hwide hmay
    refine congrArg Host.Outcome.next ((if_pos (regAligned_word hwide)).trans ?_)
    exact congrArg Prod.fst (tryWrite_of_may hmay)
  case bar0Write =>
    rintro s _ offset size value _ _ _ hup rfl rfl rfl rfl hopen haligned hlive hmay
    refine congrArg Host.Outcome.next ((if_neg (Classical.not_not.mpr hup)).trans ((if_neg (Bool.eq_false_iff.mp hopen)).trans ?_))
    refine (if_neg (Classical.not_not.mpr haligned)).trans ((if_neg fun h => Bool.eq_false_iff.mp hlive h.1).trans ?_)
    exact (if_pos rfl).trans (congrArg Prod.fst (tryWrite_of_may hmay))
  case bar0Read =>
    rintro s _ s₂ offset size value _ _ _ v hup rfl rfl rfl rfl hopen haligned hlive hmay hread
    refine congrArg Host.Outcome.next ((if_neg (Classical.not_not.mpr hup)).trans ((if_neg (Bool.eq_false_iff.mp hopen)).trans ?_))
    refine (if_neg (Classical.not_not.mpr haligned)).trans ((if_neg fun h => Bool.eq_false_iff.mp hlive h.1).trans ?_)
    refine (if_neg Bool.false_ne_true).trans ?_
    simp only [Bool.false_eq_true, if_false, tryRead_of_may hmay hread]
  case bar2Read =>
    rintro s _ addr len us _ _ rfl rfl rfl hup hopen haccess hlive hreach hgranules hwaits
    exact congrArg Host.Outcome.next (bar2Access_of_free hup hopen haccess hlive hreach hgranules hwaits)
  case bar2Write =>
    rintro s addr data ep _ _ rfl rfl hdata hup hopen haccess hlive hreach hgranules hwaits
    refine congrArg Host.Outcome.next ((if_neg (by simpa using hdata)).trans ?_)
    exact bar2Access_of_free hup hopen haccess hlive hreach hgranules hwaits
  case regRead =>
    intro s s₁ addr pg off v hfirm haddr halign hmay hread
    refine congrArg Host.Outcome.next ((regMessage_of_may hfirm haddr halign hmay _).trans ?_)
    simp only [hread]
    rfl
  case regWrite =>
    intro s addr value pg off hfirm haddr halign hmay hpage
    refine congrArg Host.Outcome.next ((regMessage_of_may hfirm haddr halign hmay _).trans ?_)
    rw [if_neg fun h => hpage h.1]
    rfl
  case fillEnd =>
    rintro s _ granule go left hbusy rfl hready
    refine congrArg Host.Outcome.next ((if_neg (Classical.not_not.mpr hbusy)).trans ?_)
    simp only [hready]

end Sys2Proof.Machine

namespace Sys2Proof.Machine

/-! ### Credit, packets and tags (O46) -/

/-- Settles O46: a packet that is taken in is answered as its meaning says, each of its guards decided. -/
theorem creditAndPacketCommandsComplete : Obligations.CreditAndPacketCommandsComplete := by
  refine ⟨?creditReq, ?creditGrant, ?collReply, ?creditReply, ?poolEnable, ?poolDisable, ?write, ?rreq, ?wack, ?rcpl,
    ?timeout, ?exhaust⟩
  case creditReq =>
    intro s s₁ port p htake
    show execCreditReq s = _
    simp only [execCreditReq, htake]
  case creditGrant =>
    intro s s₁ s₂ pool w rest f hwaiting hen hfits hroom hf hs₁ hs₂
    refine congrArg Host.Outcome.next ?_
    simp only [State.creditGrant, hwaiting, hen, hfits, hroom, and_self, if_true, ← hf, ← hs₁, ← hs₂]
  case collReply =>
    intro s s₁ port h p htake hasked
    show execCreditReply s = _
    simp only [execCreditReply, htake, hasked]
  case creditReply =>
    intro s s₁ port p htake hasked
    show execCreditReply s = _
    simp only [execCreditReply, htake, hasked]
  case poolEnable =>
    intro s pool hoff hok
    exact congrArg Host.Outcome.next (poolOn_of_ok hoff hok)
  case poolDisable => exact fun s pool hen => congrArg Host.Outcome.next (if_pos hen)
  case write =>
    intro s s₁ port p htake hinside
    refine congrArg Host.Outcome.next ?_
    simp only [htake, if_pos hinside]
  case rreq =>
    intro s s₁ port pg off size v s₂ p htake hsize hhigh haddr hpage hslice haligned hmay hread
    refine congrArg Host.Outcome.next ?_
    simp only [htake, if_neg (Nat.not_lt.mpr hhigh), haddr, hpage, hslice, ← hsize, haligned, tryRead_of_may hmay hread,
      not_true_eq_false, ne_eq, if_false]
  case wack =>
    intro s s₁ s₂ port p t htake hclose
    show execWack s = _
    simp only [execWack, htake, hclose]
  case rcpl =>
    intro s s₁ s₂ port p t htake hclose
    show execRcpl s = _
    simp only [execRcpl, htake, hclose]
  case timeout =>
    intro s s₁ s₂ tag r hr hlive hs₁ hs₂
    show execReqTimeout tag s = _
    simp only [execReqTimeout, ← hr, hlive.1, hlive.2, Bool.false_eq_true, or_self, if_false, ← hs₁, ← hs₂]
  case exhaust =>
    intro s s₁ requester hwaits hraised hs₁
    show execTagExhaust requester s = _
    simp only [execTagExhaust, hwaits, hraised, Bool.false_eq_true, or_self, if_false, ← hs₁]

end Sys2Proof.Machine

namespace Sys2Proof.Machine

/-! ### Fences, roll call, tables and fabric time (O47) -/

/-- Settles O47, command by command: under its conditions each guard of a meaning is decided. -/
theorem tableAndTimeCommandsComplete : Obligations.TableAndTimeCommandsComplete := by
  refine ⟨?fenceAcked, ?fence, ?rollcallSend, ?rollcallSame, ?rollcallNew, ?rollcallDone, ?rollcallDoneReady, ?chipId,
    ?routes, ?permits, ?copy, ?copyEnd, ?arm, ?epochTick, ?tsyncSend, ?tsyncReq, ?tsyncRsp, ?alternate, ?holdover, ?lost⟩
  case fenceAcked =>
    intro s group old t hfence hacked
    show execFence group s = _
    simp only [execFence, hfence, hacked, if_true]
  case fence =>
    intro s group old t hfence hunacked
    show execFence group s = _
    simp only [execFence, hfence, hunacked, Bool.false_eq_true, if_false]
  case rollcallSend => exact fun s port hactive => congrArg Host.Outcome.next (if_pos hactive)
  case rollcallSame =>
    intro s s₁ s₂ port p n htake hversion hn hs₂ hold
    show execRollcall s = _
    simp only [execRollcall, htake, hversion, ne_eq, not_true_eq_false, if_false, ← hn, hold, if_true, and_false, ← hs₂]
  case rollcallNew =>
    intro s s₁ s₂ port p n htake hversion hn hold hs₂
    show execRollcall s = _
    simp only [execRollcall, htake, hversion, ne_eq, not_true_eq_false, if_false, ← hn, hold, not_false_eq_true, and_true,
      ← hs₂]
  case rollcallDone =>
    rintro s _ hopen rfl hphase
    exact congrArg Host.Outcome.next ((if_neg (Bool.eq_false_iff.mp hopen)).trans (if_neg hphase))
  case rollcallDoneReady =>
    rintro s _ hopen rfl hphase
    exact congrArg Host.Outcome.next ((if_neg (Bool.eq_false_iff.mp hopen)).trans (if_pos hphase))
  case chipId =>
    intro s t chip hopen ht hnew
    have hchip : chip.val % 2 ^ 20 = chip.val := Nat.mod_eq_of_lt chip.isLt
    refine congrArg Host.Outcome.next ((if_neg (Bool.eq_false_iff.mp hopen)).trans ?_)
    simp only [hchip, ← ht]
    refine if_neg fun h => ?_
    rcases hnew with hnew | hnew
    · exact Bool.eq_false_iff.mp hnew h.1
    · exact hnew h.2
  case routes =>
    intro s value i t hfree hi ht hrange
    refine congrArg Host.Outcome.next ((if_neg (by simp [hfree.1, hfree.2])).trans ?_)
    simp only [← hi, ← ht, if_pos hrange.1, if_pos hrange.2]
  case permits =>
    intro s value hfree htable
    refine congrArg Host.Outcome.next ((if_neg (by simp [hfree.1, hfree.2])).trans ?_)
    simp only [htable, Nat.reduceLeDiff, if_false, if_true]
  case copy =>
    intro s hunarmed hidle
    exact congrArg Host.Outcome.next ((if_neg (Bool.eq_false_iff.mp hunarmed)).trans (if_neg (Bool.eq_false_iff.mp hidle)))
  case copyEnd =>
    intro s s₁ b hcopying hs₁ hb
    show execCopyEnd s = _
    simp only [execCopyEnd, hcopying, not_true_eq_false, if_false, ← hs₁, ← hb]
  case arm =>
    intro s hunarmed hfuture
    refine congrArg Host.Outcome.next ((if_neg (Bool.eq_false_iff.mp hunarmed)).trans ?_)
    exact if_neg (Nat.not_le.mpr hfuture)
  case epochTick =>
    intro s s₁ s₂ s₃ s₄ hs₁ hs₂ hs₃ hs₄
    show execEpochTick s = _
    simp only [execEpochTick, ← hs₁, ← hs₂, ← hs₃, ← hs₄]
  case tsyncSend =>
    rintro s _ _ hslave hsends rfl rfl
    exact if_neg (not_or.mpr ⟨Bool.eq_false_iff.mp hslave, Classical.not_not.mpr hsends⟩)
  case tsyncReq =>
    intro s s₁ port p htake
    show execTsyncReq s = _
    simp only [execTsyncReq, htake]
  case tsyncRsp =>
    intro s s₁ port up t₁ t₂ t₃ corr p htake ht₁ ht₂ ht₃ hcorr hup houtstanding htime
    show execTsyncRsp s = _
    simp only [execTsyncRsp, htake, ← ht₁, ← ht₂, ← ht₃, ← hcorr, ← hup, houtstanding, htime, and_self, if_true]
  case alternate =>
    intro s hmissed hsynced halt hfirst
    show execTimeHoldover s = _
    simp only [execTimeHoldover, Nat.not_lt.mpr hmissed, hsynced, halt, hfirst, Bool.false_eq_true, or_self, if_false,
      not_false_eq_true, and_self, if_true]
  case holdover =>
    intro s s₁ hmissed hsynced hnone hs₁
    show execTimeHoldover s = _
    simp only [execTimeHoldover, Nat.not_lt.mpr hmissed, hsynced, hnone, Bool.false_eq_true, or_self, if_false, false_and,
      ← hs₁]
  case lost =>
    intro s s₁ hholdover hfirst hs₁
    show execTimeLost s = _
    simp only [execTimeLost, hholdover, hfirst, not_true_eq_false, Bool.false_eq_true, or_self, if_false, ← hs₁]

end Sys2Proof.Machine

namespace Sys2Proof.Machine

/-! ### Ports: start-up, retraining and width (O48) -/

section

variable {s s₁ : State} {port code : Nat} {flit : BitVec 2048} {b : List Byte}

/-- A link message that is received with its code is handled. -/
theorem rxLink_of_rxFlit (hrx : s.rxFlit port flit 2 = some s₁) (hb : b = Flit.payload flit) (hcode : leNat (b.take 1) = code)
    (f : State → List Byte → State) : s.rxLink port flit code f = f s₁ b := by
  subst hb
  simp only [State.rxLink, hrx]
  exact if_pos hcode

end

/-- A retrain request of a port that is ACTIVE or in WIDTH_CHANGE is acknowledged and followed. -/
theorem exec_retrainReq_of_active {s s₁ s₂ : State} {port : Fin 32} {flit : BitVec 2048} {b : List Byte}
    (hrx : s.rxFlit port flit 2 = some s₁) (hb : b = Flit.payload flit) (hcode : leNat (b.take 1) = 4)
    (hstate : s₁.portState port = 5 ∨ s₁.portState port = 7)
    (hs₂ : s₂ = (s₁.noteRetrain port).sendLink port (msgKeyed 5 0 (mField b 8 8) 0)) :
    exec (.retrainReq port flit) s = .next (
      let s₃ := (s₂.modPort port fun x =>
        { x with retraining := true, phase := 1, full := false, wantMask := none, since := s₂.now }).setPortState port 6
      if mField b 16 1 == 1 then s₃ else s₃.fullRetrain port) := by
  have hopen : (s₁.portState port == 6) = false := by
    rcases hstate with h | h <;> rw [h] <;> rfl
  refine congrArg Host.Outcome.next ((rxLink_of_rxFlit hrx hb hcode _).trans ?_)
  refine (if_pos (hstate.elim .inl fun h => .inr (.inl h))).trans ?_
  simp only [hopen, Bool.false_and, Bool.false_eq_true, if_false, ← hs₂]

/-- A lane in use that is lost, or has more uncorrectable codewords than its threshold, is not kept. -/
theorem not_lane_kept {st used ucw limit : Nat} {lost : Bool} (hstate : st = 5 ∨ st = 7) (hused : used = 1)
    (hbad : lost = true ∨ limit < ucw) : ¬ ((st ≠ 5 ∧ st ≠ 7) ∨ used = 0 ∨ (¬ lost ∧ ucw ≤ limit)) := by
  rcases hbad with rfl | hbad
  · simp
    omega
  · omega

/-- Settles O48, command by command: under its conditions each guard of a meaning is decided. -/
theorem linkStartUpCommandsComplete : Obligations.LinkStartUpCommandsComplete := by
  refine ⟨?enable, ?enableWorn, ?detect, ?detectNone, ?calibrate, ?calibrateNone, ?align, ?alignRetrain, ?config,
    ?configAck, ?alignTimeout, ?configTimeout, ?configRetrainTimeout, ?retrain, ?retrainFast, ?retrainFull, ?ackFast,
    ?ackFull, ?fastTimeout, ?laneRetrain, ?laneWidth, ?laneKept, ?widthReq, ?widthAck, ?widthTimeout, ?standby,
    ?standbyFails⟩
  case enable =>
    intro s port reach hstate hen hgroup hreach hworn
    show execPortEnable port s = _
    simp only [execPortEnable, hstate, hen, hgroup, hreach, ne_eq, not_true_eq_false, or_self, if_false]
    refine if_neg fun h => ?_
    rcases hworn with hworn | hworn
    · exact h.1 hworn
    · exact Bool.eq_false_iff.mp hworn h.2
  case enableWorn =>
    intro s port reach hstate hen hgroup hreach hlong hworn
    show execPortEnable port s = _
    simp only [execPortEnable, hstate, hen, hgroup, hreach, hlong, hworn, ne_eq, not_true_eq_false, or_self, if_false,
      not_false_eq_true, and_self, if_true]
  case detect =>
    intro s port hstate
    show execDetect port true s = _
    simp only [execDetect, hstate, ne_eq, not_true_eq_false, if_false, if_true]
  case detectNone =>
    intro s port hstate
    show execDetect port false s = _
    simp only [execDetect, hstate, ne_eq, not_true_eq_false, if_false, Bool.false_eq_true]
  case calibrate =>
    intro s port trained m hstate hm hsome
    show execCalibrate port trained s = _
    simp only [execCalibrate, hstate, ne_eq, not_true_eq_false, if_false, ← hm, if_neg hsome]
  case calibrateNone =>
    intro s port trained hstate hnone
    show execCalibrate port trained s = _
    simp only [execCalibrate, hstate, ne_eq, not_true_eq_false, if_false, hnone, Nat.zero_mod, ite_self, if_true]
  case align =>
    intro s port locked m hstate hm hsome
    show execAlign port locked s = _
    simp only [execAlign, ← hm, if_pos hstate, if_neg hsome]
  case alignRetrain =>
    intro s port locked m hstate hm hsome
    show execAlign port locked s = _
    simp only [execAlign, ← hm, hstate.1, hstate.2, Nat.reduceEqDiff, if_false, and_self, if_true, if_neg hsome]
  case config =>
    intro s s₁ port flit b key mask m peer s₂ s₃ s₄ hrx hb hcode hconfig hkey hmask hpeer hs₂ hother haccept hs₃ hm hs₄
    refine congrArg Host.Outcome.next ((rxLink_of_rxFlit hrx hb hcode _).trans ?_)
    refine (if_neg (Classical.not_not.mpr hconfig)).trans ?_
    simp only [← hkey, ← hmask, ← hs₂, if_neg hother, ← hs₃, ← hm, ← hs₄, haccept.1, Nat.not_lt.mpr haccept.2.1,
      ← haccept.2.2, ne_eq, not_true_eq_false, or_self, if_false, hpeer]
  case configAck =>
    intro s s₁ port flit b hrx hb hcode hconfig hkey
    exact congrArg Host.Outcome.next ((rxLink_of_rxFlit hrx hb hcode _).trans (if_pos ⟨hconfig, hkey⟩))
  case alignTimeout =>
    intro s port hstate
    show execConfigTimeout port s = _
    simp only [execConfigTimeout, if_pos hstate]
  case configTimeout =>
    intro s port hstate
    show execConfigTimeout port s = _
    simp only [execConfigTimeout, hstate, Nat.reduceEqDiff, if_false, if_true]
  case configRetrainTimeout =>
    intro s port hstate hphase
    show execConfigTimeout port s = _
    simp only [execConfigTimeout, hstate, hphase, Nat.reduceEqDiff, if_false, and_self, if_true]
  case retrain => exact fun s port hstate => congrArg Host.Outcome.next (if_pos hstate)
  case retrainFast =>
    intro s s₁ port flit b s₂ hrx hb hcode hstate hfast hs₂
    rw [exec_retrainReq_of_active hrx hb hcode hstate hs₂]
    exact congrArg Host.Outcome.next (if_pos (beq_iff_eq.mpr hfast))
  case retrainFull =>
    intro s s₁ port flit b s₂ hrx hb hcode hstate hfull hs₂
    rw [exec_retrainReq_of_active hrx hb hcode hstate hs₂]
    exact congrArg Host.Outcome.next (if_neg (by simpa using hfull))
  case ackFast =>
    intro s s₁ port flit b hrx hb hcode hstate hkey hfast
    refine congrArg Host.Outcome.next ((rxLink_of_rxFlit hrx hb hcode _).trans ?_)
    exact (if_pos ⟨hstate.1, hstate.2, hkey⟩).trans (if_neg (Bool.eq_false_iff.mp hfast))
  case ackFull =>
    intro s s₁ port flit b hrx hb hcode hstate hkey hfull
    refine congrArg Host.Outcome.next ((rxLink_of_rxFlit hrx hb hcode _).trans ?_)
    exact (if_pos ⟨hstate.1, hstate.2, hkey⟩).trans (if_pos hfull)
  case fastTimeout =>
    intro s port hstate hphase
    show execFastRetrainTimeout port s = _
    simp only [execFastRetrainTimeout, hstate, hphase, and_self, if_true]
  case laneRetrain =>
    intro s port lane loss ucw m s₀ s₁ s₂ _ hs₀ hstate hused hbad hs₁ hs₂ hm hnarrow
    show execLaneFailed port lane ⟨loss, ucw⟩ s = _
    simp only [execLaneFailed, ← hs₀, ← hs₁, ← hs₂, ← hm, if_pos hnarrow]
    exact if_neg (not_lane_kept hstate hused hbad)
  case laneWidth =>
    intro s port lane loss ucw m s₀ s₁ s₂ s₃ hs₀ hstate hused hbad hs₁ hs₂ hm hwide hs₃
    show execLaneFailed port lane ⟨loss, ucw⟩ s = _
    simp only [execLaneFailed, ← hs₀, ← hs₁, ← hs₂, ← hm, if_neg (Nat.not_lt.mpr hwide), ← hs₃]
    exact if_neg (not_lane_kept hstate hused hbad)
  case laneKept =>
    rintro s port lane ucw _ rfl hfew
    exact if_pos (.inr (.inr ⟨Bool.false_ne_true, hfew⟩))
  case widthReq =>
    intro s s₁ s₂ port flit b m gone hrx hb hcode hm hcount hstate hgone hs₂
    refine congrArg Host.Outcome.next ((rxLink_of_rxFlit hrx hb hcode _).trans ?_)
    simp only [← hm, hcount, hstate, true_or, and_self, if_true, ← hgone, ← hs₂]
  case widthAck =>
    intro s s₁ port flit b hrx hb hcode hstate hmask
    exact congrArg Host.Outcome.next ((rxLink_of_rxFlit hrx hb hcode _).trans (if_pos ⟨hstate, hmask⟩))
  case widthTimeout =>
    intro s port hstate
    show execWidthChangeTimeout port s = _
    simp only [execWidthChangeTimeout, if_pos hstate]
  case standby =>
    intro s port s₁ s₂ x m hx hstandby hstate hm hs₁ hs₂
    show execStandbyCalibrated port true s = _
    simp only [execStandbyCalibrated, ← hx, hstandby, hstate, ne_eq, not_true_eq_false, if_false, if_true, ← hm, ← hs₁,
      ← hs₂]
  case standbyFails =>
    intro s port hstandby
    show execStandbyCalibrated port false s = _
    simp only [execStandbyCalibrated, hstandby, ne_eq, not_true_eq_false, if_false, Bool.false_eq_true]

end Sys2Proof.Machine

namespace Sys2Proof.Machine

/-! ### A cartridge that is absent (O49) -/

/-- Port 0 in DETECT, its cartridge present and a mating owed for it. -/
def owedCartridge : State :=
  { (State.reset.setBit (R.cartCStatus 0) 0 true).setFld (R.lnkStatus 0) 3 0 1 with carts := [(0, { owed := 1 })] }

/-- The matings owed for the cartridge of port 0 after a step. -/
def owedAfter : Res → Nat
  | .next t => (t.cart 0).owed
  | _ => 0

/-- What the statement's clause of CART_ABSENT leaves of `owedCartridge`. -/
def owedCartridgeAbsent : State :=
  let s₁ := ((owedCartridge.setBit (R.cartCStatus 0) 0 false).setBit (R.cartCStatus 0) 1 false).intEvent 480 0
  ((s₁.linkRaise 0 0x5005 0xFF).modPort 0 fun x => { encCtr := x.encCtr, txq := x.txq }).setPortState 0 0

/-- CART_ABSENT forgets the cartridge and what it owes. -/
theorem owedAfter_cartAbsent : owedAfter (exec (.cartAbsent 0) owedCartridge) = 0 := by decide +kernel

theorem owedAfter_owedCartridgeAbsent : owedAfter (.next owedCartridgeAbsent) = 1 := by decide +kernel

/-- Refutes O49: the clause of CART_ABSENT keeps the cartridge's record, but the command forgets it (all but the time until
which its bus is paused), so on `owedCartridge` the owed mating tells the two states apart. -/
theorem not_linkTrafficCommandsComplete : ¬ Obligations.LinkTrafficCommandsComplete := by
  rintro ⟨-, -, -, -, -, -, -, -, -, -, -, -, -, -, -, -, -, hAbsent, -⟩
  have hclause : exec (.cartAbsent 0) owedCartridge = .next owedCartridgeAbsent :=
    hAbsent owedCartridge 0 _ _ (by decide +kernel) (by decide +kernel) rfl (by decide +kernel) rfl
  have howed := congrArg owedAfter hclause
  rw [owedAfter_cartAbsent, owedAfter_owedCartridgeAbsent] at howed
  exact absurd howed (by decide)

end Sys2Proof.Machine

namespace Sys2Proof.Machine

/-! ### The collective and checkpoint engines (O50) -/

/-- Settles O50, command by command: under its conditions each guard of a meaning is decided, and the group or the peers
are read to their end. -/
theorem collectiveAndCheckpointCommandsComplete : Obligations.CollectiveAndCheckpointCommandsComplete := by
  refine ⟨?collective, ?chunk, ?peerLost, ?checkpoint, ?digest, ?waitEnd⟩
  case collective =>
    intro s h upsets s₁ s₂ s₃ s₄ q x n rank c nb mb ms hs₁ hq hnamed hfree hen hclass hrun hhead hx hs₂ hok hcount hn hlow
      hhigh hshare hgroup hregions hmembers hms hrank
    show execCollectiveRequest h upsets s = _
    simp only [execCollectiveRequest, ← hs₁, ← hq, hnamed, hfree, hen, hclass, hrun, Option.isSome_none, ne_eq,
      not_true_eq_false, Bool.false_eq_true, or_self, if_false, hhead, ← hx, ← hs₂, hok]
    simp only [State.collGroup, hcount, ← hn, hmembers, ← hms, hrank, hshare, hgroup, hregions, Nat.not_lt.mpr hlow,
      Nat.not_lt.mpr hhigh, Option.isSome_none, ne_eq, not_true_eq_false, Bool.false_eq_true, or_self, if_false]
  case chunk =>
    intro s h upsets s₁ s₂ s₃ r m k c g bs hs₁ hrun hengines hhead hs₂ hfits hsame hk hc hgrant hlanded
    show execChunkNotice h upsets s = _
    simp only [execChunkNotice, ← hs₁, hrun, hengines, hhead, ← hs₂, hfits, hsame, ← hk, ← hc, hgrant, hlanded,
      not_true_eq_false, Bool.false_eq_true, if_false, if_true]
  case peerLost =>
    intro s h r hrun hmissing
    show execCollPeerLost h s = _
    simp only [execCollPeerLost, hrun, if_neg hmissing]
  case checkpoint =>
    intro s h upsets s₁ s₂ s₃ s₄ s₅ q x n pos c r bs nb mb ps hs₁ hq hnamed hfree hen hclass hengines hhead hx hs₂ htag hctx
      hdesc hread hr hok hpeers hcount hn hlow hhigh hgroup hmembers hps hrising hpos
    show execCheckpointRequest h upsets s = _
    simp only [execCheckpointRequest, ← hs₁, ← hq, hnamed, hfree, hen, hclass, hengines, Option.isSome_none, ne_eq,
      not_true_eq_false, Bool.false_eq_true, or_self, if_false, hhead, ← hx, ← hs₂, htag, hctx, hdesc, hread, ← hr, hok,
      hpeers]
    simp only [State.ckptGroup, hcount, ← hn, hmembers, ← hps, hpos, hrising, hgroup, Nat.not_lt.mpr hlow,
      Nat.not_lt.mpr hhigh, Option.isSome_none, not_true_eq_false, Bool.false_eq_true, or_self, if_false]
  case digest =>
    intro s h r z c s₁ i p hrun hengines hhead hs₁ hi hp htag hregion hid hfirst hshard hwriting hz
    show execDigestNotice h s = _
    have hreading : z.reading = r.reading := by rw [hz]
    simp only [execDigestNotice, hrun, hengines, hhead, ← hs₁, ← hi, hp, htag, hregion, hid, Nat.not_lt.mpr hfirst,
      Nat.not_le.mpr hshard, ne_eq, not_true_eq_false, Bool.false_eq_true, false_or, if_false, ← hz, hreading]
    exact if_neg (Bool.eq_false_iff.mp hwriting)
  case waitEnd =>
    intro s h r hrun hread hwriting hengines
    show execNoticeWaitEnd h s = _
    simp only [execNoticeWaitEnd, hrun, hread, hwriting, hengines, Bool.false_eq_true, or_self, if_false]

end Sys2Proof.Machine

namespace Sys2Proof.Machine

/-! ### Granules, banks, rows, scrub and sparing (O51) -/

section

variable {s : State}

/-- A granule write that frees a granule, its owner not busy, writes the entry and clears nothing. -/
theorem granuleWrite_of_freed {g : Nat} {v : Word} (hclass : bits v 11 10 ≠ 3)
    (hold : (s.granValid g && s.ctxBusy (s.granOwner g)) = false) (hfree : bits v 9 9 = 0) :
    s.granuleWrite g v = ((s.setFld (R.smemcGranule g) 8 0 (bits v 8 0)).setBit (R.smemcGranule g) 9 false).setFld
      (R.smemcGranule g) 11 10 (bits v 11 10) := by
  have hbad : (bits v 11 10 == 3) = false := beq_eq_false_iff_ne.mpr hclass
  have hval : (bits v 9 9 == 1) = false := by rw [hfree]; rfl
  simp only [State.granuleWrite, hbad, hval, hold, Bool.false_and, Bool.or_self, Bool.false_eq_true, if_false]

/-- A failed bank that no spare serves and that does not wait is counted and asks for a spare bank. -/
theorem bankFailed_of_unspared {t b : Nat} (hbank : b < 288) (hspare : s.spareOf t b = none) :
    s.bankFailed t b = s.failBank t b := by
  have hnone : (s.spareOf t b).isSome = false := by rw [hspare]; rfl
  simp only [State.bankFailed, if_pos hbank, hnone, Bool.false_eq_true, if_false]

end

/-- Settles O51, command by command: under its conditions each guard of a meaning is decided. -/
theorem memoryAndSparingCommandsComplete : Obligations.MemoryAndSparingCommandsComplete := by
  refine ⟨?assign, ?free, ?rebuild, ?noSpare, ?spareFails, ?rebuildEnd, ?rebuildRows, ?spareRow, ?noRow, ?scrub, ?writeBack,
    ?swap, ?takeOut, ?selfTest, ?qmSwitched, ?evaluate, ?rejoin, ?reclaim, ?grantAge⟩
  case assign =>
    rintro s granule value _ _ rfl hclass hold hvalid hnew hon hchange rfl
    exact congrArg Host.Outcome.next (granuleWrite_of_assigned hclass hold hvalid hnew hon hchange)
  case free =>
    rintro s granule value _ rfl hclass hold hfree
    exact congrArg Host.Outcome.next (granuleWrite_of_freed hclass hold hfree)
  case rebuild =>
    intro s tier bank s₁ k ks hbank hspare hunfailed hs₁ hspares hidle
    refine congrArg Host.Outcome.next ((bankFailed_of_unspared hbank hspare).trans ?_)
    simp only [State.failBank, hunfailed, ← hs₁, hspares, hidle, Option.isSome_none, Bool.false_eq_true, if_false]
  case noSpare =>
    intro s tier bank s₁ s₂ hbank hspare hunfailed hs₁ hspares hs₂
    refine congrArg Host.Outcome.next ((bankFailed_of_unspared hbank hspare).trans ?_)
    simp only [State.failBank, hunfailed, ← hs₁, hspares, Bool.false_eq_true, if_false, ← hs₂]
  case spareFails =>
    intro s tier bank k hbank hk hfree
    refine congrArg Host.Outcome.next ((if_neg (Nat.not_lt.mpr hbank)).trans ?_)
    have hunfailed : s.fld k 10 9 ≠ 3 := fun h => absurd (hfree.symm.trans h) (by decide)
    simp only [← hk, if_neg hunfailed, if_pos hfree]
  case rebuildEnd =>
    intro s tier r hrebuild
    refine congrArg Host.Outcome.next ?_
    simp only [hrebuild]
    exact if_pos rfl
  case rebuildRows =>
    intro s tier r rows hrebuild hshort hrow
    refine congrArg Host.Outcome.next ?_
    simp only [hrebuild, if_neg (Nat.ne_of_lt hshort), if_pos hrow]
  case spareRow =>
    intro s tier bank row n s₁ m hn hleft hbank hs₁ hm
    refine congrArg Host.Outcome.next ?_
    simp only [State.spareRow, ← hn, if_neg hleft, if_pos hbank, ← hs₁, ← hm]
  case noRow => exact fun s tier bank row hnone => congrArg Host.Outcome.next (if_pos hnone)
  case scrub =>
    intro s addr passEnd upsets s₁ hon hs₁
    show execScrub addr passEnd upsets s = _
    simp only [execScrub, hon, not_true_eq_false, if_false, ← hs₁]
  case writeBack =>
    intro s addr w s₁ hw howed hs₁ hhealth
    show execStageMemoryWriteBack addr s = _
    simp only [execStageMemoryWriteBack, ← hw, howed, not_true_eq_false, if_false, ← hs₁, if_pos hhealth]
  case swap =>
    intro s pod slot i sp v s₁ s₂ s₃ hretiring hparked hs₁ hfresh hgood hi hsp hs₂ hv hs₃
    show execSlotRetired pod true s = _
    simp only [execSlotRetired, hretiring, hparked, ← hs₁, hfresh, hgood, hi, Bool.or_self, Bool.false_eq_true, if_false,
      ← hsp, ← hs₂, ← hv, ← hs₃]
  case takeOut =>
    intro s pod slot testOk s₁ hretiring hparked hs₁ hunfit
    show execSlotRetired pod testOk s = _
    simp only [execSlotRetired, hretiring, hparked, ← hs₁, Bool.false_eq_true, if_false]
    rcases hunfit with hused | hfailed
    · simp only [hused, Bool.true_or]
    · subst hfailed
      cases s₁.bit (R.podSlotMap pod) 15 || s₁.recov.badSpares.contains pod.val <;> rfl
  case selfTest =>
    intro s core arr failing a s₁ ha htest hidle hs₁
    show execArraySelfTest core arr failing s = _
    simp only [execArraySelfTest, ← ha, htest, hidle, not_true_eq_false, Bool.false_eq_true, or_self, if_false, ← hs₁]
  case qmSwitched =>
    intro s s₁ hrepair hidle hs₁
    show execQmSwitched true s = _
    simp only [execQmSwitched, hrepair, hidle, not_true_eq_false, Bool.false_eq_true, or_self, if_false, ← hs₁]
  case evaluate =>
    rintro s _ rfl
    rfl
  case rejoin => exact fun s hstate hrepaired hcleared => congrArg Host.Outcome.next (if_pos ⟨hstate, hrepaired, hcleared⟩)
  case reclaim => exact fun s => rfl
  case grantAge =>
    intro s pool g₀ g rest hopen hg
    show execGrantAge pool s = _
    simp only [execGrantAge, hopen, ← hg]

end Sys2Proof.Machine

namespace Sys2Proof.Machine

/-! ### Contexts (O52) -/

/-- A context command that the READY gate lets through, CREATE only without a device-wide debug unlock (R479). -/
theorem ctxCommand_open {s : State} {op : Nat} (hready : s.start.ready = true)
    (hunlock : op = 1 → s.bit R.trustLifecycle 2 = false ∨ s.fld R.trustLifecycle 1 0 ≠ 1) :
    ¬(¬s.start.ready = true ∨ (op = 1 ∧ s.bit R.trustLifecycle 2 = true ∧ s.fld R.trustLifecycle 1 0 = 1)) := by
  rintro (hunready | ⟨hop, hbit, hlife⟩)
  · exact hunready hready
  · rcases hunlock hop with hclear | hother
    · exact Bool.eq_false_iff.mp hclear hbit
    · exact hother hlife

section

variable {s : State} (x : Nat) (hready : s.start.ready = true)
include hready

theorem ctxCommand_create (hunlock : s.bit R.trustLifecycle 2 = false ∨ s.fld R.trustLifecycle 1 0 ≠ 1) :
    s.ctxCommand 1 x = s.ctxCreate x :=
  (if_neg (by decide)).trans (if_neg (ctxCommand_open hready fun _ => hunlock))

theorem ctxCommand_resume : s.ctxCommand 2 x = s.ctxResume x :=
  (if_neg (by decide)).trans (if_neg (ctxCommand_open hready fun h => absurd h (by decide)))

theorem ctxCommand_halt : s.ctxCommand 3 x = s.ctxHalt x :=
  (if_neg (by decide)).trans (if_neg (ctxCommand_open hready fun h => absurd h (by decide)))

theorem ctxCommand_teardown : s.ctxCommand 4 x = s.ctxTeardown x :=
  (if_neg (by decide)).trans (if_neg (ctxCommand_open hready fun h => absurd h (by decide)))

theorem ctxCommand_spill : s.ctxCommand 5 x = s.ctxSpill x :=
  (if_neg (by decide)).trans (if_neg (ctxCommand_open hready fun h => absurd h (by decide)))

theorem ctxCommand_restore : s.ctxCommand 6 x = s.ctxRestore x :=
  (if_neg (by decide)).trans (if_neg (ctxCommand_open hready fun h => absurd h (by decide)))

theorem ctxCommand_release : s.ctxCommand 7 x = s.ctxRelease x :=
  (if_neg (by decide)).trans (if_neg (ctxCommand_open hready fun h => absurd h (by decide)))

end

/-- Settles O52, command by command: a command that the gate lets through is its operation, whose state check passes. -/
theorem contextCommandsComplete : Obligations.ContextCommandsComplete := by
  refine ⟨?create, ?resume, ?halt, ?teardown, ?spill, ?restore, ?release, ?tornDown, ?halted, ?spillDone, ?restoreDone,
    ?energy⟩
  case create =>
    rintro s ctx _ _ _ hready hunlock hstate rfl rfl rfl
    exact congrArg Host.Outcome.next ((ctxCommand_create ctx hready hunlock).trans (if_pos hstate))
  case resume =>
    exact fun s ctx hready hstate => congrArg Host.Outcome.next ((ctxCommand_resume ctx hready).trans (if_pos hstate))
  case halt =>
    exact fun s ctx hready hstate => congrArg Host.Outcome.next ((ctxCommand_halt ctx hready).trans (if_pos hstate))
  case teardown =>
    exact fun s ctx hready hstate => congrArg Host.Outcome.next ((ctxCommand_teardown ctx hready).trans (if_pos hstate))
  case spill =>
    intro s ctx word s₁ hready hstate hunused hword hs₁
    refine congrArg Host.Outcome.next ((ctxCommand_spill ctx hready).trans ?_)
    subst hword
    exact (if_pos ⟨hstate, Bool.eq_false_iff.mp hunused⟩).trans (by simp only [← hs₁])
  case restore =>
    exact fun s ctx hready hstate hheld =>
      congrArg Host.Outcome.next ((ctxCommand_restore ctx hready).trans (if_pos ⟨hstate, hheld⟩))
  case release =>
    intro s ctx hs s₁ s₂ s₃ s₄ hready hstate hhs hs₁ hs₂ hs₃ hs₄
    refine congrArg Host.Outcome.next ((ctxCommand_release ctx hready).trans ((if_pos hstate).trans ?_))
    simp only [← hhs, ← hs₁, ← hs₂, ← hs₃, ← hs₄]
  case tornDown =>
    intro s ctx s₁ hstate hempty hs₁ hidle
    show execCtxHalted ctx s = _
    simp only [execCtxHalted, hstate, hempty, if_true, ← hs₁, hidle]
  case halted =>
    intro s ctx hstate hempty hstopped
    show execCtxHalted ctx s = _
    refine (if_neg fun h => ?_).trans ((if_pos hstate).trans (if_pos ⟨hempty, hstopped⟩))
    exact absurd (hstate.symm.trans h) (by decide)
  case spillDone =>
    intro s ctx s₁ hstate hs₁
    show execSpillDone ctx true s = _
    simp only [execSpillDone, hstate, ne_eq, not_true_eq_false, if_false, if_true, ← hs₁]
  case restoreDone =>
    intro s ctx image s₁ hstate hs₁
    show execRestoreDone ctx true image s = _
    simp only [execRestoreDone, hstate, ne_eq, not_true_eq_false, if_false, if_true, ← hs₁]
  case energy => exact fun s acts => rfl

end Sys2Proof.Machine

namespace Sys2Proof.Machine

/-! ### Freezes, samples, buffers, dumps and the ledger (O53) -/

/-- Settles O53, command by command: under its conditions each guard of a meaning is decided. -/
theorem observabilityCommandsComplete : Obligations.ObservabilityCommandsComplete := by
  refine ⟨?freezeArm, ?freeze, ?unfreeze, ?sample, ?late, ?sysBuffer, ?ctxBuffer, ?profile, ?dumpArm, ?dumpCopy, ?ledger,
    ?ledgerError, ?sync⟩
  case freezeArm =>
    exact fun s hidle hfuture => congrArg Host.Outcome.next
      (if_neg (not_or.mpr ⟨Bool.eq_false_iff.mp hidle, Nat.not_le.mpr hfuture⟩))
  case freeze =>
    intro s t s₁ s₂ harmed ht hs₁ hs₂
    show execFreeze s = _
    simp only [execFreeze, harmed, not_true_eq_false, if_false, ← ht, ← hs₁, ← hs₂]
  case unfreeze =>
    rintro s _ rfl
    rfl
  case sample =>
    intro s hon hns2
    show execNs2Sample false s = _
    simp only [execNs2Sample, hon, hns2, not_true_eq_false, Bool.false_eq_true, or_self, if_false]
  case late =>
    intro s hon hns2
    show execNs2Sample true s = _
    simp only [execNs2Sample, hon, hns2, not_true_eq_false, or_self, if_false, if_true]
  case sysBuffer =>
    rintro s _ hoff hring rfl
    exact congrArg Host.Outcome.next (if_neg (not_or.mpr ⟨Bool.eq_false_iff.mp hoff, Classical.not_not.mpr hring⟩))
  case ctxBuffer =>
    rintro s ctx _ hoff hring rfl
    exact congrArg Host.Outcome.next (if_neg (not_or.mpr ⟨Bool.eq_false_iff.mp hoff, Classical.not_not.mpr hring⟩))
  case profile => exact fun s ctx value hcodes => congrArg Host.Outcome.next (if_pos hcodes)
  case dumpArm =>
    intro s hoff hring
    refine congrArg Host.Outcome.next (if_neg (not_or.mpr ⟨fun h => ?_, Classical.not_not.mpr hring⟩))
    exact absurd (hoff.symm.trans h) (by decide)
  case dumpCopy =>
    intro s u base size bs hunit hjob htorn hparked hdrained hbase hsize hbs
    show execDumpCopy s = _
    simp only [execDumpCopy, hunit, hjob, htorn, hparked, hdrained, ne_eq, not_true_eq_false, Bool.false_eq_true, or_self,
      if_false, ← hbase, ← hsize]
    subst hbs
    rfl
  case ledger =>
    rintro s _ _ _ rfl rfl rfl
    refine congrArg Host.Outcome.next ((if_pos rfl).trans ?_)
    cases hcopy : s.obs.ledger.useB with
    | false => simp only [Bool.not_false, Bool.false_eq_true, if_true, if_false]
    | true => simp only [Bool.not_true, Bool.false_eq_true, if_true, if_false]
  case ledgerError => exact fun s => congrArg Host.Outcome.next (if_neg Bool.false_ne_true)
  case sync => exact fun s verified => rfl

end Sys2Proof.Machine

namespace Sys2Proof.Machine

/-! ### Steps, domains, sensors, limiters and machine faults (O54) -/

section

variable {s : State}

/-- A change of the ledger leaves the registers. -/
theorem fld_modLedger (f : Ledger → Ledger) (k hi lo : Nat) : (s.modLedger f).fld k hi lo = s.fld k hi lo := rfl

/-- A domain that is enabled, off and not kept off by a trip may be switched on. -/
theorem domainOn_may {d : Nat} (hen : s.bit R.pwrDomainEn d = true) (hoff : s.bit R.pwrDomainState d = false)
    (htrip : s.power.trip = false ∨ tripDomains.contains d = false) :
    ¬(¬s.bit R.pwrDomainEn d = true ∨ s.bit R.pwrDomainState d = true ∨
      (s.power.trip = true ∧ tripDomains.contains d = true)) := by
  rintro (hdisabled | hon | ⟨htripped, hkept⟩)
  · exact hdisabled hen
  · exact Bool.eq_false_iff.mp hoff hon
  · rcases htrip with h | h
    · exact Bool.eq_false_iff.mp h htripped
    · exact Bool.eq_false_iff.mp h hkept

end

/-- Settles O54, command by command: under its conditions each guard of a meaning is decided. -/
theorem powerAndClockCommandsComplete : Obligations.PowerAndClockCommandsComplete := by
  refine ⟨?stepEdge, ?sample, ?domainEn, ?domainOn, ?domainOnFails, ?domainFail, ?temperature, ?hot, ?cool, ?supply, ?brake,
    ?brakeRelease, ?rings, ?vmax, ?d2d, ?pll, ?ctrlStore, ?watchdog⟩
  case stepEdge =>
    intro s t vout s₁ htrip ht hmoves hrails hs₁
    show execCclkStepEdge vout s = _
    have hgo : ¬(t < s.curStep ∧ ¬vout = true) := by
      rintro ⟨hdown, hlow⟩
      rcases hrails with hup | hvout
      · exact Nat.lt_asymm hdown hup
      · exact hlow hvout
    simp only [execCclkStepEdge, ← ht, htrip, hmoves, hgo, Bool.false_eq_true, or_self, if_false, ← hs₁]
  case sample =>
    rintro s powers _ rfl
    rfl
  case domainEn =>
    rintro s value _ rfl
    rfl
  case domainOn =>
    exact fun s domain hen hoff htrip =>
      (if_neg (domainOn_may hen hoff htrip)).trans (if_neg (Classical.not_not.mpr rfl))
  case domainOnFails =>
    exact fun s domain hen hoff htrip => (if_neg (domainOn_may hen hoff htrip)).trans (if_pos Bool.false_ne_true)
  case domainFail => exact fun s domain hon => if_pos hon
  case temperature =>
    intro s readings rs t d th s₁ s₂ s₃ hrs hhottest hs₁ hth hs₂ hs₃
    show execTemperatureRead readings s = _
    simp only [execTemperatureRead, ← hrs, ← hhottest, ← hs₁, ← hth, ← hs₂, ← hs₃]
  case hot => exact fun s hhot => if_pos hhot
  case cool => exact fun s hcalm hcool => (if_neg (Bool.eq_false_iff.mp hcalm)).trans (if_pos hcool)
  case supply =>
    intro s volts near s₁ s₂ hs₁ hnear hs₂
    show execSupplySample volts s = _
    subst hnear
    simp only [execSupplySample, ← hs₁, ← hs₂]
  case brake => exact fun s hoff => if_neg (Bool.eq_false_iff.mp hoff)
  case brakeRelease => exact fun s => rfl
  case rings => exact fun s quotients => rfl
  case vmax =>
    intro s n b s₁ s₂ s₃ hvset hs₁ hn hs₂ hb hs₃
    show execVmaxMinute s = _
    have hused : s₂.fld R.pwrVmaxUsed 31 0 = n := by rw [hs₂, fld_modLedger, hn]
    simp only [execVmaxMinute, hvset, ne_eq, not_true_eq_false, if_false, ← hs₁, ← hn, ← hs₂, hused, ← hb, ← hs₃]
  case d2d => exact fun s => rfl
  case pll =>
    intro s ref s₁ hlocked hs₁
    show execPllLost ref s = _
    simp only [execPllLost, hlocked, not_true_eq_false, if_false, ← hs₁]
  case ctrlStore => exact fun s => rfl
  case watchdog => exact fun s => rfl

end Sys2Proof.Machine
